-- ==== Sys2Proof/Word.lean ====
section
/-! DEFINITION. The tagged word (spec/02 R26) and the plain number types of the model. Only the type and its
plainest arithmetic stand here; what the device does with a word stands under Machine/. -/

namespace Sys2Proof

/-- Eight bits: a tag byte, a byte of a raw access, a byte of a mailbox buffer. -/
abbrev Byte := BitVec 8

/-- Sixty-four bits: a payload or an untagged register. -/
abbrev W64 := BitVec 64

/-- A tagged word: 64 payload bits and an 8-bit tag (R26). -/
structure Word where
  tag : Byte
  payload : W64
deriving DecidableEq, Repr, Inhabited

/-- A word of DRAM: payload, tag and the eight check bits of R56. -/
structure DramWord where
  payload : W64
  tag : Byte
  check : Byte
deriving DecidableEq, Repr, Inhabited

end Sys2Proof
end

