-- ==== Sys2Proof/Syntax.lean ====
section
/-! DEFINITION. The commands of the block: one constructor of `Instr` per row of spec/opcode_table.json, with the
operands that the row's rule gives it. An instruction of a core names the core that executes it; a step that a unit
of the device takes on its own names the unit; a step caused from outside carries what the outside supplies. -/

namespace Sys2Proof

/-- A core, 0 to 127 (01 Table 1.1). -/
abbrev CoreId := Fin 128
/-- A general register number g0 to g31, also a vector register number v0 to v31. -/
abbrev Reg := Fin 32
/-- A cluster, its L2, its Percolator and its maintenance engine. -/
abbrev ClusterId := Fin 16
/-- A compartment number; 0 is the Lockkeeper (16). -/
abbrev CompId := Fin 16
/-- A Weir group (08 R219). -/
abbrev GroupId := Fin 64
/-- A device number (11 R288). -/
abbrev DevId := Fin 16
/-- A Culvert channel (16 R396). -/
abbrev ChanId := Fin 64
/-- A timer channel (14 R349). -/
abbrev TimerId := Fin 16
/-- A Xitex port (17 R404). -/
abbrev PortId := Fin 8
/-- A queue pair of a virtual function (16 R391). -/
abbrev QpId := Fin 8

/-- The second operand of a generic instruction: a register, or imm12 as a FIXNUM (05 R118, 04 Table 4.6). -/
inductive GSrc where
  | reg (r : Reg)
  | imm (i : BitVec 12)
deriving DecidableEq, Repr

/-- What a member joins a group operation with (08 R221): the kind of the operation. -/
inductive GroupKind where
  | barrier
  | broadcast
  | reduce (f : Fin 5)
deriving DecidableEq, Repr

/-- An arrival at a group operation: the kind (none where a device's own members already disagree), the number of
senders of a broadcast it stands for, and the word contributed (08 R222, R226, R227). -/
structure GroupArrival where
  kind : Option GroupKind
  senders : Nat
  word : Word
deriving DecidableEq, Repr

/-- What a timed action's install carries to another member device (08 R229). -/
structure ActionInstall where
  origin : DevId
  id : Nat
  comp : CompId
  group : GroupId
  act : BitVec 4
  arg : BitVec 32
  tick : W64
deriving DecidableEq, Repr

/-- A mailbox command as the host writes it: the header of 15 Table 15.4 but for OPCODE, which the row gives, and
the argument bytes from offset 16 of the command buffer. -/
structure MbxCmd where
  len : BitVec 16
  seq : BitVec 32
  compart : Byte
  rsv9 : Byte
  rsv10 : BitVec 16
  rsv12 : BitVec 32
  args : List Byte
deriving DecidableEq, Repr

/-- Where a machine check comes from: one that is pending already; a fault of the core's own that arises at the instruction (18 Table
18.2 subcodes 1, 2 and 4; 13 R339 inside an entry routine); bad parity in the Percolator of the core's cluster while it works for a
compartment (subcode 5); or a dirty-line error that another device of the compartment reports (subcode 3). -/
inductive McSource where
  | pending
  | microStack (upc : BitVec 15) (underflow : Bool)
  | microStackInEntry (upc : BitVec 15) (underflow : Bool)
  | controlStore (upc : BitVec 15) (quarter : BitVec 2)
  | regFile (reg : BitVec 5) (bank : BitVec 3) (numeric : Bool)
  | engine (comp : CompId)
  | otherDevice (comp : CompId) (line : BitVec 38) (info : BitVec 10)
deriving DecidableEq, Repr

/-- The bit of an array that an upset strikes before a fill reads (12 R315, Table 12.4; 18 Table 18.1 class 0x03): in the core's copies
of a line in L1D, the victim buffer or L1I; in the data or in the address, state and directory bits of the L2 line of its cluster; in a
word of its cluster's Carafe; in a TLB of the core or of its cluster's Percolator. -/
inductive ParityHit where
  | clean
  | l1 (line : BitVec 38) (half : Fin 16)
  | l2 (line : BitVec 38) (half : Fin 16)
  | l2State (line : BitVec 38)
  | carafe (off : BitVec 21) (upper : Bool)
  | coreTlb (va : BitVec 64)
  | engineTlb (va : BitVec 64)
deriving DecidableEq, Repr

/-- What an instruction on a mispredicted path does (10 R277): a walk for a fetch or a load, a fetch, a load, or the training of the
predictor by a transfer at an address. -/
inductive WrongPath where
  | walk (fetch : Bool) (va : BitVec 64)
  | access (fetch : Bool) (va : BitVec 64)
  | branch (pc target : BitVec 64) (taken : Bool)
  | jump (pc target : BitVec 64)
  | call (pc : BitVec 64)
  | ret
deriving DecidableEq, Repr

/-- What comes with a line fill: the upset that strikes before it, and what a mispredicted path does (none: nothing). -/
structure FillCause where
  upset : ParityHit
  wrong : Option WrongPath
deriving DecidableEq, Repr

/-- The outcome of training a port (17 R406). -/
structure TrainResult where
  lane0 : Bool
  width : BitVec 8
  peer : DevId
deriving DecidableEq, Repr

/-- A sensor sample (15 Table 15.14); temperatures in 0.1 degree. -/
structure SensorSample where
  vin : Nat
  current : Nat
  power : Nat
  logic : Nat
  energy : Nat
  dramT : List Int
  rails : List Nat
deriving DecidableEq, Repr

/-- A reading of every junction sensor (19 R448), in 0.1 degree. -/
structure ThermalReading where
  cluster : List Int
  hub : Int
  controller : List Int
  port : List Int
deriving DecidableEq, Repr

/-- A Lockkeeper command to the regulator controller (19 R435, R437). -/
inductive RegCommand where
  | setVcore (k : ClusterId) (millivolt : Nat)
  | setCap (milliwatt : Nat)
deriving DecidableEq, Repr

/-- The logic rails of 19 Table 19.1. -/
inductive Rail where
  | vaux | vsram | vcore | vio | vddq
deriving DecidableEq, Repr

/-- What calibration finds (19 R443, 17 R419, 08 R212-R213): the rate steps taken down, the subchannel that fails at
4800 MT/s, the devices present on the board, and whether a Xitex path to the root exists. -/
structure CalResult where
  rateSteps : Nat
  failedSub : Option (Fin 16)
  present : BitVec 16
  rootPath : Bool
deriving DecidableEq, Repr

/-- A flit: the fields of 17 Tables 17.2 and 17.3 and its body words. -/
structure Flit where
  typ : BitVec 4
  dst : BitVec 4
  src : BitVec 4
  compart : BitVec 4
  tid : BitVec 12
  hops : BitVec 4
  bytemask : Byte
  wmask : Byte
  nline : BitVec 3
  bodytag : Bool
  status : BitVec 4
  cls : Bool
  rsv : BitVec 7
  pa : BitVec 44
  paRsv : BitVec 20
  body : List Word
  seq : BitVec 12
  ack : BitVec 12
  nak : Bool
  trRsv : BitVec 7
deriving DecidableEq, Repr

/-- A PCIe error reported through AER (18 R428). -/
inductive PcieErr where
  | correctable
  | completion (n : ChanId)
  | fatal
deriving DecidableEq, Repr

/-- The instructions of the test access port (20 R454). -/
inductive JtagInstr where
  | bypass | idcode | sample | extest | extestPulse | extestTrain
deriving DecidableEq, Repr

/-- The fields of PCIe configuration space that the host sets for the device (17 Table 17.6). -/
inductive CfgReg where
  | maxPayload
  | maxRead
deriving DecidableEq, Repr

/-- Who writes a register (00 R4, 07 R178, 15 R364, 16 R391). -/
inductive RegWriter where
  | core (c : CoreId)
  | lockkeeper
  | hostPf
  | hostVf (p : CompId)
  | hostConfig (r : CfgReg)
deriving DecidableEq, Repr

/-- The commands: one constructor per row of spec/opcode_table.json. -/
inductive Instr where
  /-- SYSCALL (R260). -/
  | syscall (c : CoreId) (n : BitVec 5)
  /-- RETX (R250). -/
  | retx (c : CoreId)
  /-- ISYNC (R117). -/
  | isync (c : CoreId)
  /-- FENCE_L (R107). -/
  | fenceL (c : CoreId)
  /-- FENCE_S (R107). -/
  | fenceS (c : CoreId)
  /-- FENCE_A (R107). -/
  | fenceA (c : CoreId)
  /-- MFC (R66). -/
  | mfc (c : CoreId) (gd : Reg) (n : BitVec 12)
  /-- MTC (R68). -/
  | mtc (c : CoreId) (n : BitVec 12) (ga : Reg)
  /-- WDSET (R78). -/
  | wdset (c : CoreId) (ga : Reg)
  /-- WDCLR (R78). -/
  | wdclr (c : CoreId) (ga : Reg)
  /-- IROUTE_WR (R248). -/
  | irouteWr (c : CoreId) (ga : Reg)
  /-- SWI (R247). -/
  | swi (c : CoreId) (ga : Reg)
  /-- SWCLR (R247). -/
  | swclr (c : CoreId) (ga : Reg)
  /-- MFB (R77). -/
  | mfb (c : CoreId) (gd : Reg) (r : Reg)
  /-- MTB (R77). -/
  | mtb (c : CoreId) (r : Reg) (ga : Reg)
  /-- INVTLB (R304). -/
  | invtlb (c : CoreId) (ga : Reg) (sel : BitVec 2)
  /-- INVTLB_B (R305). -/
  | invtlbB (c : CoreId) (ga : Reg) (sel : BitVec 2)
  /-- INVTLB_B_ARRIVAL (R305). -/
  | invtlbBArrival (c : CoreId)
  /-- INVTLB_B_COMPLETE (R305). -/
  | invtlbBComplete (c : CoreId)
  /-- HALT (R111). -/
  | halt (c : CoreId)
  /-- BRK (R260). -/
  | brk (c : CoreId) (n : BitVec 12)
  /-- DRET (R135). -/
  | dret (c : CoreId) (ga : Reg)
  /-- ADD (R94). -/
  | add (c : CoreId) (gd : Reg) (ga : Reg) (gb : Reg)
  /-- SUB (R94). -/
  | sub (c : CoreId) (gd : Reg) (ga : Reg) (gb : Reg)
  /-- AND (R94). -/
  | and (c : CoreId) (gd : Reg) (ga : Reg) (gb : Reg)
  /-- OR (R94). -/
  | or (c : CoreId) (gd : Reg) (ga : Reg) (gb : Reg)
  /-- XOR (R94). -/
  | xor (c : CoreId) (gd : Reg) (ga : Reg) (gb : Reg)
  /-- SHL (R94). -/
  | shl (c : CoreId) (gd : Reg) (ga : Reg) (gb : Reg)
  /-- SHR (R94). -/
  | shr (c : CoreId) (gd : Reg) (ga : Reg) (gb : Reg)
  /-- SAR (R94). -/
  | sar (c : CoreId) (gd : Reg) (ga : Reg) (gb : Reg)
  /-- ROL (R94). -/
  | rol (c : CoreId) (gd : Reg) (ga : Reg) (gb : Reg)
  /-- CMPS (R94). -/
  | cmps (c : CoreId) (gd : Reg) (ga : Reg) (gb : Reg)
  /-- CMPU (R94). -/
  | cmpu (c : CoreId) (gd : Reg) (ga : Reg) (gb : Reg)
  /-- MUL (R94). -/
  | mul (c : CoreId) (gd : Reg) (ga : Reg) (gb : Reg)
  /-- MULH (R94). -/
  | mulh (c : CoreId) (gd : Reg) (ga : Reg) (gb : Reg)
  /-- DIV (R94). -/
  | div (c : CoreId) (gd : Reg) (ga : Reg) (gb : Reg)
  /-- DIVU (R94). -/
  | divu (c : CoreId) (gd : Reg) (ga : Reg) (gb : Reg)
  /-- REM (R94). -/
  | rem (c : CoreId) (gd : Reg) (ga : Reg) (gb : Reg)
  /-- REMU (R94). -/
  | remu (c : CoreId) (gd : Reg) (ga : Reg) (gb : Reg)
  /-- ADDI (R94). -/
  | addi (c : CoreId) (gd : Reg) (imm : BitVec 16)
  /-- ANDI (R94). -/
  | andi (c : CoreId) (gd : Reg) (imm : BitVec 16)
  /-- ORI (R94). -/
  | ori (c : CoreId) (gd : Reg) (imm : BitVec 16)
  /-- XORI (R94). -/
  | xori (c : CoreId) (gd : Reg) (imm : BitVec 16)
  /-- SHLI (R94). -/
  | shli (c : CoreId) (gd : Reg) (imm : BitVec 16)
  /-- SHRI (R94). -/
  | shri (c : CoreId) (gd : Reg) (imm : BitVec 16)
  /-- SARI (R94). -/
  | sari (c : CoreId) (gd : Reg) (imm : BitVec 16)
  /-- MOVI (R94). -/
  | movi (c : CoreId) (gd : Reg) (imm : BitVec 16)
  /-- MOVHI (R94). -/
  | movhi (c : CoreId) (gd : Reg) (imm : BitVec 16) (h : Fin 3)
  /-- GADD (R120). -/
  | gadd (c : CoreId) (gd : Reg) (ga : Reg) (b : GSrc)
  /-- GSUB (R120). -/
  | gsub (c : CoreId) (gd : Reg) (ga : Reg) (b : GSrc)
  /-- GMUL (R120). -/
  | gmul (c : CoreId) (gd : Reg) (ga : Reg) (b : GSrc)
  /-- GDIV (R122). -/
  | gdiv (c : CoreId) (gd : Reg) (ga : Reg) (b : GSrc)
  /-- GQUO (R122). -/
  | gquo (c : CoreId) (gd : Reg) (ga : Reg) (b : GSrc)
  /-- GREM (R122). -/
  | grem (c : CoreId) (gd : Reg) (ga : Reg) (b : GSrc)
  /-- GNEG (R120). -/
  | gneg (c : CoreId) (gd : Reg) (ga : Reg)
  /-- GLT (R121). -/
  | glt (c : CoreId) (gd : Reg) (ga : Reg) (b : GSrc)
  /-- GLE (R121). -/
  | gle (c : CoreId) (gd : Reg) (ga : Reg) (b : GSrc)
  /-- GEQ (R121). -/
  | geq (c : CoreId) (gd : Reg) (ga : Reg) (b : GSrc)
  /-- GCMP (R121). -/
  | gcmp (c : CoreId) (gd : Reg) (ga : Reg) (b : GSrc)
  /-- EQ (R121). -/
  | eq (c : CoreId) (gd : Reg) (ga : Reg) (b : GSrc)
  /-- GTAG (R95). -/
  | gtag (c : CoreId) (gd : Reg) (ga : Reg)
  /-- STAG (R95). -/
  | stag (c : CoreId) (gd : Reg) (ga : Reg) (t : BitVec 8)
  /-- TCLS (R95). -/
  | tcls (c : CoreId) (gd : Reg) (ga : Reg)
  /-- CAR (R141). -/
  | car (c : CoreId) (gd : Reg) (ga : Reg)
  /-- CDR (R141). -/
  | cdr (c : CoreId) (gd : Reg) (ga : Reg)
  /-- CONS (R143). -/
  | cons (c : CoreId) (gd : Reg) (ga : Reg) (gb : Reg)
  /-- RPLACA (R142). -/
  | rplaca (c : CoreId) (ga : Reg) (gb : Reg)
  /-- RPLACD (R142). -/
  | rplacd (c : CoreId) (ga : Reg) (gb : Reg)
  /-- LWALK (R145). -/
  | lwalk (c : CoreId) (rep : Option Reg) (gd : Reg) (ga : Reg) (gb : Reg)
  /-- ALLOC (R146). -/
  | alloc (c : CoreId) (gd : Reg) (ga : Reg) (p : BitVec 5)
  /-- HDR (R147). -/
  | hdr (c : CoreId) (gd : Reg) (ga : Reg)
  /-- VREF (R148). -/
  | vref (c : CoreId) (gd : Reg) (ga : Reg) (gb : Reg)
  /-- VSET (R148). -/
  | vset (c : CoreId) (gd : Reg) (ga : Reg) (gb : Reg)
  /-- VLEN (R147). -/
  | vlen (c : CoreId) (gd : Reg) (ga : Reg)
  /-- LDW (R96). -/
  | ldw (c : CoreId) (gd : Reg) (ga : Reg) (disp : BitVec 13) (rsv : BitVec 2)
  /-- LDW_NB (R98). -/
  | ldwNb (c : CoreId) (gd : Reg) (ga : Reg) (disp : BitVec 13) (rsv : BitVec 2)
  /-- STW (R97). -/
  | stw (c : CoreId) (gd : Reg) (ga : Reg) (disp : BitVec 13) (rsv : BitVec 2)
  /-- STW_NB (R98). -/
  | stwNb (c : CoreId) (gd : Reg) (ga : Reg) (disp : BitVec 13) (rsv : BitVec 2)
  /-- LD_B (R99). -/
  | ldB (c : CoreId) (gd : Reg) (ga : Reg) (u : Bool) (disp : BitVec 13)
  /-- LD_H (R99). -/
  | ldH (c : CoreId) (gd : Reg) (ga : Reg) (u : Bool) (disp : BitVec 13)
  /-- LD_W (R99). -/
  | ldW (c : CoreId) (gd : Reg) (ga : Reg) (u : Bool) (disp : BitVec 13)
  /-- LD_D (R99). -/
  | ldD (c : CoreId) (gd : Reg) (ga : Reg) (u : Bool) (disp : BitVec 13)
  /-- ST_B (R100). -/
  | stB (c : CoreId) (gd : Reg) (ga : Reg) (disp : BitVec 13)
  /-- ST_H (R100). -/
  | stH (c : CoreId) (gd : Reg) (ga : Reg) (disp : BitVec 13)
  /-- ST_W (R100). -/
  | stW (c : CoreId) (gd : Reg) (ga : Reg) (disp : BitVec 13)
  /-- ST_D (R100). -/
  | stD (c : CoreId) (gd : Reg) (ga : Reg) (disp : BitVec 13)
  /-- SPLIT_STORE_BUS_ERROR (R102). -/
  | splitStoreBusError (c : CoreId)
  /-- CASW (R103). -/
  | casw (c : CoreId) (gd : Reg) (ga : Reg) (gb : Reg)
  /-- MOVW (R114). -/
  | movw (c : CoreId) (rep : Option Reg) (gd : Reg) (ga : Reg) (gb : Reg)
  /-- FILLW (R114). -/
  | fillw (c : CoreId) (rep : Option Reg) (gd : Reg) (ga : Reg) (gb : Reg)
  /-- SCANW (R114). -/
  | scanw (c : CoreId) (rep : Option Reg) (gd : Reg) (ga : Reg) (gb : Reg)
  /-- CMPW (R114). -/
  | cmpw (c : CoreId) (rep : Option Reg) (gd : Reg) (ga : Reg) (gb : Reg)
  /-- MOVB (R114). -/
  | movb (c : CoreId) (rep : Option Reg) (gd : Reg) (ga : Reg) (gb : Reg)
  /-- PREF (R108). -/
  | pref (c : CoreId) (h : BitVec 5) (ga : Reg) (disp : BitVec 16)
  /-- BEQ (R109). -/
  | beq (c : CoreId) (ga : Reg) (gb : Reg) (disp : BitVec 11)
  /-- BNE (R109). -/
  | bne (c : CoreId) (ga : Reg) (gb : Reg) (disp : BitVec 11)
  /-- BNIL (R109). -/
  | bnil (c : CoreId) (ga : Reg) (disp : BitVec 16)
  /-- BNNIL (R109). -/
  | bnnil (c : CoreId) (ga : Reg) (disp : BitVec 16)
  /-- BZ (R109). -/
  | bz (c : CoreId) (ga : Reg) (disp : BitVec 16)
  /-- BNZ (R109). -/
  | bnz (c : CoreId) (ga : Reg) (disp : BitVec 16)
  /-- BLTF (R109). -/
  | bltf (c : CoreId) (ga : Reg) (gb : Reg) (disp : BitVec 11)
  /-- BGEF (R109). -/
  | bgef (c : CoreId) (ga : Reg) (gb : Reg) (disp : BitVec 11)
  /-- BTAG (R109). -/
  | btag (c : CoreId) (ga : Reg) (t : BitVec 8) (disp : BitVec 8)
  /-- BNTAG (R109). -/
  | bntag (c : CoreId) (ga : Reg) (t : BitVec 8) (disp : BitVec 8)
  /-- BCLS (R109). -/
  | bcls (c : CoreId) (ga : Reg) (k : BitVec 3) (disp : BitVec 16)
  /-- JMP (R109). -/
  | jmp (c : CoreId) (disp : BitVec 26)
  /-- CALL (R109). -/
  | call (c : CoreId) (disp : BitVec 26)
  /-- JR (R109). -/
  | jr (c : CoreId) (ga : Reg)
  /-- CALLR (R109). -/
  | callr (c : CoreId) (ga : Reg)
  /-- RET (R109). -/
  | ret (c : CoreId) (ga : Reg)
  /-- RDT (R216). -/
  | rdt (c : CoreId) (gd : Reg)
  /-- WAITT (R217). -/
  | waitt (c : CoreId) (ga : Reg)
  /-- WAITT_EXPIRY (R217). -/
  | waittExpiry (c : CoreId)
  /-- ARMT (R218). -/
  | armt (c : CoreId) (ga : Reg) (n : Fin 4)
  /-- ALARM_FIRE (R218). -/
  | alarmFire (c : CoreId) (n : Fin 4)
  /-- BARW (R221). -/
  | barw (c : CoreId) (ga : Reg)
  /-- BARA (R221). -/
  | bara (c : CoreId) (ga : Reg)
  /-- BART (R221). -/
  | bart (c : CoreId) (gd : Reg) (ga : Reg)
  /-- BCST (R226). -/
  | bcst (c : CoreId) (gd : Reg) (ga : Reg) (gb : Reg)
  /-- RDUC (R227). -/
  | rduc (c : CoreId) (gd : Reg) (ga : Reg) (gb : Reg) (f : BitVec 3)
  /-- GROUP_MESSAGE (R234). -/
  | groupMessage (g : GroupId) (d : DevId) (a : GroupArrival)
  /-- GROUP_OPERATION_COMPLETE (R222). -/
  | groupOperationComplete (g : GroupId)
  /-- VADD_D (R152). -/
  | vaddD (c : CoreId) (vd : Reg) (va : Reg) (vb : Reg)
  /-- VSUB_D (R152). -/
  | vsubD (c : CoreId) (vd : Reg) (va : Reg) (vb : Reg)
  /-- VMUL_D (R152). -/
  | vmulD (c : CoreId) (vd : Reg) (va : Reg) (vb : Reg)
  /-- VDIV_D (R152). -/
  | vdivD (c : CoreId) (vd : Reg) (va : Reg) (vb : Reg)
  /-- VFMA_D (R152). -/
  | vfmaD (c : CoreId) (vd : Reg) (va : Reg) (vb : Reg)
  /-- VSQRT_D (R152). -/
  | vsqrtD (c : CoreId) (vd : Reg) (va : Reg)
  /-- VMIN_D (R152). -/
  | vminD (c : CoreId) (vd : Reg) (va : Reg) (vb : Reg)
  /-- VMAX_D (R152). -/
  | vmaxD (c : CoreId) (vd : Reg) (va : Reg) (vb : Reg)
  /-- VCMPLT_D (R152). -/
  | vcmpltD (c : CoreId) (vd : Reg) (va : Reg) (vb : Reg)
  /-- VCMPEQ_D (R152). -/
  | vcmpeqD (c : CoreId) (vd : Reg) (va : Reg) (vb : Reg)
  /-- VCVT_LD (R152). -/
  | vcvtLd (c : CoreId) (vd : Reg) (va : Reg)
  /-- VCVT_DL (R152). -/
  | vcvtDl (c : CoreId) (vd : Reg) (va : Reg)
  /-- VADD_L (R152). -/
  | vaddL (c : CoreId) (vd : Reg) (va : Reg) (vb : Reg)
  /-- VSUB_L (R152). -/
  | vsubL (c : CoreId) (vd : Reg) (va : Reg) (vb : Reg)
  /-- VMUL_L (R152). -/
  | vmulL (c : CoreId) (vd : Reg) (va : Reg) (vb : Reg)
  /-- VAND (R152). -/
  | vand (c : CoreId) (vd : Reg) (va : Reg) (vb : Reg)
  /-- VOR (R152). -/
  | vor (c : CoreId) (vd : Reg) (va : Reg) (vb : Reg)
  /-- VXOR (R152). -/
  | vxor (c : CoreId) (vd : Reg) (va : Reg) (vb : Reg)
  /-- VLD_F (R151). -/
  | vldF (c : CoreId) (vd : Reg) (ga : Reg) (gb : Reg)
  /-- VLD_B (R151). -/
  | vldB (c : CoreId) (vd : Reg) (ga : Reg) (gb : Reg)
  /-- VST_F (R151). -/
  | vstF (c : CoreId) (vd : Reg) (ga : Reg) (gb : Reg)
  /-- VST_B (R151). -/
  | vstB (c : CoreId) (vd : Reg) (ga : Reg) (gb : Reg)
  /-- VINS (R152). -/
  | vins (c : CoreId) (vd : Reg) (ga : Reg) (l : Fin 4)
  /-- VEXT_F (R152). -/
  | vextF (c : CoreId) (gd : Reg) (va : Reg) (l : Fin 4)
  /-- VEXT_L (R152). -/
  | vextL (c : CoreId) (gd : Reg) (va : Reg) (l : Fin 4)
  /-- VSPLAT (R152). -/
  | vsplat (c : CoreId) (vd : Reg) (ga : Reg)
  /-- NRDF (R93). -/
  | nrdf (c : CoreId) (gd : Reg)
  /-- NWRF (R93). -/
  | nwrf (c : CoreId) (ga : Reg)
  /-- INTERRUPT_ENTRY (R249). -/
  | interruptEntry (c : CoreId)
  /-- MACHINE_CHECK (R424). -/
  | machineCheck (c : CoreId) (src : McSource)
  /-- DIVIDE_COMPLETE (R275). -/
  | divideComplete (c : CoreId)
  /-- LONG_OPERATION_COMPLETE (R274). -/
  | longOperationComplete (c : CoreId)
  /-- MARK_BUFFER_ROOM (R159). -/
  | markBufferRoom (c : CoreId)
  /-- FORWARD_REPLY (R159). -/
  | forwardReply (c : CoreId)
  /-- CARD_CHECK_REPLY (R173). -/
  | cardCheckReply (c : CoreId)
  /-- LINE_FILL (R309). -/
  | lineFill (c : CoreId) (what : FillCause)
  /-- STORE_QUEUE_DRAIN (R273). -/
  | storeQueueDrain (c : CoreId)
  /-- DRAM_READ (R57). -/
  | dramRead (pa : BitVec 44) (evict : Option (ClusterId × BitVec 44))
  /-- PATROL_READ (R420). -/
  | patrolRead (m : Fin 8)
  /-- REFRESH (R417). -/
  | refresh (sub : Fin 16)
  /-- DRIFT_TRACKING (R419). -/
  | driftTracking (sub : Fin 16)
  /-- SET_GOODCOL (R230). -/
  | setGoodcol (e : Fin 32)
  /-- PHASE_FLIP_STOP (R166). -/
  | phaseFlipStop (c : CoreId)
  /-- PHASE_FLIP_RESUME (R166). -/
  | phaseFlipResume (c : CoreId)
  /-- GROUP_INTERRUPT (R230). -/
  | groupInterrupt (e : Fin 32)
  /-- START_CULVERT_CHANNEL (R396). -/
  | startCulvertChannel (e : Fin 32)
  /-- START_PERCOLATOR_COMMAND (R180). -/
  | startPercolatorCommand (e : Fin 32)
  /-- START_TIMER_CHANNELS (R358). -/
  | startTimerChannels (e : Fin 32)
  /-- STAGGER_TIMER_CHANNELS (R359). -/
  | staggerTimerChannels (e : Fin 32)
  /-- SNAPSHOT_STOP (R200). -/
  | snapshotStop (e : Fin 32)
  /-- SNAPSHOT_CORE_STOP (R200). -/
  | snapshotCoreStop (c : CoreId)
  /-- SNAPSHOT_DUMP (R201). -/
  | snapshotDump (c : CoreId)
  /-- SNAPSHOT_STOP_REPORT (R236). -/
  | snapshotStopReport (p : CompId)
  /-- COMPARTMENT_RESET (R371). -/
  | compartmentReset (e : Fin 32)
  /-- ACT_POST_GO (R229). -/
  | actPostGo (p : CompId)
  /-- ACT_POST_CANCEL (R232). -/
  | actPostCancel (p : CompId) (e : Fin 32)
  /-- ACTION_INSTALL (R229). -/
  | actionInstall (a : ActionInstall)
  /-- ACTION_CANCEL_FLOOD (R229). -/
  | actionCancelFlood (d : DevId) (id : Nat)
  /-- ACTION_POST_COMPLETE (R229). -/
  | actionPostComplete (p : CompId) (full : BitVec 16) (failed : BitVec 16)
  /-- WEIR_SYNC_PULSE (R212). -/
  | weirSyncPulse
  /-- TIMING_SYMBOL_EXCHANGE (R212). -/
  | timingSymbolExchange (x : PortId) (off : Int)
  /-- ON_DIE_RESYNCHRONISATION (R209). -/
  | onDieResynchronisation
  /-- WEIR_PLL_LOSS_OF_LOCK (R214). -/
  | weirPllLossOfLock
  /-- DEVICE_FAILED (R237). -/
  | deviceFailed (d : DevId)
  /-- ROOT_CHANGE (R213). -/
  | rootChange (d : DevId)
  /-- TIMER_ADVANCE (R350). -/
  | timerAdvance (n : TimerId)
  /-- EVT_EDGE (R354). -/
  | evtEdge (n : TimerId) (rising : Bool) (late : Fin 3)
  /-- TMR_COUNT_READ (R353). -/
  | tmrCountRead (n : TimerId)
  /-- CAPTURE_READ (R355). -/
  | captureRead (n : TimerId) (falling : Bool)
  /-- TMR_GCMD_START (R357). -/
  | tmrGcmdStart (p : CompId) (mask : BitVec 16)
  /-- TMR_GCMD_STOP (R358). -/
  | tmrGcmdStop (p : CompId) (mask : BitVec 16)
  /-- TMR_GCMD_STAGGER (R359). -/
  | tmrGcmdStagger (p : CompId) (mask : BitVec 16)
  /-- PRC_TAIL (R180). -/
  | prcTail (k : ClusterId) (p : CompId) (v : W64)
  /-- MARK (R191). -/
  | mark (k : ClusterId) (p : CompId)
  /-- RELOCATE (R196). -/
  | relocate (k : ClusterId) (p : CompId)
  /-- REMAP (R197). -/
  | remap (k : ClusterId) (p : CompId)
  /-- SCRUB (R198). -/
  | scrub (k : ClusterId) (p : CompId)
  /-- CLEAN_LOG (R199). -/
  | cleanLog (k : ClusterId) (p : CompId)
  /-- SNAPSHOT_COPY (R202). -/
  | snapshotCopy (k : ClusterId) (p : CompId)
  /-- PERCOLATOR_COMMAND_COMPLETE (R182). -/
  | percolatorCommandComplete (k : ClusterId) (p : CompId)
  /-- FORWARD (R194). -/
  | forward (k : ClusterId)
  /-- FORWARD_COMPLETION_NOTICE (R194). -/
  | forwardCompletionNotice (k : ClusterId)
  /-- FORWARD_POLL (R194). -/
  | forwardPoll (k : ClusterId)
  /-- MARK_REQUEST (R188). -/
  | markRequest (k : ClusterId)
  /-- MARK_BUFFER_DRAIN (R189). -/
  | markBufferDrain (c : CoreId)
  /-- CARD_REQUEST (R173). -/
  | cardRequest (k : ClusterId)
  /-- CARD_COPY_COMPLETE (R202). -/
  | cardCopyComplete (k : ClusterId)
  /-- MARK_STACK_STEAL (R190). -/
  | markStackSteal (k : ClusterId) (p : CompId)
  /-- TERMINATION_ROUND (R191). -/
  | terminationRound (p : CompId)
  /-- SCHEDULING_WINDOW (R203). -/
  | schedulingWindow (k : ClusterId)
  /-- CLEAN (R323). -/
  | clean (k : ClusterId) (p : CompId) (dirty : Option (BitVec 44))
  /-- INVAL (R323). -/
  | inval (k : ClusterId) (p : CompId)
  /-- CLEAN_INVAL (R323). -/
  | cleanInval (k : ClusterId) (p : CompId) (dirty : Option (BitVec 44))
  /-- TAGINIT (R323). -/
  | taginit (k : ClusterId) (p : CompId)
  /-- MAINTENANCE_QUEUED_START (R322). -/
  | maintenanceQueuedStart (k : ClusterId)
  /-- MAINTENANCE_COMPLETE (R322). -/
  | maintenanceComplete (k : ClusterId)
  /-- L2_REQ_ON (R320). -/
  | l2ReqOn (k : ClusterId)
  /-- L2_REQ_OFF (R320). -/
  | l2ReqOff (k : ClusterId)
  /-- L2_DRAIN_COMPLETE (R320). -/
  | l2DrainComplete (k : ClusterId)
  /-- L2_CARAFE_WRITE (R328). -/
  | l2CarafeWrite (k : ClusterId) (n : BitVec 4)
  /-- CARAFE_WAY_CONVERTED (R328). -/
  | carafeWayConverted (k : ClusterId)
  /-- GET_INFO (R368). -/
  | getInfo (m : MbxCmd)
  /-- GET_STATUS (R368). -/
  | getStatus (m : MbxCmd)
  /-- SET_PROFILE (R22). -/
  | setProfile (m : MbxCmd)
  /-- PROFILE_CLUSTER_SWITCH (R23). -/
  | profileClusterSwitch (k : ClusterId)
  /-- COMPARTMENT_CREATE (R381). -/
  | compartmentCreate (m : MbxCmd)
  /-- COMPARTMENT_LOAD (R369). -/
  | compartmentLoad (m : MbxCmd)
  /-- LOAD_DONE (R369). -/
  | loadDone (data : List Byte)
  /-- COMPARTMENT_START (R370). -/
  | compartmentStart (m : MbxCmd)
  /-- RELEASE (R370). -/
  | release (p : CompId) (c : CoreId)
  /-- COMPARTMENT_QUIESCE (R395). -/
  | compartmentQuiesce (m : MbxCmd)
  /-- QUIESCE_STOP (R395). -/
  | quiesceStop (p : CompId)
  /-- QUIESCED (R395). -/
  | quiesced (p : CompId)
  /-- QUIESCE_TIMEOUT (R370). -/
  | quiesceTimeout (p : CompId)
  /-- COMPARTMENT_ABORT (R371). -/
  | compartmentAbort (m : MbxCmd)
  /-- MBX_ABORT (R371). -/
  | mbxAbort (v : W64)
  /-- ABORT_TIMER_EXPIRY (R371). -/
  | abortTimerExpiry (p : CompId)
  /-- ABORT_COMPLETE (R372). -/
  | abortComplete (p : CompId)
  /-- COMPARTMENT_DESTROY (R383). -/
  | compartmentDestroy (m : MbxCmd)
  /-- DESTROY_DONE (R382). -/
  | destroyDone (p : CompId)
  /-- WEIR_CONFIG (R375). -/
  | weirConfig (m : MbxCmd)
  /-- WEIR_SCHEDULE (R375). -/
  | weirSchedule (m : MbxCmd)
  /-- LINK_TRAIN (R406). -/
  | linkTrain (m : MbxCmd)
  /-- LINK_TRAINED (R406). -/
  | linkTrained (x : PortId) (r : TrainResult)
  /-- LINK_STATUS (R368). -/
  | linkStatus (m : MbxCmd)
  /-- TELEMETRY_READ (R377). -/
  | telemetryRead (m : MbxCmd)
  /-- ERROR_LOG_READ (R430). -/
  | errorLogRead (m : MbxCmd)
  /-- ERROR_LOG_CLEAR (R431). -/
  | errorLogClear (m : MbxCmd)
  /-- FW_UPDATE (R376). -/
  | fwUpdate (m : MbxCmd)
  /-- MICROCODE_STAGE (R376). -/
  | microcodeStage (m : MbxCmd)
  /-- PROGRAM_KEY_SLOT_2 (R344). -/
  | programKeySlot2 (m : MbxCmd)
  /-- SNAPSHOT (R200). -/
  | snapshot (m : MbxCmd)
  /-- DEVICE_RESET (R440). -/
  | deviceReset (m : MbxCmd)
  /-- LOCKUP_REPORT (R264). -/
  | lockupReport (c : CoreId)
  /-- RECOVERY_STOP_REPORT (R265). -/
  | recoveryStopReport (c : CoreId)
  /-- HEARTBEAT (R363). -/
  | heartbeat
  /-- LOCKKEEPER_RESTART (R363). -/
  | lockkeeperRestart
  /-- TELEMETRY_SAMPLE (R377). -/
  | telemetrySample (r : SensorSample)
  /-- POWER_CAP_STEP (R446). -/
  | powerCapStep (k : ClusterId) (up : Bool)
  /-- CURRENT_SAMPLE (R447). -/
  | currentSample (ma : Nat)
  /-- THERMAL_SAMPLE (R448). -/
  | thermalSample (t : ThermalReading)
  /-- THERMAL_TRIP (R429). -/
  | thermalTrip
  /-- CLUSTER_FREQUENCY_CHANGE (R439). -/
  | clusterFrequencyChange (k : ClusterId) (f : Nat)
  /-- CLUSTER_PLL_LOSS_OF_LOCK (R439). -/
  | clusterPllLossOfLock (k : ClusterId)
  /-- REGULATOR_COMMAND (R435). -/
  | regulatorCommand (r : RegCommand)
  /-- RAIL_FAULT (R435). -/
  | railFault (r : Rail)
  /-- PWRGOOD_RISE (R436). -/
  | pwrgoodRise (d : DevId)
  /-- RAIL_GOOD (R436). -/
  | railGood
  /-- DRAM_PG (R436). -/
  | dramPg
  /-- DRAM_PG_TIMEOUT (R436). -/
  | dramPgTimeout
  /-- PWRGOOD_FALL (R440). -/
  | pwrgoodFall
  /-- RESET_N (R440). -/
  | resetN (level : Bool)
  /-- PERST_N (R442). -/
  | perstN (level : Bool)
  /-- FIRMWARE_VERIFICATION (R362). -/
  | firmwareVerification
  /-- CALIBRATION (R443). -/
  | calibration (r : CalResult)
  /-- MEMORY_INITIALISATION (R443). -/
  | memoryInitialisation
  /-- MICROCODE_LOAD (R347). -/
  | microcodeLoad (bad : List CoreId)
  /-- PCIE_TRAINING (R416). -/
  | pcieTraining
  /-- RD_WORD (R413). -/
  | rdWord
  /-- RD_LINE (R413). -/
  | rdLine
  /-- RD_BULK (R413). -/
  | rdBulk
  /-- WR_WORD (R413). -/
  | wrWord
  /-- WR_LINE (R413). -/
  | wrLine
  /-- WR_BULK (R413). -/
  | wrBulk
  /-- CAS (R413). -/
  | cas
  /-- RESP_DATA (R410). -/
  | respData
  /-- RESP_ACK (R410). -/
  | respAck
  /-- MSG (R407). -/
  | msg
  /-- FLIT_RECEIVE (R408). -/
  | flitReceive (x : PortId) (body : List Byte) (trailer : List Byte)
  /-- ACK_TIMEOUT (R409). -/
  | ackTimeout (x : PortId)
  /-- LINK_RETRAIN_COMPLETE (R409). -/
  | linkRetrainComplete (x : PortId) (ok : Bool)
  /-- REMOTE_REQUEST_TIMEOUT (R410). -/
  | remoteRequestTimeout (tid : BitVec 12)
  /-- CREDIT_FREE (R411). -/
  | creditFree (x : PortId)
  /-- STANDBY_WAKE (R25). -/
  | standbyWake (x : PortId)
  /-- STANDBY_WAKE_COMPLETE (R25). -/
  | standbyWakeComplete (x : PortId)
  /-- VF_FLR (R415). -/
  | vfFlr (p : CompId)
  /-- PCIE_COMPLETION (R428). -/
  | pcieCompletion (n : ChanId) (data : List Byte) (poisoned : Bool)
  /-- PCIE_ERROR (R428). -/
  | pcieError (fn : CompId) (e : PcieErr)
  /-- COMPLETION_TIMEOUT (R428). -/
  | completionTimeout (n : ChanId)
  /-- CV_TAIL (R396). -/
  | cvTail (n : ChanId) (v : W64)
  /-- HOST_TO_DEVICE (R398). -/
  | hostToDevice (n : ChanId)
  /-- DEVICE_TO_HOST (R398). -/
  | deviceToHost (n : ChanId)
  /-- DEVICE_TO_DEVICE (R398). -/
  | deviceToDevice (n : ChanId)
  /-- NBT (R398). -/
  | nbt (n : ChanId)
  /-- DESCRIPTOR_COMPLETE (R399). -/
  | descriptorComplete (n : ChanId)
  /-- QP_SQTAIL (R392). -/
  | qpSqtail (p : CompId) (q : QpId) (v : W64)
  /-- QP_SQHEAD (R392). -/
  | qpSqhead (p : CompId) (q : QpId) (v : W64)
  /-- QP_CQTAIL (R393). -/
  | qpCqtail (p : CompId) (q : QpId) (v : W64)
  /-- VF_HOSTIRQ (R393). -/
  | vfHostirq (p : CompId) (v : W64)
  /-- LOG_FLASH_WRITE (R431). -/
  | logFlashWrite
  /-- CORRECTED_ERROR_SUMMARY (R427). -/
  | correctedErrorSummary
  /-- SMBUS_BLOCK_READ (R453). -/
  | smbusBlockRead (cmd : Byte)
  /-- JTAG_INSTRUCTION (R454). -/
  | jtagInstruction (j : JtagInstr)
  /-- REGISTER_WRITE (R4). -/
  | registerWrite (w : RegWriter) (a : Nat) (be : BitVec 8) (v : W64)
  /-- ILLEGAL_INSTRUCTION (R90). -/
  | illegalInstruction (c : CoreId) (w : BitVec 32) (nextw : BitVec 32)
  /-- INPUT_POWER_APPLIED (R435). -/
  | inputPowerApplied
  /-- INPUT_POWER_REMOVED (R435). -/
  | inputPowerRemoved
  /-- CLUSTER_PLL_RELOCK (R439). -/
  | clusterPllRelock (k : ClusterId)
  /-- LOCKKEEPER_RESTART_DONE (R363). -/
  | lockkeeperRestartDone
  /-- STANDBY_ENTRY (R25). -/
  | standbyEntry (x : PortId)
  /-- LOCKKEEPER_SRAM_ERROR (R423). -/
  | lockkeeperSramError (correctable : Bool)
deriving DecidableEq, Repr

end Sys2Proof
end

