-- ==== Sys2Proof/Decode.lean ====
section
/-! DEFINITION. The commands that a word spells by the bits of spec/opcode_table.json. The table gives no row of this
block any bits, so no word spells a command. -/

namespace Sys2Proof

/-- The row of spec/opcode_table.json that a word of `nbits` bits spells: none, because no row has bits. -/
def decodeTableWord (_nbits _w : Nat) : Option Instr := none

end Sys2Proof
end

