-- ==== Sys2Proof/Config.lean ====
section
/-! DEFINITION. What the spec leaves open, as constants without a body: nothing in Lean can see their values, so a
statement about them holds for every value (log 3). -/

namespace Sys2Proof.Config

/-- Whether a repeated remembered-log entry is omitted (06 R170), by the model's free-value counter. -/
opaque omitRepeat : Nat → Bool

/-- Which of several matching TLB entries is used (11 R302), as an index to be taken modulo their number. -/
opaque tlbChoice : Nat → Nat

/-- Whether underflow is detected after rounding: IEEE 754 leaves the choice (03 R79 names only the flag). -/
opaque tinyAfter : Bool

/-- The sign and payload of the NaN that a numeric lane returns for NaN operands (05 R152 does not state them). -/
opaque laneNaN : W64 → W64 → W64 → W64

/-- Whether `VCMPLT.D` (0) and `VCMPEQ.D` (1) signal invalid on a quiet NaN: IEEE 754 has both predicates and 05 R152 names
neither. -/
opaque cmpSignals : Nat → Bool

/-- What a lockup's record holds for a micro-stack fault during entry: 09 Table 9.11 gives that case no code. -/
opaque microStackLockCause : Byte

/-- The rank of a word of DRAM where two ranks are fitted (17 R418: the placement is not stated). -/
opaque rankOf : Nat → Bool

/-- VCORE in mV for a clock in units of 50 MHz: the fused table of 19 R437. -/
opaque vcoreFor : Nat → Nat

/-- Whether a firmware image's signature verifies (15 R362). -/
opaque fwSigOk : List Byte → Bool

/-- The version a firmware image carries (15 Table 15.7). -/
opaque fwVersion : List Byte → BitVec 32

/-- Kerom's key in slot 1: the AES key, then the compressed public key (13 R344). -/
opaque key1 : List Byte

/-- The body of a `MSG` flit by what it is for and the numbers it carries: 17 Table 17.4 gives its size alone. -/
opaque msgBody : Nat → List Nat → List W64

/-- What a `MSG` flit that arrives is for and the numbers it carries, as its body says: the reading of `msgBody`. -/
opaque msgOf : List W64 → Nat × List Nat

/-- Whether a raw store that another device sends goes by the system column of 02 Table 2.9, by the free-value counter: a flit does not
carry the privilege of its core (17 R413). -/
opaque rawSystem : Nat → Bool

/-- What an engine makes of a word of its tables that is not `BYTES`: 07 R185 puts the duty on the runtime and names no
outcome (00 R3). -/
opaque tableWord : Nat → W64

/-- The dump base of a snapshot stop that only another device's `SNAPSHOT` posted, by the identifier of the action (07 R200 gives
the base to the command alone). -/
opaque snapBase : Nat → BitVec 44

/-- Whether the Lockkeeper of another device confirms that it holds a compartment (16 R386), by the free-value counter. -/
opaque peerHolds : Nat → Bool

/-- Whether calibration with a device that `WEIR_CONFIG` adds succeeds (08 R212), by the free-value counter. -/
opaque peerCal : Nat → Bool

/-- Whether training takes a port to 16 Gbit/s lanes (17 R404), by the free-value counter. -/
opaque linkHalf : Nat → Bool

/-- The rate of Table 17.6 at which the PCIe port trains (17 R416: 2.5 to 32.0 GT/s in order), by the free-value counter. -/
opaque pcieRate : Nat → Fin 5

/-- The width of Table 17.6 at which the PCIe port trains (17 R416: x16, x8, x4, x1 in order), by the free-value counter. -/
opaque pcieWidth : Nat → Fin 4

/-- The latches and micro-temporaries of a microprogram at its entry (13 R332, Table 13.7: undefined), by the free-value counter
and the latch. -/
opaque microLatch : Nat → Nat → Word

/-- A ROM word that the spec does not list, and a word above the patch RAM, by the micro-PC (13 R332 leaves the ROM's words to a
listing of its own). -/
opaque romWord : Nat → BitVec 160

/-- Whether a microcode raw load extends its data by its sign: a microword has no field for it (13 Table 13.10). -/
opaque microSext : Bool

/-- Where execution goes on after a patched routine that the spec has set the PC itself, by the free-value counter: no microword
field reaches the PC (13 Tables 13.3 to 13.11). -/
opaque microPc : Nat → W64

/-- Whether the Lockkeeper has enabled tracing for a core (13 R338), by the free-value counter: no command enables it. -/
opaque traceOn : Nat → Bool

/-- A scheduling choice that the spec leaves to the device (00 R2), as an index to be taken modulo the choices. -/
opaque choice : Nat → Nat

end Sys2Proof.Config
end

