-- ==== Sys2Proof/Machine/State.lean ====
section
/-! DEFINITION. The state of the block: every register, buffer, table, queue, mode and pin that the spec gives the
S72, as plain data, with `State.reset`, the device just after a device reset. A map that is mostly at its default is
held sparsely: keys rising, no entry equal to the default (log 4). -/

namespace Sys2Proof.Machine

/-- Why a step stops with a fault. No command of this model raises one: every command of the spec has an effect, or
does not come about and leaves the state as it is. -/
inductive Fault where
  /-- Raised by nothing; kept so that the type is inhabited. Safe. -/
  | none
deriving DecidableEq, Repr

/-- Why a step refuses. -/
inductive Refusal where
  /-- The command of this mnemonic has no meaning in the model yet. Raised by `exec` alone. Safe. -/
  | notModelled (mnemonic : String)
deriving DecidableEq, Repr

/-- A sparse map from numbers: keys strictly rising, no entry at the map's default. -/
abbrev SMap (α : Type) := List (Nat × α)

/-! ## Words with names -/

/-- `Word(0x00, 0)`: what g0 reads as (03 R61). -/
def fixZero : Word := ⟨0x00, 0⟩

/-- `UNINIT` with payload 0 (02 R42). -/
def uninit : Word := ⟨0x07, 0⟩

/-! ## The core -/

/-- The state that is banked by level (03 Table 3.2). -/
structure Bank where
  g : Vector Word 32
  dspA : Word
  dspB : Word
  dspOp : W64
  dretPc : W64
  dbusy : Bool
deriving DecidableEq, Repr

/-- `STATUS` (03 Table 3.5, R73 to R76): the newest value written, the value in force, and the writes still in their
mode shadow as pairs of instructions to run and value. -/
structure StatusRegs where
  newest : W64
  force : W64
  shadow : List (Nat × W64)
deriving DecidableEq, Repr

/-- The registers an exception writes (09 Table 9.1). -/
structure ExcRegs where
  epc : W64
  ecause : W64
  eaddr : W64
  einfo : W64
deriving DecidableEq, Repr

/-- The stack, descriptor and translation registers (03 Table 3.4), with the values of `PTBASE` and `SPACE` that
instruction fetch uses until the next `ISYNC` (R68). -/
structure MmuRegs where
  dtbase : W64
  ssp : Word
  lsp : Vector Word 8
  ptbase : W64
  fetchPtbase : W64
  space : W64
  fetchSpace : W64
deriving DecidableEq, Repr

/-- `BANKWIN` (03 Table 3.7). -/
structure BankWin where
  bank : BitVec 3
  dspw : Bool
deriving DecidableEq, Repr

/-- The interrupt registers (09 Tables 9.6, 9.8, 9.9): the selected source, the level of each source by vector
number, the software interrupts, the alarm interrupts and the Weir group interrupts. -/
structure IrqRegs where
  src : Byte
  level : SMap (BitVec 3)
  swi : BitVec 3
  alm : BitVec 4
  group : W64
deriving DecidableEq, Repr

/-- The heap, log and dispatch registers (03 Table 3.4, 06). -/
structure HeapRegs where
  goodcol : BitVec 2
  allocPtr : W64
  allocLim : W64
  rlogPtr : W64
  rlogLim : W64
  dispatchBase : W64
  tclassBase : W64
deriving DecidableEq, Repr

/-- Where a long operation writes its result. -/
inductive LDest where
  | gpr (bank : Fin 8) (r : Reg)
  | vreg (r : Reg)
deriving DecidableEq, Repr

/-- A long operation in flight (10 R274, R275): its destination, the result it will deliver, the IEEE flags a numeric
operation will add to `NFL`, whether it holds the divider, and the address of a divide that found a zero divisor under
`DZE` (09 R253). -/
structure LongOp where
  dest : LDest
  tag : Byte
  val : BitVec 256
  flags : BitVec 5
  numeric : Bool
  divider : Bool
  zdiv : Option W64
deriving DecidableEq, Repr

/-- A TLB entry (11 R300): compartment, space, first page, level of the leaf, the leaf word, and whether its parity is bad (18
Table 18.1 class 0x03). -/
structure TlbEntry where
  comp : BitVec 4
  sid : BitVec 12
  vpn : BitVec 36
  level : Fin 3
  pte : W64
  bad : Bool
deriving DecidableEq, Repr

/-- The three TLBs by entry number and their LFSR (11 R300). -/
structure Tlbs where
  itlb : SMap TlbEntry
  dtlb : SMap TlbEntry
  stlb : SMap TlbEntry
  lfsr : BitVec 16
deriving DecidableEq, Repr

/-- A line of an L1 or of the victim buffer (12 R307, R315): its number PA[43:6], its eight words with their tags, and its parity,
kept as what disagrees with it: bit 2i + h for half h of word i, and one bit for the address and state bits. -/
structure ILine where
  line : Nat
  words : List Word
  bad : BitVec 16
  sbad : Bool
deriving DecidableEq, Repr

/-- What asked for a line (12 R330): a fetch, a load, or a prefetch with its hint. -/
inductive MissKind where
  | fetch
  | load
  | pref (h : Fin 4)
deriving DecidableEq, Repr

/-- A line-miss buffer (12 R330). -/
structure Miss where
  line : Nat
  kind : MissKind
deriving DecidableEq, Repr

/-- The L1 caches of a core (12 R307 to R312): L1I and L1D by set × 4 + way, the victim buffer oldest first, the LFSR, the fetch
buffer of deterministic mode (10 R280), and the line-miss buffers. -/
structure L1 where
  icache : SMap ILine
  dcache : SMap ILine
  victim : List ILine
  lfsr : BitVec 16
  fbuf : List ILine
  miss : List Miss
deriving DecidableEq, Repr

/-- A branch target buffer entry (10 R276). -/
structure BtbEntry where
  tag : BitVec 36
  target : W64
deriving DecidableEq, Repr

/-- The branch predictor (10 R276); a direction counter not listed is 1. -/
structure Predictor where
  btb : SMap BtbEntry
  dir : SMap (BitVec 2)
  hist : BitVec 12
  stack : List W64
deriving DecidableEq, Repr

/-- Memory types (11 Table 11.4). -/
inductive MemType where
  | cached
  | uncached
  | device
  | carafe
deriving DecidableEq, Repr

/-- A write to one word: its address, the bytes written, the word, and whether it is a tagged store (02 R27) or a raw
one (02 R52). -/
structure WordWrite where
  pa : BitVec 44
  mask : Byte
  w : Word
  tagged : Bool
deriving DecidableEq, Repr

/-- A store queue entry (10 R273): the memory type, the writes of one line in ascending order, the address of the
store, for a split raw store the virtual address of its second half (04 R101, R102), and whether it was made at user
privilege (16 R388). -/
structure SqEntry where
  mt : MemType
  user : Bool
  writes : List WordWrite
  pc : W64
  split : Option W64
  full : Bool
deriving DecidableEq, Repr

/-- An imprecise report that waits for the next boundary (09 R253, 04 R102). -/
structure Report where
  vec : Byte
  sub : Byte
  eaddr : W64
  einfo : W64
deriving DecidableEq, Repr

/-- A pending machine check (18 R424). -/
structure McReport where
  sub : Byte
  eaddr : W64
  einfo : W64
deriving DecidableEq, Repr

/-- The arguments of an exception entry (09 R244). -/
structure ExcArgs where
  vec : Byte
  sub : Byte
  epc : W64
  eaddr : W64
  einfo : W64
  impr : Bool
  inrep : Bool
deriving DecidableEq, Repr

/-- What a stalled instruction or entry waits for (06 R161, 08 R217 R224, 11 R305, 04 R107, 17 R410 to R412), `micro` being a
microword that holds for good (13 R336). -/
inductive WaitFor where
  | forward (t : W64)
  | markRoom
  | card (pa : BitVec 44)
  | tick (t : W64)
  | group (g : GroupId)
  | invtlb
  | ack
  | remote (tid : BitVec 12)
  | credit
  | micro
deriving DecidableEq, Repr

/-- What runs again when the wait ends: an instruction, an entry, or a patched routine of a phase flip or a snapshot stop (13 Table
13.1). -/
inductive Resume where
  | instr (i : Instr)
  | entry (e : ExcArgs)
  | flip
  | snap
deriving DecidableEq, Repr

/-- A mark buffer entry (07 R189): the target's virtual and physical address and its pointer type. -/
structure MarkEntry where
  va : W64
  pa : BitVec 44
  ptype : BitVec 5
deriving DecidableEq, Repr

/-- Answers that a stalled instruction has had already: forwarded addresses (none: refused), the number of marks it has pushed and of those
it has passed since it went on, cards
answered (false: the copy failed), words that a barriered load has read, remote reads (none: bus error), remote writes
acknowledged, steps done that are not done again, the ROM routines whose patch has gone on into the original word
(13 R334), the registers it has healed with what they held (06 R161), the ports on which it holds a credit (17 R412), and the
TLBs as they were when an `INVTLB.B` arrived in its wait (11 R305, R306). -/
structure Replay where
  fwd : List (W64 × Option W64)
  marks : Nat
  seen : Nat
  cards : List (Nat × Bool)
  words : List (W64 × Word)
  remote : List (BitVec 44 × Option (List Word))
  done : Bool
  rom : List (Nat × Nat)
  healed : List (Fin 8 × Reg × Word)
  ports : List PortId
  tlb : Option Tlbs
deriving DecidableEq, Repr

/-- A wait in progress. -/
structure Wait where
  what : WaitFor
  resume : Resume
deriving DecidableEq, Repr

/-- Whether a core issues (03 R86, 04 R111, 09 R264 R265, 16 R395, 06 R166, 07 R200). -/
inductive RunState where
  | held
  | running
  | halted
  | locked
  | stub
  | stopped
  | flipStop
  | snapStop
deriving DecidableEq, Repr

/-- What a lockup or a recovery stub leaves for the Lockkeeper (09 R264, R265). -/
structure LockRecord where
  vec : Byte
  sub : Byte
  cause : Byte
  epc : W64
  eaddr : W64
  einfo : W64
deriving DecidableEq, Repr

/-- A patch-match entry (13 Table 13.2). -/
structure PatchMatch where
  romaddr : BitVec 14
  valid : Bool
  paddr : BitVec 11
deriving DecidableEq, Repr

/-- A result on its way to a latch of the microcode datapath (13 Table 13.12). -/
inductive Late where
  | tgr (w : Word)
  | tageq (b : Bool)
  | ctl (n : Nat) (w : Word)
  | lgr (lo hi : Word)
  | mdr (w : Word) (stale : Option Bool)
  | xdr (w : Word) (fail : Bool)
deriving DecidableEq, Repr

/-- Such a result with the words until it arrives, and whether memory or the divider delivers it. -/
structure LateRes where
  left : Nat
  mem : Bool
  div : Bool
  what : Late
deriving DecidableEq, Repr

/-- A microprogram in patch RAM that runs (13 R332, R335, R337, Tables 13.6 to 13.11): the ROM routine it stands for and the use of it (log 48), the
micro-PC, whether the word there has acted and holds, the latches and flags, the micro-temporaries, the bank latch, the element
count of the iteration and whether it is the first, gc and gb before its `ICOMMIT` once it counts as having begun writing (R337), whether the wait may be abandoned, the instruction word, the target of a
`Forward` and the address of a card request that have not been answered, and the results on their way. -/
structure MicroRun where
  entry : Nat
  key : Nat
  upc : Nat
  acted : Bool
  alr : Word
  tgr : Word
  sfr : Word
  mdr : Word
  crd : Word
  prr : Word
  wrr : Word
  xdr : Word
  lgr : Word
  rem : Word
  ea : W64
  zero : Bool
  neg : Bool
  carry : Bool
  ovf : Bool
  tageq : Bool
  stale : Bool
  same : Bool
  xfail : Bool
  casok : Bool
  percref : Bool
  bndd : W64
  bnds : W64
  count : Nat
  u : Vector Word 8
  bl : BitVec 3
  first : Bool
  begun : Option (Word × Word)
  abandon : Bool
  iw : BitVec 32
  fwd : Option Word
  card : Option (BitVec 44)
  late : List LateRes
deriving DecidableEq, Repr

/-- The registers of a core as they stood before an instruction that a microprogram carries out, which a micro-stack fault puts back
(13 R339). -/
structure SavedRegs where
  banks : Vector Bank 8
  st : StatusRegs
  exc : ExcRegs
  mmu : MmuRegs
  bw : BankWin
  irq : IrqRegs
  heap : HeapRegs
  alarm : Vector W64 4
  v : Vector (BitVec 256) 32
  nfl : W64
  cards : List Nat
deriving DecidableEq, Repr

/-- The microcode sequencer (13): the program that runs, what its instruction found, the micro-stack, the patch RAM and the
patch-match table. -/
structure Micro where
  run : Option MicroRun
  saved : Option SavedRegs
  stack : List (BitVec 15)
  patch : SMap (BitVec 160)
  table : SMap PatchMatch
deriving DecidableEq, Repr

/-- What waits for the core's next boundary (09 Table 9.10): a machine check, imprecise reports, a single step with the
address of the stepped instruction, a phase flip with its new colour, a snapshot stop with the tick of its step 2 once that is
taken (07 Table 7.8), and the stop of a quiesce (16 R395). -/
structure Pend where
  mc : Option McReport
  reports : List Report
  step : Option W64
  flip : Option (BitVec 2)
  snap : Bool
  snapTick : Option W64
  stop : Bool
deriving DecidableEq, Repr

/-- An S core; `ahead` is the instruction word behind the present instruction, as it stood before that instruction's stores (04 R116). -/
structure Core where
  banks : Vector Bank 8
  pc : W64
  st : StatusRegs
  exc : ExcRegs
  mmu : MmuRegs
  bw : BankWin
  irq : IrqRegs
  heap : HeapRegs
  compart : BitVec 4
  alarm : Vector W64 4
  cycles : W64
  instret : W64
  v : Vector (BitVec 256) 32
  nfl : W64
  longs : List LongOp
  tlb : Tlbs
  l1 : L1
  pred : Predictor
  sq : List SqEntry
  micro : Micro
  mark : List MarkEntry
  cards : List Nat
  recent : List W64
  run : RunState
  wait : Option Wait
  replay : Replay
  pend : Pend
  lock : Option LockRecord
  lockHeld : Bool
  mcHeld : Bool
  ahead : Option (W64 × Word)
deriving DecidableEq, Repr

/-! ## Clusters: L2, Carafe and the cluster clock -/

/-- The valid states of an L2 line (12 Table 12.3); an invalid line is not listed. -/
inductive Mesi where
  | m
  | e
  | s
deriving DecidableEq, Repr

/-- An L2 line (12 R307, R313, R315, R330): its number PA[43:6], state, words, the L1D and L1I presence bits by core of the
cluster, the streaming mark, and its parity, kept as in `ILine`. -/
structure L2Line where
  line : Nat
  st : Mesi
  words : List Word
  dpres : Byte
  ipres : Byte
  stream : Bool
  bad : BitVec 16
  sbad : Bool
deriving DecidableEq, Repr

/-- `L2_CTL.STATE` (12 Table 12.6). -/
inductive L2State where
  | off
  | on
  | draining
deriving DecidableEq, Repr

/-- The L2 of a cluster (12): lines by set × 16 + way, LFSR, state, `L2_CARAFE` (N, CUR, the way that is converting),
`L2_COWN`, the Carafe words by (way − 8) × 32768 + set × 8 + word (one not listed is `UNINIT` 0), the halves of Carafe words whose
parity disagrees (R315), and the cache ways each compartment holds (16 R381) by compartment number. -/
structure L2 where
  lines : SMap L2Line
  lfsr : BitVec 16
  st : L2State
  carafeN : BitVec 4
  cur : BitVec 4
  busy : Bool
  cown : BitVec 32
  carafe : SMap Word
  cbad : SMap (BitVec 2)
  ways : SMap (BitVec 16)
deriving DecidableEq, Repr

/-- The clock and supply of a cluster (19 R436 to R439), the clock in units of 50 MHz, and the phases of the model's
conversion of ticks to core cycles (log 5). -/
structure Clock where
  freq : Nat
  target : Nat
  fallback : Bool
  locked : Bool
  vcore : Nat
  phase : Nat
  half : Bool
deriving DecidableEq, Repr

structure Cluster where
  l2 : L2
  clk : Clock
deriving DecidableEq, Repr

/-! ## The Weir -/

/-- A group table entry (08 Table 8.5). -/
structure GroupEntry where
  valid : Bool
  compart : BitVec 4
  user : Bool
  devmask : BitVec 16
  engmask : BitVec 16
  cores : BitVec 128
  d : BitVec 4
  failed : Bool
deriving DecidableEq, Repr

/-- A member's state for a group (08 R221). -/
inductive MemberState where
  | idle
  | arrived
  | done
  | mismatch
  | failed
deriving DecidableEq, Repr

/-- A member of a group (08 R221): its state, the kind it joined with (none for a device whose own members disagree),
the senders and the word it contributed, and its latch. Members are keyed group × 256 + member, a member being a core
(0 to 127), the engine of cluster k (128 + k) or device d (144 + d). -/
structure Member where
  st : MemberState
  kind : Option GroupKind
  senders : Nat
  contrib : Word
  latch : Word
deriving DecidableEq, Repr

/-- An installed timed action (08 R229): who posted it (the device, its identifier there), for which compartment, what
falls due when, its place among the posts, and the hub's tick in which it has fallen due. -/
structure Action where
  origin : DevId
  id : Nat
  comp : BitVec 4
  byLk : Bool
  act : BitVec 4
  group : BitVec 6
  arg : BitVec 32
  tick : W64
  order : Nat
  due : Option W64
deriving DecidableEq, Repr

/-- An action port (08 Table 8.8), with what a post in progress waits for: its entry here, its identifier and its group, whatever
`ACT_CMD` holds by then. -/
structure ActPort where
  tick : W64
  cmd : W64
  busy : Bool
  cancel : Bool
  result : BitVec 4
  entry : BitVec 5
  devs : BitVec 16
  id : Nat
  postGroup : BitVec 6
deriving DecidableEq, Repr

/-- The Weir of the device (08): the island counters (01 Table 1.3: clusters 0 to 15, memory controllers 16 to 23, Xitex ports 24 to 31, PCIe 32, hub 33)
with the correction each has still to make, `WEIR_STAT`, the devices that calibration has found on the board, the device that is to
become root, the peers that `WEIR_CONFIG` names, the group table, the members, the
arrivals of devices for an operation that follows the current one (group × 16 + device), the action table, the action ports, the post of a `WEIR_SCHEDULE` in progress with its compartment, and the next identifier of a post. -/
structure Weir where
  tick : Vector W64 34
  corr : SMap Int
  lock : Bool
  cal : Bool
  root : Bool
  rdev : BitVec 4
  live : BitVec 16
  faildev : BitVec 16
  board : BitVec 16
  rootTo : Option (BitVec 4)
  peers : Vector (Option (BitVec 4)) 8
  groups : SMap GroupEntry
  members : SMap Member
  early : SMap GroupArrival
  actions : SMap Action
  ports : Vector ActPort 16
  sched : Option (CompId × ActPort)
  nextId : Nat
deriving DecidableEq, Repr

/-! ## Xitex -/

/-- The part of an engine that works (07 Table 7.1): the command unit, a `Forward` of a core or one that another device has passed on
(its number there), a mark request, the drain of a core's mark buffer, the card service, a card copy ahead of a write that no core
makes, and the copy of an object under a claim, by its entry's address. -/
inductive EngUnit where
  | cmd
  | forward (c : CoreId)
  | passed (d : BitVec 4) (no : Nat)
  | mark
  | drain (c : CoreId)
  | card
  | guard
  | copy (slot : BitVec 44)
deriving DecidableEq, Repr

/-- Who waits for a remote request. -/
inductive RemoteUser where
  | core (c : CoreId)
  | sq (c : CoreId)
  | heal (c : CoreId)
  | engine (k : ClusterId) (u : EngUnit)
  | chan (n : ChanId)
deriving DecidableEq, Repr

/-- An outstanding remote request (17 R410, R411): its TID, user, compartment, address, first-hop port and the time it
was issued. -/
structure Remote where
  user : RemoteUser
  comp : BitVec 4
  pa : BitVec 44
  port : PortId
  typ : BitVec 4
  issued : Nat
deriving DecidableEq, Repr

/-- A Xitex port (17 R404 to R409, 01 R25), with the `SEQ` of the `LINK_TRAIN` that trains it. -/
structure Port where
  trained : Bool
  width : BitVec 8
  peer : BitVec 4
  half : Bool
  standby : Bool
  waking : Bool
  training : Bool
  trainSeq : BitVec 32
  retrain : Bool
  down : Bool
  txSeq : BitVec 12
  rxSeq : BitVec 12
  sent : List Flit
  queued : List Flit
  fails : Nat
  nak : Bool
deriving DecidableEq, Repr

/-- A request of another device that has passed through this one: its requester and TID, and the port that it came by, over which its
response goes back (17 R405). -/
structure Relay where
  src : BitVec 4
  tid : BitVec 12
  port : PortId
deriving DecidableEq, Repr

/-- The Xitex side of the device: its ports, the requests outstanding, the next TID, the flits for this device that wait, and the requests
relayed that have no response yet. -/
structure Xitex where
  ports : Vector Port 8
  outstanding : SMap Remote
  nextTid : BitVec 12
  rxq : List (PortId × Flit)
  relays : List Relay
deriving DecidableEq, Repr

/-! ## Maintenance engines -/

/-- A maintenance engine's registers for one compartment (12 Table 12.8), with whether the operation has done its work, its outcome
until it completes, and whether its interrupt source is pending (R322). -/
structure Mnt where
  start : W64
  stop : W64
  op : W64
  busy : Bool
  queued : Bool
  done : Bool
  rej : Bool
  result : BitVec 4
  mode : Bool
  lines : BitVec 32
  acted : Bool
  outcome : BitVec 4
  count : BitVec 32
  irqPend : Bool
deriving DecidableEq, Repr

/-- The engine: registers by compartment, and the compartments with an operation, in the order started. -/
structure MntEngine where
  regs : Vector Mnt 16
  queue : List CompId
deriving DecidableEq, Repr

/-! ## Errors -/

/-- An error log entry (18 Table 18.3). -/
structure LogEntry where
  seq : BitVec 32
  cls : Byte
  sev : Byte
  comp : Byte
  unit : Byte
  tick : W64
  addr : W64
  info : W64
deriving DecidableEq, Repr

/-- The error log (18 R427, R430, R431): entries held in SRAM, entries in flash, the last `SEQ`, the severity 0 entries
of each source in this second, those beyond 16, and when this second began. Sources: subchannel s, cluster 16 + k, port 32 + x. -/
structure ErrLog where
  sram : List LogEntry
  flash : List LogEntry
  seq : Nat
  perSec : SMap Nat
  excess : SMap Nat
  second : Nat
deriving DecidableEq, Repr

/-! ## Memory -/

/-- The memory controllers (02 R55, 16 R385 R387, 17 R417 to R420, 18 R426): DRAM by word number PA[39:3] (a word not
listed holds `UNINIT` 0 with its check bits), the owner and the layout of each 1 GiB unit (none: no owner; a layout is
the mask of the channels it lies on, 0xFF for fine), the installed units, ranks and rate, the patrol pointers, the
words corrected with the time of it, when each subchannel was last refreshed and retrained, and the subchannels whose devices last reported above
85 °C in MR4 (17 R417). -/
structure Dram where
  words : SMap DramWord
  owner : SMap (BitVec 4)
  layout : SMap Byte
  units : Nat
  ranks : Nat
  rate : Nat
  patrol : SMap Nat
  corrected : SMap Nat
  refreshed : SMap Nat
  drift : SMap Nat
  hot : BitVec 16
deriving DecidableEq, Repr

/-! ## Timers -/

/-- An edge on the pin of a channel (14 R354) whose stamp's tick has still to end. -/
structure TimerEdge where
  rising : Bool
  stamp : W64
deriving DecidableEq, Repr

/-- A timed action that has fallen due for the timer channels in the hub's tick (14 R358): a start, or a stagger. -/
structure TimerAct where
  stagger : Bool
  comp : CompId
  mask : BitVec 16
deriving DecidableEq, Repr

/-- A timer channel (14 Table 14.1): its registers and the holding register of each capture, as they stand in the tick `next`, which
is the first one whose end has still to be evaluated (`skip`: the hub's `TICK` passed the value before it); the count at the end of
the tick before; what has come about in this tick (the count written, a start, a latch of the high half, a read of each capture
register, the edges on the pin); the level of a toggle output; and the pin. -/
structure Timer where
  run : Bool
  oneshot : Bool
  pre : BitVec 4
  casc : Bool
  omode : BitVec 2
  level : Bool
  capen : Bool
  period : BitVec 32
  offset : BitVec 32
  duty : BitVec 32
  count : BitVec 32
  last : BitVec 32
  loaded : Bool
  started : Bool
  latch : Bool
  hshadow : BitVec 32
  capr : BitVec 32
  capf : BitVec 32
  holdr : Option (BitVec 32)
  holdf : Option (BitVec 32)
  readr : Bool
  readf : Bool
  edges : List TimerEdge
  newr : Bool
  newf : Bool
  ovrr : Bool
  ovrf : Bool
  irq : BitVec 4
  en : BitVec 4
  toggle : Bool
  pin : Bool
  next : W64
  skip : Bool
deriving DecidableEq, Repr

/-! ## Compartments -/

/-- Compartment states, coded as 15 Table 15.7. -/
inductive CState where
  | empty
  | created
  | running
  | quiescing
  | quiesced
  | aborting
  | aborted
  | scrubbing
deriving DecidableEq, Repr

/-- What `COMPARTMENT_CREATE` gave a compartment (16 R381). Its memory units, cache ways, Carafe ways and cores stand with
those units. -/
structure Resources where
  cores : BitVec 128
  l2ways : List (BitVec 5)
  carafe : List (BitVec 4)
  memgib : BitVec 32
  ilv : Bool
  chmask : Byte
  pshare : Byte
  modes : BitVec 3
  lcred : List Byte
  culvert : W64
  timers : BitVec 16
  groups : W64
  home : Option GroupId
deriving DecidableEq, Repr

/-- A load copy in progress (15 R369): the host address that it reads from, where the next word goes, the words still to come, the format, whether tags are
trusted, the entry addresses it sets, the `SEQ` of its command, bytes written and tags rejected. -/
structure Load where
  src : W64
  dest : Nat
  bytes : Nat
  stream : Bool
  trust : Bool
  entry : Option (W64 × W64)
  seq : BitVec 32
deriving DecidableEq, Repr

/-- A queue pair of a virtual function (16 Table 16.4). -/
structure QueuePair where
  en : Bool
  sqlog2 : BitVec 4
  cqlog2 : BitVec 4
  cqirq : Bool
  sqbase : W64
  cqbase : W64
  sqtail : BitVec 12
  sqhead : BitVec 12
  cqtail : BitVec 12
  cqhead : BitVec 12
  sqirq : Bool
deriving DecidableEq, Repr

/-- A virtual function (16 R391): queue pairs, the MSI-X table (address, data, mask by vector) and pending bits. -/
structure VirtFn where
  qp : Vector QueuePair 8
  msixAddr : SMap W64
  msixData : SMap W64
  msixPend : BitVec 32
deriving DecidableEq, Repr

/-- The notice page (15 Table 15.13); the lock masks are read from the cores. -/
structure Notice where
  bits : BitVec 4
  en : BitVec 4
  reqCore : BitVec 7
  reqBusy : Bool
  reqResult : BitVec 3
deriving DecidableEq, Repr

/-- A quiesce (16 R395): when it began, whether step 2 has been taken, whether its command still executes. -/
structure Quiesce where
  start : Nat
  stopped : Bool
deriving DecidableEq, Repr

/-- An abort (15 R371, R372): the time it started, whether the timer acted, whether a mailbox command started it, whether
one joined it (R378), whether the orderly steps of 16 R402 have been taken, and whether a Lockkeeper restart has left the
rest to the timer (R378). -/
structure Abort where
  start : Nat
  forced : Bool
  byCmd : Bool
  joined : Bool
  orderly : Bool
  lost : Bool
deriving DecidableEq, Repr

/-- A snapshot of a compartment (07 R200 to R202): its tick, the base of the dump, the group, whether the stop has
fallen due and has been reported, the `SEQ` of the `SNAPSHOT` command (15 Table 15.12), and the physical regions whose copy is
complete. -/
structure Snapshot where
  t : W64
  base : BitVec 44
  group : BitVec 6
  due : Bool
  reported : Bool
  seq : BitVec 32
  copied : List Nat
deriving DecidableEq, Repr

/-- A compartment; `abortDue` stands while the abort that lost state calls for has still to start (12 R317, 18 R424). -/
structure Comp where
  st : CState
  res : Resources
  bootepc : W64
  apepc : W64
  entryDone : Bool
  booted : Bool
  load : Option Load
  quiesce : Option Quiesce
  abort : Option Abort
  snap : Option Snapshot
  scrubSeq : BitVec 32
  abortDue : Bool
  notice : Notice
  slcClass : Vector W64 8
  slcMap : SMap W64
  vf : VirtFn
deriving DecidableEq, Repr

/-! ## Culvert -/

/-- A descriptor in progress (16 R396 to R399, 18 R428): its words as fetched, the words transferred, the rejected tags, the
host bytes not yet consumed and whether one of them came poisoned, whether its `NBT` has passed, the host bytes asked for,
the words before the first poisoned one, the piece that it reads from another device (address and words) with what has come of it, and
the result it will complete with. -/
structure CvRun where
  words : List W64
  doneW : Nat
  rej : Nat
  pendingBytes : List Byte
  tainted : Bool
  started : Bool
  issued : Nat
  poisoned : Option Nat
  ask : Option (BitVec 44 × Nat)
  got : Option (List Word)
  result : Option Byte
deriving DecidableEq, Repr

/-- A Culvert channel (16 Table 16.6), with the tick of the last Start Culvert channel action (R403). -/
structure Channel where
  en : Bool
  log2n : BitVec 4
  trustok : Bool
  ring : BitVec 44
  head : BitVec 12
  tail : BitVec 12
  rerr : Bool
  stopped : Bool
  nbwait : Bool
  lasterr : Byte
  irq : BitVec 2
  irqen : BitVec 2
  run : Option CvRun
  startTick : Option W64
deriving DecidableEq, Repr

/-- A posted write that has left for the host, in order (16 R394): data of a function at a PCIe address, or an MSI-X
message of a function and vector. -/
inductive Posted where
  | data (fn : CompId) (addr : W64) (bytes : List Byte)
  | msix (fn : CompId) (vector : Nat)
deriving DecidableEq, Repr

/-! ## Mailbox -/

/-- The mailbox (15 Tables 15.2 and 15.3): status bits, interrupt bits and enables, event indices, lost count, the abort
bits, the command and response buffers and the event ring by byte offset, and the command that executes. -/
structure Mailbox where
  busy : Bool
  done : Bool
  rej : Bool
  recovery : Bool
  evovf : Bool
  hbeat : Byte
  irq : BitVec 3
  irqEn : BitVec 3
  evhead : BitVec 6
  evtail : BitVec 6
  lost : BitVec 32
  abRun : BitVec 16
  abDone : BitVec 16
  abForced : BitVec 16
  cmd : SMap Byte
  resp : SMap Byte
  ring : SMap Byte
deriving DecidableEq, Repr

/-! ## Percolators -/

/-- A replacement that a `REMAP` has decided and has still to make (07 R197): the place, the word examined, the word that takes its
place, and whether it heals. -/
structure RemapPut where
  pa : BitVec 44
  old : Word
  new : Word
  heals : Bool
deriving DecidableEq, Repr

/-- A command in progress (07 R180 to R184): the words it was fetched from, the result and word 3 once its work is done, its
two counts (Table 7.4), the bytes it has examined or written, the first error that did not stop it, whether the mark
stack has overflowed, whether a `REMAP` has left a word unhealed, for a `MARK` with `TERM` whether its own tracing is done and it
takes part in rounds, and how far it has come: its stage, its place there, the region that a `RESCAN` is scanning, and the
replacement that a `REMAP` is making. -/
structure PercRun where
  words : List W64
  result : Option (Byte × W64)
  count0 : Nat
  count1 : Nat
  bytes : Nat
  err : Byte
  overflow : Bool
  unhealed : Bool
  term : Bool
  stage : Nat
  pos : Nat
  region : Option (BitVec 44)
  put : Option RemapPut
deriving DecidableEq, Repr

/-- What a Percolator keeps for one compartment (07 Table 7.2, R190, R203): the registers, the on-chip mark stack, the
count of entries in the memory stack, the command in progress, whether an object has been marked since the last
termination round, whether a `MARK` with `TERM` has completed (R192), the cluster cycles used of this window, and the mark requests
sent to other devices and not yet acknowledged (R191). -/
structure Perc where
  en : Bool
  log2n : BitVec 4
  ring : BitVec 44
  head : BitVec 12
  tail : BitVec 12
  sid : BitVec 12
  ptbase : W64
  rtab : BitVec 44
  evacPtr : W64
  evacLim : W64
  mstkBase : BitVec 44
  mstkLim : BitVec 44
  rerr : Bool
  stopped : Bool
  lasterr : Byte
  irq : BitVec 4
  irqEn : BitVec 4
  evacLow : BitVec 32
  col : BitVec 2
  late : BitVec 32
  stack : List W64
  memCount : Nat
  run : Option PercRun
  markedSince : Bool
  termDone : Bool
  used : Nat
  unacked : Nat
deriving DecidableEq, Repr

/-- A target sent to the engine of its home (07 R188): compartment, virtual and physical address, pointer type, and the
engine that sent it, with its device. -/
structure MarkReq where
  comp : BitVec 4
  va : W64
  pa : BitVec 44
  ptype : BitVec 5
  sender : ClusterId
  dev : BitVec 4
deriving DecidableEq, Repr

/-- Where a request that another device has passed on came from: the device, its engine, and the number of the request there. -/
structure Origin where
  dev : BitVec 4
  eng : ClusterId
  no : Nat
deriving DecidableEq, Repr

/-- A `Forward` request in the service queue, or waiting on a claim of another engine (07 R194, R195): of a core of this device, or
passed on by another. -/
structure FwdReq where
  core : CoreId
  comp : BitVec 4
  va : W64
  pa : BitVec 44
  ptype : BitVec 5
  waiting : Bool
  origin : Option Origin
deriving DecidableEq, Repr

/-- A card request of a core (06 R173): whether one 2 MiB leaf maps its region (07 R187), and whether the service has begun the
copy. -/
structure CardReq where
  core : CoreId
  comp : BitVec 4
  pa : BitVec 44
  leaf : Bool
  copying : Bool
deriving DecidableEq, Repr

/-- What an engine asks of another device: a Xitex request (its type, address, word mask, line count less one and body), the new address
of an object homed there (07 R194), or whether a word homed there lies outside every marked object (R197). -/
inductive EngAsk where
  | access (typ : BitVec 4) (pa : BitVec 44) (wmask : Byte) (nline : BitVec 3) (body : List Word)
  | forward (va : W64) (pa : BitVec 44) (pt : Nat)
  | outside (va : W64) (pa : BitVec 44)
deriving DecidableEq, Repr

/-- A question of an engine's unit to another device, its number, and the answer once it is there: a result code (Table 7.5) and
words. -/
structure EngGot where
  comp : BitVec 4
  unit : EngUnit
  no : Nat
  ask : EngAsk
  ans : Option (Byte × List Word)
deriving DecidableEq, Repr

/-- A copy under a claim (07 R194 steps 2 to 5): the compartment and the unit that began it, the object and its word offset, the entry,
the region, the new address, and the places of its words. -/
structure CopyRun where
  comp : BitVec 4
  part : EngUnit
  obj : W64
  off : Nat
  slot : BitVec 44
  base : BitVec 44
  new : W64
  dst : List (BitVec 44)
deriving DecidableEq, Repr

/-- A Percolator (07 Table 7.1): the per-compartment state, the TLB, the service queues, the window number, what its units have asked of
other devices with the last number, the copies that it has begun, the compartment that had the last spare cycles (R203), and the
addresses whose cards it copies ahead of writes that no core makes (06 R172). -/
structure Engine where
  comp : Vector Perc 16
  tlb : SMap TlbEntry
  fwd : List FwdReq
  marks : List MarkReq
  cards : List CardReq
  window : Nat
  got : List EngGot
  askNo : Nat
  copies : List CopyRun
  turn : CompId
  guards : List (BitVec 4 × BitVec 44)
deriving DecidableEq, Repr

/-- What a Percolator or the card service has answered and a core has not yet received. -/
inductive Answer where
  | fwd (t : W64) (n : Option W64)
  | card (pa : BitVec 44) (ok : Bool)
deriving DecidableEq, Repr

/-- An `INVTLB.B` in progress or queued at the hub (11 R305): the issuer, the selector, the operand and space, the cores
it has still to reach and those that have still to acknowledge. -/
structure Broadcast where
  core : CoreId
  sel : BitVec 2
  va : W64
  sid : BitVec 12
  toReach : List CoreId
  toAck : List CoreId
deriving DecidableEq, Repr

/-! ## Lockkeeper -/

/-- How far start-up has come (19 Table 19.6): the step that comes next, or where it has stopped. -/
inductive BootStep where
  | off
  | rom
  | calibration
  | memory
  | microcode
  | ready
  | recovery
  | failed
deriving DecidableEq, Repr

/-- A microcode image that the Lockkeeper has accepted (13 R345 to R347). -/
structure Ucode where
  iver : BitVec 32
  pbase : Nat
  table : List PatchMatch
  words : List (BitVec 160)
deriving DecidableEq, Repr

/-- An image whose chunks are arriving (15 R376): whether it is firmware or microcode, the slot, and the bytes so far. -/
structure Stage where
  firmware : Bool
  slot : Byte
  bytes : List Byte
deriving DecidableEq, Repr

/-- The mailbox command that executes (15 R365): its header, the compartment it acts on, when it began, and whether `PERST_N`
has taken its response (19 R442). -/
structure CurCmd where
  opcode : BitVec 16
  seq : BitVec 32
  comp : Byte
  start : Nat
  lost : Bool
deriving DecidableEq, Repr

/-- An event that waits until a restarting Lockkeeper answers again (15 R363). -/
structure OwedEvent where
  code : Nat
  comp : Nat
  seq : BitVec 32
  data : W64
deriving DecidableEq, Repr

/-- The latest sensor sample with its tick (15 Table 15.14). -/
structure Sample where
  tick : W64
  s : SensorSample
  clusterT : List Int
  freq : List Nat
  flags : BitVec 3
deriving DecidableEq, Repr

/-- The memory configuration in the flash configuration area (17 R417): the 1 GiB units and the ranks, and the rate in MT/s that training
starts at. -/
structure MemCfg where
  units : Nat
  ranks : Nat
  rate : Nat
deriving DecidableEq, Repr

/-- The Lockkeeper (15, 13 R344 to R347, 18 R430), with the flash configuration area (17 R417). `fwWhole` are the banks whose image
is whole (19 Table 19.8); `next` is a command of a doorbell that came while one whose response is lost still executed (19 R442). -/
structure Lk where
  boot : BootStep
  bank : Bool
  selected : Bool
  lastFailed : Bool
  fwBank : List (List Byte)
  fwWhole : BitVec 2
  ucFlash : List (List Byte)
  accepted : List (Option Ucode)
  reasons : List Byte
  key1 : Bool
  key2 : Option (List Byte)
  stage : Option Stage
  profile : BitVec 2
  switching : BitVec 16
  cur : Option CurCmd
  next : Option CurCmd
  held : Bool
  restarting : Bool
  lastBeat : Nat
  resetDue : Bool
  sample : Sample
  trace : List (BitVec 15 × W64)
  owed : List OwedEvent
  memCfg : MemCfg
deriving DecidableEq, Repr

/-! ## Power, pins and ports to the outside -/

/-- The regulator controller's states (19 Table 19.2). -/
inductive RegState where
  | off
  | ramp
  | on
  | down
  | trip
deriving DecidableEq, Repr

/-- The regulator controller and the limits of the hub (19 R435, R436, R446 to R448): state, number of rails good,
trip record, `DRAM_PWR_EN`, when it rose or the rails began to go down, cap in mW, samples in a row above 37 A, current latch, fallback latch, throttling by cluster,
and the latest junction readings. -/
structure Power where
  reg : RegState
  rails : Nat
  tripRec : Option Byte
  dramPwrEn : Bool
  since : Nat
  cap : Nat
  overSamples : Nat
  curLatch : BitVec 16
  hotLatch : BitVec 16
  throttle : BitVec 16
  temps : Option ThermalReading
deriving DecidableEq, Repr

/-- The pins that are not held elsewhere (20 Table 20.1): inputs as last driven, outputs as driven; the JTAG instruction; and
what the SMBus port answered last (none: NACK). -/
structure Pins where
  pwrgood : Bool
  resetN : Bool
  perstN : Bool
  dramPg : Bool
  ready : Bool
  thermtripN : Bool
  weirSyncOut : Bool
  syncEnd : Nat
  input12 : Bool
  ir : JtagInstr
  smb : Option (List Byte)
deriving DecidableEq, Repr

/-- A read of the host that has no completion yet (17 R415, R416): the function whose requester ID it carries, the channel that issued it
(none: `COMPARTMENT_LOAD`), its address, the bytes still to come, and when it was issued. -/
structure HostRead where
  fn : CompId
  chan : Option ChanId
  addr : W64
  len : Nat
  issued : Nat
deriving DecidableEq, Repr

/-- The PCIe port (17 R415, R416): whether it has trained, the code of the rate (1 to 5 for 2.5 to 32.0 GT/s) and the width it found, the
Max Payload Size and Max Read Request Size that the host has set, the reads outstanding, and the posted writes that have left, oldest
first (16 R394). -/
structure Pcie where
  trained : Bool
  rate : BitVec 3
  width : BitVec 5
  maxPayload : Nat
  maxRead : Nat
  reads : List HostRead
  posted : List Posted
deriving DecidableEq, Repr

/-- The whole block. -/
structure State where
  cores : Vector Core 128
  clusters : Vector Cluster 16
  engines : Vector Engine 16
  mnt : Vector MntEngine 16
  comps : Vector Comp 16
  timers : Vector Timer 16
  timerActs : List TimerAct
  chans : Vector Channel 64
  weir : Weir
  xitex : Xitex
  dram : Dram
  log : ErrLog
  mbx : Mailbox
  lk : Lk
  power : Power
  pins : Pins
  pcie : Pcie
  answers : List (CoreId × Answer)
  bcast : List (BitVec 4 × Broadcast)
  devid : BitVec 4
  now : Nat
  free : Nat
  pending : List Instr
deriving DecidableEq, Repr

/-! ## Reset -/

def Bank.reset : Bank :=
  { g := Vector.replicate 32 uninit, dspA := uninit, dspB := uninit, dspOp := 0, dretPc := 0, dbusy := false }

def StatusRegs.reset : StatusRegs := { newest := 0x201, force := 0x201, shadow := [] }

def L1.reset : L1 := { icache := [], dcache := [], victim := [], lfsr := 0xACE1, fbuf := [], miss := [] }

def Predictor.reset : Predictor := { btb := [], dir := [], hist := 0, stack := [] }

def Replay.reset : Replay :=
  { fwd := [], marks := 0, seen := 0, cards := [], words := [], remote := [], done := false, rom := [], healed := [], ports := [], tlb := none }

def Pend.reset : Pend := { mc := none, reports := [], step := none, flip := none, snap := false, snapTick := none, stop := false }

/-- A core after a core reset (03 R86, Tables 3.3 and 3.9). `pc` and `epc`, which the Lockkeeper writes before release,
are 0 until then, and so is `COMPART` (DESIGN CHOICE, log 2). -/
def Core.reset : Core :=
  { banks := Vector.replicate 8 Bank.reset
    pc := 0
    st := StatusRegs.reset
    exc := { epc := 0, ecause := 0, eaddr := 0, einfo := 0 }
    mmu := { dtbase := 0, ssp := uninit, lsp := Vector.replicate 8 uninit, ptbase := 0, fetchPtbase := 0,
             space := 0, fetchSpace := 0 }
    bw := { bank := 0, dspw := false }
    irq := { src := 0, level := [], swi := 0, alm := 0, group := 0 }
    heap := { goodcol := 1, allocPtr := 0, allocLim := 0, rlogPtr := 0, rlogLim := 0, dispatchBase := 0,
              tclassBase := 0 }
    compart := 0
    alarm := Vector.replicate 4 0
    cycles := 0
    instret := 0
    v := Vector.replicate 32 0
    nfl := 0
    longs := []
    tlb := { itlb := [], dtlb := [], stlb := [], lfsr := 0x1D0F }
    l1 := L1.reset
    pred := Predictor.reset
    sq := []
    micro := { run := none, saved := none, stack := [], patch := [], table := [] }
    mark := []
    cards := []
    recent := []
    run := .held
    wait := none
    replay := Replay.reset
    pend := Pend.reset
    lock := none
    lockHeld := false
    mcHeld := false
    ahead := none }

/-- An L2 after reset (12 R318). -/
def L2.reset : L2 :=
  { lines := [], lfsr := 0xACE1, st := .off, carafeN := 0, cur := 0, busy := false, cown := 0, carafe := [],
    cbad := [], ways := [] }

/-- A cluster after a device reset: VCORE at 0.80 V (19 Table 19.3); the clock at the fallback until calibration, its
target nominal 2.4 GHz (DESIGN CHOICE, log 2). -/
def Cluster.reset : Cluster :=
  { l2 := L2.reset
    clk := { freq := 16, target := 48, fallback := true, locked := false, vcore := 800, phase := 0,
             half := false } }

def Perc.reset : Perc :=
  { en := false, log2n := 0, ring := 0, head := 0, tail := 0, sid := 0, ptbase := 0, rtab := 0, evacPtr := 0,
    evacLim := 0, mstkBase := 0, mstkLim := 0, rerr := false, stopped := false, lasterr := 0, irq := 0, irqEn := 0,
    evacLow := 0, col := 1, late := 0, stack := [], memCount := 0, run := none, markedSince := false,
    termDone := false, used := 0, unacked := 0 }

def Engine.reset : Engine :=
  { comp := Vector.replicate 16 Perc.reset, tlb := [], fwd := [], marks := [], cards := [], window := 0, got := [], askNo := 0,
    copies := [], turn := 0, guards := [] }

def Mnt.reset : Mnt :=
  { start := 0, stop := 0, op := 0, busy := false, queued := false, done := false, rej := false, result := 0,
    mode := false, lines := 0, acted := false, outcome := 0, count := 0, irqPend := false }

def Resources.none : Resources :=
  { cores := 0, l2ways := [], carafe := [], memgib := 0, ilv := false, chmask := 0, pshare := 0, modes := 0,
    lcred := [], culvert := 0, timers := 0, groups := 0, home := Option.none }

def QueuePair.reset : QueuePair :=
  { en := false, sqlog2 := 0, cqlog2 := 0, cqirq := false, sqbase := 0, cqbase := 0, sqtail := 0, sqhead := 0,
    cqtail := 0, cqhead := 0, sqirq := false }

def VirtFn.reset : VirtFn :=
  { qp := Vector.replicate 8 QueuePair.reset, msixAddr := [], msixData := [], msixPend := 0 }

/-- A compartment that holds nothing (16 R379, Table 16.3, 15 Table 15.13). -/
def Comp.reset : Comp :=
  { st := .empty, res := Resources.none, bootepc := 0, apepc := 0, entryDone := false, booted := false, load := none,
    quiesce := none, abort := none, snap := none, scrubSeq := 0, abortDue := false,
    notice := { bits := 0, en := 0, reqCore := 0, reqBusy := false, reqResult := 0 },
    slcClass := Vector.replicate 8 0x8FFFF, slcMap := [], vf := VirtFn.reset }

/-- A timer channel after reset (14 Table 14.1); the pin reads low until an edge is seen (DESIGN CHOICE, log 2). -/
def Timer.reset : Timer :=
  { run := false, oneshot := false, pre := 0, casc := false, omode := 0, level := false, capen := false, period := 0,
    offset := 0, duty := 0, count := 0, last := 0, loaded := false, started := false, latch := false,
    hshadow := 0, capr := 0, capf := 0, holdr := none, holdf := none, readr := false, readf := false, edges := [],
    newr := false, newf := false, ovrr := false, ovrf := false, irq := 0, en := 0, toggle := false,
    pin := false, next := 0, skip := false }

def Channel.reset : Channel :=
  { en := false, log2n := 0, trustok := false, ring := 0, head := 0, tail := 0, rerr := false, stopped := false,
    nbwait := false, lasterr := 0, irq := 0, irqen := 0, run := none, startTick := none }

def ActPort.reset : ActPort :=
  { tick := 0, cmd := 0, busy := false, cancel := false, result := 0, entry := 0, devs := 0, id := 0, postGroup := 0 }

/-- The Weir after a device reset (08 Table 8.3, Table 8.5). -/
def Weir.reset : Weir :=
  { tick := Vector.replicate 34 0, corr := [], lock := false, cal := false, root := false, rdev := 0, live := 0,
    faildev := 0, board := 0, rootTo := none, peers := Vector.replicate 8 none, groups := [], members := [], early := [], actions := [], ports := Vector.replicate 16 ActPort.reset,
    sched := none, nextId := 0 }

/-- An idle, untrained port (19 R441). -/
def Port.reset : Port :=
  { trained := false, width := 0, peer := 0, half := false, standby := false, waking := false, training := false,
    trainSeq := 0, retrain := false, down := false, txSeq := 0, rxSeq := 0, sent := [], queued := [], fails := 0, nak := false }

def Mailbox.reset : Mailbox :=
  { busy := false, done := false, rej := false, recovery := false, evovf := false, hbeat := 0, irq := 0, irqEn := 0,
    evhead := 0, evtail := 0, lost := 0, abRun := 0, abDone := 0, abForced := 0, cmd := [], resp := [], ring := [] }

def Sample.reset : Sample :=
  { tick := 0
    s := { vin := 0, current := 0, power := 0, logic := 0, energy := 0, dramT := [], rails := [] }
    clusterT := [], freq := [], flags := 0 }

/-- The PCIe port before it trains; the payload and request sizes are those that PCIe gives a function at reset (log 55). -/
def Pcie.reset : Pcie :=
  { trained := false, rate := 0, width := 0, maxPayload := 128, maxRead := 512, reads := [], posted := [] }

/-- The Lockkeeper at the start of step 2 of start-up (19 Table 19.6). Flash is empty, key slot 1 is programmed
(13 R344), the profile is full (DESIGN CHOICE, log 2). -/
def Lk.reset : Lk :=
  { boot := .rom, bank := false, selected := false, lastFailed := false, fwBank := [[], []], fwWhole := 3, ucFlash := [[], []],
    accepted := [none, none], reasons := [0, 0], key1 := true, key2 := none, stage := none, profile := 0, switching := 0, cur := none,
    next := none, held := false, restarting := false, lastBeat := 0, resetDue := false, sample := Sample.reset, trace := [],
    owed := [], memCfg := { units := 128, ranks := 1, rate := 6400 } }

/-- The device just after a device reset (19 R440, R441): rails on, every unit at its reset value, start-up about to
begin at step 2 of Table 19.6. Values the spec leaves open are DESIGN CHOICE (log 2). -/
def State.reset : State :=
  { cores := Vector.replicate 128 Core.reset
    clusters := Vector.replicate 16 Cluster.reset
    engines := Vector.replicate 16 Engine.reset
    mnt := Vector.replicate 16 { regs := Vector.replicate 16 Mnt.reset, queue := [] }
    comps := Vector.replicate 16 Comp.reset
    timers := Vector.replicate 16 Timer.reset
    timerActs := []
    chans := Vector.replicate 64 Channel.reset
    weir := Weir.reset
    xitex := { ports := Vector.replicate 8 Port.reset, outstanding := [], nextTid := 0, rxq := [], relays := [] }
    dram := { words := [], owner := [], layout := [], units := 128, ranks := 1, rate := 6400, patrol := [],
              corrected := [], refreshed := [], drift := [], hot := 0 }
    log := { sram := [], flash := [], seq := 0, perSec := [], excess := [], second := 0 }
    mbx := Mailbox.reset
    lk := Lk.reset
    power := { reg := .on, rails := 5, tripRec := none, dramPwrEn := true, since := 0, cap := 440000, overSamples := 0, curLatch := 0,
               hotLatch := 0, throttle := 0, temps := none }
    pins := { pwrgood := true, resetN := true, perstN := true, dramPg := true, ready := false, thermtripN := true,
              weirSyncOut := false, syncEnd := 0, input12 := true, ir := .idcode, smb := none }
    pcie := Pcie.reset
    answers := []
    bcast := []
    devid := 0
    now := 0
    free := 0
    pending := [] }

end Sys2Proof.Machine
end

