-- ==== Sys2Proof/Machine/Ops.lean ====
section
/-! DEFINITION. The named operations that every unit shares: sparse maps, bits, the two monads, reading and writing the
pieces of the state, registers, STATUS in force, and raising an exception. -/

namespace Sys2Proof.Machine

/-! ## Sparse maps -/

/-- The entry at `k`, if one is listed. -/
def smGet? {α : Type} : SMap α → Nat → Option α
  | [], _ => none
  | (j, v) :: r, k => if j = k then some v else if k < j then none else smGet? r k

/-- The value at `k`, `d` where none is listed. -/
def smGet {α : Type} (d : α) (m : SMap α) (k : Nat) : α := (smGet? m k).getD d

/-- List `v` at `k`. -/
def smSet {α : Type} : SMap α → Nat → α → SMap α
  | [], k, v => [(k, v)]
  | (j, w) :: r, k, v =>
    if k < j then (k, v) :: (j, w) :: r
    else if j = k then (k, v) :: r
    else (j, w) :: smSet r k v

/-- Take the entry at `k` off the list. -/
def smDel {α : Type} : SMap α → Nat → SMap α
  | [], _ => []
  | (j, w) :: r, k => if j = k then r else if k < j then (j, w) :: r else (j, w) :: smDel r k

/-- Store `v` at `k` in a map whose default is `d`: the canonical form lists no default. -/
def smPut {α : Type} [DecidableEq α] (d : α) (m : SMap α) (k : Nat) (v : α) : SMap α :=
  if v = d then smDel m k else smSet m k v

/-- The canonical form: keys strictly rising. -/
def smSorted {α : Type} : SMap α → Bool
  | [] => true
  | [_] => true
  | (j, _) :: (k, w) :: r => decide (j < k) && smSorted ((k, w) :: r)

/-- The canonical form of a map with default `d`. -/
def smWf {α : Type} [DecidableEq α] (d : α) (m : SMap α) : Bool :=
  smSorted m && m.all (fun e => decide (e.2 ≠ d))

/-! ## Bits and bytes -/

/-- Bit `i`. -/
def bit {n : Nat} (w : BitVec n) (i : Nat) : Bool := w.getLsbD i

/-- Bits [lo + len − 1 : lo] as a number. -/
def fld {n : Nat} (w : BitVec n) (lo len : Nat) : Nat := (w.toNat >>> lo) % 2 ^ len

/-- Bits [lo + len − 1 : lo] of `w` replaced by those of `v`. -/
def setFld (w : W64) (lo len : Nat) (v : Nat) : W64 :=
  let m : W64 := BitVec.ofNat 64 ((2 ^ len - 1) <<< lo)
  (w &&& ~~~m) ||| (BitVec.ofNat 64 (v <<< lo) &&& m)

def setBit (w : W64) (i : Nat) (b : Bool) : W64 := setFld w i 1 b.toNat

/-- Set bit `i` of a mask of any width. -/
def bvSet {n : Nat} (w : BitVec n) (i : Nat) (b : Bool) : BitVec n :=
  if b then w ||| (1#n <<< i) else w &&& ~~~(1#n <<< i)

/-- Virtual addresses are taken modulo 2^48 (11 R287). -/
def va48 (w : W64) : W64 := w &&& 0xFFFFFFFFFFFF

def sext (n : Nat) (v : Nat) : W64 := (BitVec.ofNat n v).signExtend 64

/-- A `FIXNUM` word. -/
def fix (v : W64) : Word := ⟨0x00, v⟩
def fixI (v : Int) : Word := ⟨0x00, BitVec.ofInt 64 v⟩
/-- A `BYTES` word. -/
def bytesW (v : W64) : Word := ⟨0x06, v⟩
/-- The constants of 02 Table 2.3. -/
def nilW : Word := ⟨0x03, 0⟩
def trueW : Word := ⟨0x03, 1⟩
def falseW : Word := ⟨0x03, 2⟩
def unboundW : Word := ⟨0x03, 3⟩
def zdivW : Word := ⟨0x03, 5⟩
/-- `Bool` of 05 R120. -/
def boolW (b : Bool) : Word := if b then trueW else falseW

/-- Byte `i` of a payload (02 R31). -/
def byteOf (w : W64) (i : Nat) : Byte := BitVec.ofNat 8 (w.toNat >>> (8 * i))

/-- Little-endian bytes of a number. -/
def leBytes : Nat → Nat → List Byte
  | 0, _ => []
  | n + 1, v => BitVec.ofNat 8 v :: leBytes n (v / 256)

/-- The number that little-endian bytes spell. -/
def ofLe : List Byte → Nat
  | [] => 0
  | b :: r => b.toNat + 256 * ofLe r

/-- The 64-bit mask of a byte-enable mask. -/
def byteMask (m : Byte) : W64 :=
  BitVec.ofNat 64 (ofLe ((List.range 8).map (fun i => if bit m i then 0xFF#8 else 0#8)))

/-- One advance of the LFSRs of 12 R312. -/
def lfsrNext (v : BitVec 16) : BitVec 16 :=
  let b := (bit v 15).xor ((bit v 13).xor ((bit v 12).xor (bit v 10)))
  (v <<< 1) ||| BitVec.ofNat 16 b.toNat

/-- `n` advances. -/
def lfsrAdvance : Nat → BitVec 16 → BitVec 16
  | 0, v => v
  | n + 1, v => lfsrAdvance n (lfsrNext v)

/-- Replace element `i` of a list. -/
def listSet {α : Type} (l : List α) (i : Nat) (v : α) : List α := l.set i v

/-- The bits set in a mask, ascending. -/
def bitsSet {n : Nat} (w : BitVec n) : List Nat := (List.range n).filter (fun i => bit w i)

def popcount {n : Nat} (w : BitVec n) : Nat := (bitsSet w).length

/-! ## The monads -/

/-- Why an instruction stops before its end: an exception, a wait, that the boundary's own event has been carried out
instead, or that a microprogram in patch RAM takes over (13 R334). -/
inductive Stop where
  | exc (e : ExcArgs)
  | wait (w : WaitFor)
  | ended
  | micro
deriving DecidableEq, Repr

/-- What a unit of the device does. -/
abbrev DM := StateM State

/-- What a core does for an instruction. -/
abbrev CM := EStateM Stop State

/-- A step of the device within an instruction. -/
def liftD {α : Type} (m : DM α) : CM α := fun s => let r := m s; .ok r.1 r.2

/-! ## Pieces of the state -/

def getCore (s : State) (c : CoreId) : Core := s.cores.get c

def modCore (s : State) (c : CoreId) (f : Core → Core) : State :=
  { s with cores := s.cores.set c.val (f (s.cores.get c)) c.isLt }

def getCl (s : State) (k : ClusterId) : Cluster := s.clusters.get k

def modCl (s : State) (k : ClusterId) (f : Cluster → Cluster) : State :=
  { s with clusters := s.clusters.set k.val (f (s.clusters.get k)) k.isLt }

def getEng (s : State) (k : ClusterId) : Engine := s.engines.get k

def modEng (s : State) (k : ClusterId) (f : Engine → Engine) : State :=
  { s with engines := s.engines.set k.val (f (s.engines.get k)) k.isLt }

def getPerc (s : State) (k : ClusterId) (p : CompId) : Perc := (getEng s k).comp.get p

def modPerc (s : State) (k : ClusterId) (p : CompId) (f : Perc → Perc) : State :=
  modEng s k fun e => { e with comp := e.comp.set p.val (f (e.comp.get p)) p.isLt }

def getMnt (s : State) (k : ClusterId) (p : CompId) : Mnt := (s.mnt.get k).regs.get p

def modMntEng (s : State) (k : ClusterId) (f : MntEngine → MntEngine) : State :=
  { s with mnt := s.mnt.set k.val (f (s.mnt.get k)) k.isLt }

def modMnt (s : State) (k : ClusterId) (p : CompId) (f : Mnt → Mnt) : State :=
  modMntEng s k fun e => { e with regs := e.regs.set p.val (f (e.regs.get p)) p.isLt }

def getComp (s : State) (p : CompId) : Comp := s.comps.get p

def modComp (s : State) (p : CompId) (f : Comp → Comp) : State :=
  { s with comps := s.comps.set p.val (f (s.comps.get p)) p.isLt }

def getTimer (s : State) (n : TimerId) : Timer := s.timers.get n

def modTimer (s : State) (n : TimerId) (f : Timer → Timer) : State :=
  { s with timers := s.timers.set n.val (f (s.timers.get n)) n.isLt }

def getChan (s : State) (n : ChanId) : Channel := s.chans.get n

def modChan (s : State) (n : ChanId) (f : Channel → Channel) : State :=
  { s with chans := s.chans.set n.val (f (s.chans.get n)) n.isLt }

def getPort (s : State) (x : PortId) : Port := s.xitex.ports.get x

def modPort (s : State) (x : PortId) (f : Port → Port) : State :=
  { s with xitex := { s.xitex with ports := s.xitex.ports.set x.val (f (s.xitex.ports.get x)) x.isLt } }

def getActPort (s : State) (p : CompId) : ActPort := s.weir.ports.get p

def modActPort (s : State) (p : CompId) (f : ActPort → ActPort) : State :=
  { s with weir := { s.weir with ports := s.weir.ports.set p.val (f (s.weir.ports.get p)) p.isLt } }

/-- The cluster of a core (01 Table 1.1). -/
def clusterOf (c : CoreId) : ClusterId := ⟨c.val / 8, by omega⟩

/-- Core `j` of cluster `k`. -/
def coreOf (k : ClusterId) (j : Fin 8) : CoreId := ⟨k.val * 8 + j.val, by omega⟩

def allCores : List CoreId := List.finRange 128
def allClusters : List ClusterId := List.finRange 16
def allComps : List CompId := List.finRange 16

/-- The tick of the hub's island. -/
def hubTick (s : State) : W64 := s.weir.tick[33]

/-- The root drives a pulse of 16 ns on `WEIR_SYNC_OUT` (08 R212 step 3). -/
def driveSync (s : State) : State :=
  if s.weir.root then { s with pins := { s.pins with weirSyncOut := true, syncEnd := s.now + 16 } } else s

/-- The tick of a cluster's island. -/
def tickOf (s : State) (k : ClusterId) : W64 := s.weir.tick.get ⟨k.val, by omega⟩

/-- The number of the compartment whose four-bit number this is. -/
def compId (n : BitVec 4) : CompId := n.toFin

/-- The four-bit number of a compartment. -/
def compNo (p : CompId) : BitVec 4 := BitVec.ofFin p

/-- A fresh argument for a free value: the counter, advanced. -/
def fresh : DM Nat := fun s => (s.free, { s with free := s.free + 1 })

/-! ## Reading and writing a core within an instruction -/

def cget (c : CoreId) : CM Core := fun s => .ok (getCore s c) s

def cmod (c : CoreId) (f : Core → Core) : CM Unit := fun s => .ok () (modCore s c f)

def sget : CM State := fun s => .ok s s

def smod (f : State → State) : CM Unit := fun s => .ok () (f s)

/-- Raise an exception at the instruction (00 R11). -/
def raise {α : Type} (c : CoreId) (vec sub : Byte) (eaddr einfo : W64) : CM α := fun s =>
  .error (.exc { vec := vec, sub := sub, epc := (getCore s c).pc, eaddr := eaddr, einfo := einfo, impr := false,
                 inrep := false }) s

/-- Stop until `w` ends (06 R161, 08 R217 R224, 11 R305, 17 R410 to R412). -/
def waitFor {α : Type} (w : WaitFor) : CM α := fun s => .error (.wait w) s

/-! ## STATUS (03 Table 3.5) -/

/-- The level (03 R63). -/
def ipl (k : Core) : Fin 8 := ⟨fld k.st.force 1 3, Nat.mod_lt _ (by decide)⟩

/-- System privilege (03 R65). -/
def isSys (k : Core) : Bool := bit k.st.force 0

def stIE (k : Core) : Bool := bit k.st.force 4
def stOVE (k : Core) : Bool := bit k.st.force 5
def stDZE (k : Core) : Bool := bit k.st.force 6
def stPRECISE (k : Core) : Bool := bit k.st.force 7
def stDET (k : Core) : Bool := bit k.st.force 8
def stNUA (k : Core) : Bool := bit k.st.force 9
def stNUL (k : Core) : Bool := bit k.st.force 10
def stMIX (k : Core) : Bool := bit k.st.force 11
def stTRUNC (k : Core) : Bool := bit k.st.force 12
def stNILCAR (k : Core) : Bool := bit k.st.force 13
def stFORGE (k : Core) : Bool := bit k.st.force 14
def stRM (k : Core) : BitVec 2 := BitVec.ofNat 2 (fld k.st.force 15 2)
def stSSTEP (k : Core) : Bool := bit k.st.force 17

/-! ## Banks and registers (03 R61 to R64) -/

def bankOf (k : Core) (b : Fin 8) : Bank := k.banks.get b

def modBank (k : Core) (b : Fin 8) (f : Bank → Bank) : Core :=
  { k with banks := k.banks.set b.val (f (k.banks.get b)) b.isLt }

/-- Register `r` of bank `b`: g0 reads as `FIXNUM` 0 (R61). -/
def regOf (k : Core) (b : Fin 8) (r : Reg) : Word := if r = 0 then fixZero else (bankOf k b).g.get r

/-- Write register `r` of bank `b`: a write of g0 is discarded (R61). -/
def setRegOf (k : Core) (b : Fin 8) (r : Reg) (w : Word) : Core :=
  if r = 0 then k else modBank k b fun bk => { bk with g := bk.g.set r.val w r.isLt }

/-- A register of the current bank. -/
def gread (k : Core) (r : Reg) : Word := regOf k (ipl k) r

/-- Write a register of the current bank. -/
def gwrite (k : Core) (r : Reg) (w : Word) : Core := setRegOf k (ipl k) r w

/-- Read a general register within an instruction. -/
def reg (c : CoreId) (r : Reg) : CM Word := fun s => .ok (gread (getCore s c) r) s

/-- Write a general register within an instruction. -/
def setReg (c : CoreId) (r : Reg) (w : Word) : CM Unit := cmod c fun k => gwrite k r w

/-- `STATUS` as the newest write left it, with `DBUSY` of the current level (R71, R75). -/
def statusShown (k : Core) : W64 := setBit k.st.newest 18 (bankOf k (ipl k)).dbusy

end Sys2Proof.Machine
end

