-- ==== Sys2Proof/Machine/Operands.lean ====
section
/-! DEFINITION. The rules of the tagged word (02): classes of tags, identity, well-formedness, consuming an operand, and
the target tags of raw stores. -/

namespace Sys2Proof.Machine

/-! ## Tags (02 R28, R29, R33, R47) -/

def isPtr (t : Byte) : Bool := bit t 7
def ptype (t : Byte) : Nat := fld t 0 5
def colourOf (t : Byte) : BitVec 2 := BitVec.ofNat 2 (fld t 5 2)

/-- Reserved immediate codes and reserved pointer types (R47). -/
def isReserved (t : Byte) : Bool :=
  if isPtr t then decide (0x0A ≤ ptype t ∧ ptype t ≤ 0x0F) else decide (0x09 ≤ t.toNat ∧ t.toNat ≤ 0x3F)

def isFar (t : Byte) : Bool := isPtr t && ptype t == 0x08

/-- A pointer tag of a colour and a pointer type (R28). -/
def ptrTag (col : BitVec 2) (p : Nat) : Byte := 0x80#8 ||| (col.setWidth 8 <<< 5) ||| BitVec.ofNat 8 (p % 32)

/-- `Same` (R38). -/
def same (x y : Word) : Bool :=
  if isPtr x.tag && isPtr y.tag then decide (ptype x.tag = ptype y.tag) && decide (x.payload = y.payload)
  else decide (x.tag = y.tag) && decide (x.payload = y.payload)

/-- The well-formedness of a pointer payload by its pointer type (R34). -/
def wellFormed (w : Word) : Bool :=
  fld w.payload 48 16 == 0 && (if ptype w.tag = 0x09 then fld w.payload 0 2 == 0 else fld w.payload 0 3 == 0)

/-- The `EINFO` of a tag fault (R53). -/
def tagInfo (t : Byte) (pos : Nat) : W64 := BitVec.ofNat 64 (t.toNat + 256 * pos)

/-- Raise a tag fault for an operand in a register. -/
def tagFault {α : Type} (c : CoreId) (sub : Byte) (t : Byte) (pos : Nat) : CM α :=
  raise c 0x0B sub 0 (tagInfo t pos)

/-- Raise a tag fault for a word in memory. -/
def tagFaultAt {α : Type} (c : CoreId) (sub : Byte) (t : Byte) (pos : Nat) (ea : W64) : CM α :=
  raise c 0x0B sub ea (tagInfo t pos)

/-- Consume an operand in a register (R43, R47). -/
def consume (c : CoreId) (w : Word) (pos : Nat) : CM Unit :=
  if w.tag = 0x08 then raise c 0x16 0 0 w.payload
  else if w.tag = 0x07 then tagFault c 0x01 w.tag pos
  else if isReserved w.tag then tagFault c 0x02 w.tag pos
  else pure ()

/-- Read a register and consume it. -/
def regC (c : CoreId) (r : Reg) (pos : Nat) : CM Word := do
  let w ← reg c r
  consume c w pos
  return w

/-- `RawOp` of 04: a raw operand is consumed, and in user mode no pointer (R51). -/
def rawOp (c : CoreId) (r : Reg) (pos : Nat) : CM W64 := do
  let w ← reg c r
  consume c w pos
  let k ← cget c
  if isPtr w.tag && !isSys k then tagFault c 0x04 w.tag pos
  return w.payload

/-- The address that a base register holds (R36, R35, R34), the register consumed first (R43, R47). `FIXNUM` and
`BYTES` bases are addresses of system mode. -/
def checkBase (c : CoreId) (w : Word) (pos : Nat) : CM Unit := do
  consume c w pos
  if isFar w.tag then raise c 0x15 0 0 w.payload
  let k ← cget c
  if isPtr w.tag then
    if !wellFormed w then tagFault c 0x03 w.tag pos
  else if !(isSys k && (w.tag == 0x00 || w.tag == 0x06)) then tagFault c 0x07 w.tag pos

/-- Merge the bytes of a mask into a payload. -/
def mergeBytes (old new : W64) (mask : Byte) : W64 :=
  let m := byteMask mask
  (old &&& ~~~m) ||| (new &&& m)

/-- What a raw store leaves in a word (R45, R52, Table 2.9). -/
def rawMerge (old : Word) (new : W64) (mask : Byte) : Word :=
  if old.tag = 0x07 then ⟨0x06, mergeBytes old.payload new mask⟩
  else if old.tag = 0x08 then (if mask = 0xFF then ⟨0x06, new⟩ else old)
  else ⟨old.tag, mergeBytes old.payload new mask⟩

/-- What a write leaves in a word (R27, R52). -/
def applyWrite (old : Word) (w : WordWrite) : Word :=
  if w.tagged then w.w else rawMerge old w.w.payload w.mask

/-- The next colour of the rotation (06 R165). -/
def nextCol (col : BitVec 2) : BitVec 2 := if col = 3 then 1 else col + 1

/-- `Stale` of 06 R158 against a good colour. -/
def staleFor (good : BitVec 2) (t : Byte) : Bool :=
  isPtr t && ptype t != 0x08 && !(0x0A ≤ ptype t && ptype t ≤ 0x0F) && colourOf t != 0 && colourOf t != good
    && colourOf t != nextCol good

/-- The headed pointer types (04 R113). -/
def isHeaded (t : Byte) : Bool := isPtr t && 1 ≤ ptype t && ptype t ≤ 6

/-- `LEN` of a header (02 Table 2.5). -/
def hdrLen (h : Word) : Nat := fld h.payload 0 32

end Sys2Proof.Machine
end

