-- ==== Sys2Proof/Machine/Log.lean ====
section
/-! DEFINITION. What leaves the device towards the host, and the error log: MSI-X messages and posted writes (16 R394),
mailbox events (15 R373) and error log entries (18 R427, R430). -/

namespace Sys2Proof.Machine

/-- A posted write leaves the device, after all those accepted before it (16 R394). -/
def post (s : State) (p : Posted) : State := { s with pcie := { s.pcie with posted := s.pcie.posted ++ [p] } }

/-- Whether clocks run: the rails are on and the device is not held in reset (19 R436, R440). -/
def clocksRun (s : State) : Bool := s.power.reg == .on && s.pins.resetN

/-- Whether an access of the host reaches the device: rails on, no device reset, no PCIe reset, and the port trained (19 R441, R442, 18
Table 18.4). -/
def hostReaches (s : State) : Bool := clocksRun s && s.pins.perstN && s.pcie.trained

/-- The data and the vector control of an MSI-X vector of a virtual function: bit 32 masks it, which PCIe has it do at reset (log 23). -/
def msixCtl (s : State) (p : CompId) (n : Nat) : W64 := smGet 0x100000000 (getComp s p).vf.msixData n

/-- Signal an MSI-X vector (16 R393): its message is posted; while a function's vector is masked it stands in the pending-bit array. The
spec gives the physical function's table no place (log 23). -/
def signal (s : State) (p : CompId) (n : Nat) : State :=
  if p ≠ 0 ∧ bit (msixCtl s p n) 32 then
    modComp s p fun x => { x with vf := { x.vf with msixPend := bvSet x.vf.msixPend n true } }
  else post s (.msix p n)

/-- Set a bit of `MBX_IRQ` and signal its vector where it is enabled (15 Table 15.3). -/
def mbxIrq (s : State) (i : Nat) : State :=
  let s := { s with mbx := { s.mbx with irq := bvSet s.mbx.irq i true } }
  if bit s.mbx.irqEn i then signal s 0 i else s

/-- Bytes at offset `o` of a byte map. -/
def putBytes (m : SMap Byte) : Nat → List Byte → SMap Byte
  | _, [] => m
  | o, b :: r => putBytes (smPut 0 m o b) (o + 1) r

/-- `n` bytes from offset `o` of a byte map. -/
def getBytes (m : SMap Byte) (o n : Nat) : List Byte := (List.range n).map fun i => smGet 0 m (o + i)

/-- Write an event into the ring, or drop it (15 R373, Table 15.12). -/
def ringEvent (s : State) (code : Nat) (comp : Nat) (seq : BitVec 32) (data : W64) : State :=
  let m := s.mbx
  if m.evtail + 1 = m.evhead then
    { s with mbx := { m with lost := if m.lost = 0xFFFFFFFF then m.lost else m.lost + 1, evovf := true } }
  else
    let e := leBytes 2 code ++ leBytes 2 comp ++ leBytes 4 seq.toNat ++ leBytes 8 data.toNat
    mbxIrq { s with mbx := { m with ring := putBytes m.ring (16 * m.evtail.toNat) e, evtail := m.evtail + 1 } } 1

/-- Post an event (15 R373); a Lockkeeper that restarts posts it when it answers again (R363). -/
def postEvent (s : State) (code : Nat) (comp : Nat) (seq : BitVec 32) (data : W64) : State :=
  if s.lk.restarting then
    { s with lk := { s.lk with owed := s.lk.owed ++ [{ code := code, comp := comp, seq := seq, data := data }] } }
  else ringEvent s code comp seq data

/-- The command that executes completes: the response, then `BUSY`, `DONE` and `MBX_IRQ.CMD` (15 R365, Table 15.4); where
the response is lost, the command of a later doorbell takes its place (19 R442). -/
def respond (s : State) (status detail : Nat) (result : List Byte) : State :=
  match s.lk.cur with
  | none => s
  | some c =>
    let b := leBytes 2 c.opcode.toNat ++ leBytes 2 result.length ++ leBytes 4 c.seq.toNat ++ leBytes 1 status ++ [c.comp]
      ++ leBytes 2 detail ++ leBytes 4 0 ++ result
    if c.lost then { s with lk := { s.lk with cur := s.lk.next, next := none } }
    else
    let s := { s with lk := { s.lk with cur := none }
                      mbx := { s.mbx with resp := putBytes s.mbx.resp 0 b, busy := false, done := true } }
    mbxIrq s 0

/-- Make an error log entry (18 R430, R431) and post `ERROR_LOGGED`. -/
def logErr (s : State) (cls sev comp unit : Nat) (addr info : W64) : State :=
  let n := s.log.seq + 1
  let e : LogEntry :=
    { seq := BitVec.ofNat 32 n, cls := BitVec.ofNat 8 cls, sev := BitVec.ofNat 8 sev, comp := BitVec.ofNat 8 comp,
      unit := BitVec.ofNat 8 unit, tick := if s.pins.ready then hubTick s else 0, addr := addr, info := info }
  postEvent { s with log := { s.log with sram := s.log.sram ++ [e], seq := n } } 0x0007 comp 0 (BitVec.ofNat 64 n)

/-- Log a severity 0 error of a source with a limit of 16 entries a second; those beyond are counted (18 R427). -/
def logCorrected (s : State) (src : Nat) (cls comp unit : Nat) (addr info : W64) : State :=
  let n := smGet 0 s.log.perSec src
  if n < 16 then
    logErr { s with log := { s.log with perSec := smPut 0 s.log.perSec src (n + 1) } } cls 0 comp unit addr info
  else
    { s with log := { s.log with excess := smPut 0 s.log.excess src (smGet 0 s.log.excess src + 1) } }

/-- MSI-X vector 31 of a compartment's function: `VF_STATE` changes (16 R393). -/
def setCompState (s : State) (p : CompId) (st : CState) : State :=
  if (getComp s p).st = st then s else signal (modComp s p fun k => { k with st := st }) p 31

/-- Whether `LK_NOTICE` makes source 0x47 pending (15 R374). -/
def noticePending (n : Notice) : Bool := (n.bits &&& n.en) != 0

/-- Set a bit of `LK_NOTICE` (15 Table 15.13). -/
def notify (s : State) (p : CompId) (i : Nat) : State :=
  modComp s p fun k => { k with notice := { k.notice with bits := bvSet k.notice.bits i true } }

/-! ## Machine checks (18 R424) -/

/-- The cores of a compartment (16 R381). -/
def compCores (s : State) (p : CompId) : List CoreId := allCores.filter fun c => bit (getComp s p).res.cores c.val

/-- A machine check becomes pending: a held or locked-up core receives none, and one that is pending stands. -/
def pendMc (s : State) (c : CoreId) (r : McReport) : State :=
  let k := getCore s c
  if k.run = .held ∨ k.run = .locked ∨ k.run = .stub ∨ k.pend.mc.isSome then s
  else modCore s c fun k => { k with pend := { k.pend with mc := some r } }

/-- A machine check on every core of a compartment on this device; compartment 0 has none. -/
def pendMcAll (s : State) (p : CompId) (r : McReport) : State :=
  if p = 0 then s else (compCores s p).foldl (fun s c => pendMc s c r) s

/-- The `INFO` of a machine check's log entry (18 Table 18.3). -/
def mcInfo (sub einfo : Nat) : W64 := BitVec.ofNat 64 (sub + 256 * (einfo % 2 ^ 56))

/-- A compartment has lost state: every core of it gets a machine check, and its abort is due (12 R317 steps 4 and 5, 18 R424). The
abort itself starts with the Lockkeeper's next turn, so that the check can be taken before it (18 R425). -/
def loseComp (s : State) (cls unit : Nat) (owner : CompId) (addr : W64) (r : McReport) : State :=
  let s := pendMcAll (logErr s cls 2 owner.val unit addr (mcInfo r.sub.toNat r.einfo.toNat)) owner r
  if owner = 0 then s else modComp s owner fun x => { x with abortDue := true }

/-- A corrected parity error of a cluster's caches or TLBs (18 Table 18.1 class 0x03; R427). -/
def logParity (s : State) (k : ClusterId) (comp : BitVec 4) (addr : W64) : State :=
  logCorrected s (16 + k.val) 0x03 comp.toNat k.val addr 0

end Sys2Proof.Machine
end

