-- ==== Sys2Proof/Machine/Ecc.lean ====
section
/-! DEFINITION. Physical memory of the device: the ranges of its window (11 Table 11.1), the memory fences (16 R385), and
the words of DRAM with their SEC-DED code (02 R55 to R57). -/

namespace Sys2Proof.Machine

/-! ## The device window -/

/-- What a physical address names (11 R288, Table 11.1). -/
inductive PClass where
  | dram (off : Nat)
  | mmio (off : Nat)
  | carafe (k : ClusterId) (o : Nat)
  | unassigned
  | remote (d : BitVec 4)
deriving DecidableEq, Repr

def paDev (pa : BitVec 44) : BitVec 4 := BitVec.ofNat 4 (fld pa 40 4)
def paOff (pa : BitVec 44) : Nat := fld pa 0 40

def classify (s : State) (pa : BitVec 44) : PClass :=
  let o := paOff pa
  if paDev pa ≠ s.devid then .remote (paDev pa)
  else if o < 0x8000000000 then .dram o
  else if o < 0xF000000000 then .unassigned
  else if o < 0xF800000000 then .mmio (o - 0xF000000000)
  else if o < 0xF802000000 then .carafe (Fin.ofNat 16 ((o - 0xF800000000) / 0x200000)) ((o - 0xF800000000) % 0x200000)
  else .unassigned

/-- A local address from its offset. -/
def localPa (s : State) (off : Nat) : BitVec 44 := BitVec.ofNat 44 (s.devid.toNat * 0x10000000000 + off % 0x10000000000)

/-- The physical region of a local address (11 Table 11.1) and its card. -/
def physRegion (pa : BitVec 44) : Nat := paOff pa / 0x200000
def cardOf (pa : BitVec 44) : Nat := pa.toNat / 512

/-- The owner of the 1 GiB unit that holds a DRAM offset (16 R385). -/
def ownerAt (s : State) (off : Nat) : BitVec 4 := smGet 0 s.dram.owner (off / 0x40000000)

def installed (s : State) (off : Nat) : Bool := decide (off < s.dram.units * 0x40000000)

/-- Whether the memory controllers perform an access of a compartment (16 R385). -/
def fenceOk (s : State) (comp : BitVec 4) (off : Nat) : Bool :=
  comp == 0 ||
    (ownerAt s off == comp && (getComp s (compId comp)).st != .aborting && (getComp s (compId comp)).st != .aborted)

/-! ## The code -/

/-- The columns H(0) to H(71) (R56). -/
def eccCols : List Nat :=
  ((List.range 256).filter fun v => popcount (BitVec.ofNat 8 v) % 2 == 1 && 3 ≤ popcount (BitVec.ofNat 8 v)).take 72

/-- The XOR of the columns of the data bits that are set, data bit by data bit. -/
def eccFold : List Nat → Nat → Byte → Byte
  | [], _, acc => acc
  | h :: r, v, acc => eccFold r (v / 2) (if v % 2 = 1 then acc ^^^ BitVec.ofNat 8 h else acc)

/-- The check bits of a word (R56). -/
def checkBits (w : Word) : Byte := eccFold eccCols (w.payload.toNat + w.tag.toNat * 2 ^ 64) 0

/-- A word as it lies in DRAM with fresh check bits (R55). -/
def toDram (w : Word) : DramWord := ⟨w.payload, w.tag, checkBits w⟩

/-- What a word of DRAM that nothing has written holds (R42). -/
def dramDefault : DramWord := toDram uninit

/-- The canonical form of memory: addresses strictly rising, and no word listed that an unlisted address would read as. -/
abbrev Memory.wf (m : SMap DramWord) : Bool := smWf dramDefault m

/-- What a syndrome says (R57, Table 2.12). -/
inductive Syndrome where
  | clean
  | data (i : Nat)
  | check (j : Nat)
  | bad
deriving DecidableEq, Repr

def syndrome (d : DramWord) : Syndrome :=
  let x := (checkBits ⟨d.tag, d.payload⟩ ^^^ d.check).toNat
  if x = 0 then .clean
  else match eccCols.findIdx? (· == x) with
    | some i => .data i
    | none => match (List.range 8).find? (fun j => 2 ^ j == x) with
      | some j => .check j
      | none => .bad

/-- Invert data bit `i` of a word. -/
def flipData (d : DramWord) (i : Nat) : Word :=
  if i < 64 then ⟨d.tag, d.payload ^^^ (1#64 <<< i)⟩ else ⟨d.tag ^^^ (1#8 <<< (i - 64)), d.payload⟩

/-- The subchannel that holds a DRAM offset (16 R387): successive 512-byte blocks of a unit take the subchannels of its
channels in turn; a unit handed to nobody is fine. -/
def subchannel (s : State) (off : Nat) : Nat :=
  let chans := (bitsSet (smGet 0xFF s.dram.layout (off / 0x40000000)))
  let n := 2 * chans.length
  let j := if n = 0 then 0 else (off / 512) % n
  2 * chans.getD (j / 2) 0 + j % 2

/-- The `UNIT` of a DRAM error (18 Table 18.3). -/
def dramUnit (s : State) (off : Nat) : Nat :=
  subchannel s off + (if s.dram.ranks = 2 ∧ Config.rankOf (off / 8) then 16 else 0)

/-- `POISON` of a source for an address (R46). -/
def poison (pa : BitVec 44) (src : Nat) : Word := ⟨0x08, BitVec.ofNat 64 (pa.toNat + src * 2 ^ 48)⟩

/-- Write a word of DRAM with fresh check bits. -/
def dramWrite (s : State) (off : Nat) (w : Word) : State :=
  { s with dram := { s.dram with words := smPut dramDefault s.dram.words (off / 8) (toDram w) } }

/-- Twenty-four hours in ns. -/
def dayNs : Nat := 86400000000000

/-- The `ADDR` field of a DRAM error: the device physical address of the word. -/
def dramAddr (s : State) (off : Nat) : BitVec 44 := localPa s (off / 8 * 8)

/-- `INFO` of a corrected word: syndrome, corrected bit, whether the word was corrected within the last 24 hours, and
whether the patrol read it (18 Table 18.3, 17 R420). -/
def corrInfo (s : State) (patrol : Bool) (off syn bitNo : Nat) : W64 :=
  let again := match smGet? s.dram.corrected (off / 8) with
    | some t => decide (s.now < t + dayNs)
    | none => false
  BitVec.ofNat 64 (syn + 256 * bitNo + (if again then 0x8000 else 0) + (if patrol then 0x10000 else 0))

/-- The time at which a word was corrected last. -/
def stampCorrected (s : State) (off : Nat) : State :=
  { s with dram := { s.dram with corrected := smSet s.dram.corrected (off / 8) s.now } }

/-- A word with one bit in error: written back corrected, and logged (18 R426). -/
def dramCorrect (patrol : Bool) (off syn bitNo : Nat) (w : Word) (s : State) : State :=
  logCorrected (stampCorrected (dramWrite s off w) off) (subchannel s off) 0x01 (ownerAt s off).toNat (dramUnit s off)
    ((dramAddr s off).setWidth 64) (corrInfo s patrol off syn bitNo)

/-- A word with more errors: `POISON` takes its place, and the error is logged (R46, 18 R426). -/
def dramPoison (patrol : Bool) (off syn : Nat) (s : State) : State :=
  logErr (dramWrite s off (poison (dramAddr s off) 1)) 0x02 1 (ownerAt s off).toNat (dramUnit s off) ((dramAddr s off).setWidth 64)
    (BitVec.ofNat 64 (syn + (if patrol then 0x10000 else 0)))

/-- The syndrome's number. -/
def synOf (d : DramWord) : Nat := (checkBits ⟨d.tag, d.payload⟩ ^^^ d.check).toNat

/-- What the controller delivers of a word, by what its syndrome says. -/
def dramDeliver (patrol : Bool) (off : Nat) (d : DramWord) (y : Syndrome) : DM Word := fun s =>
  match y with
  | .clean => (⟨d.tag, d.payload⟩, s)
  | .data i => (flipData d i, dramCorrect patrol off (synOf d) i (flipData d i) s)
  | .check j => (⟨d.tag, d.payload⟩, dramCorrect patrol off (synOf d) (72 + j) ⟨d.tag, d.payload⟩ s)
  | .bad => (poison (dramAddr s off) 1, dramPoison patrol off (synOf d) s)

/-- A word of DRAM as the controller delivers it, with what the controller does about its syndrome (R46, R57, 18 R426,
17 R420): a corrected word is written back and logged, an uncorrectable one is replaced by `POISON` and logged. -/
def dramRead (patrol : Bool) (off : Nat) : DM Word := fun s =>
  dramDeliver patrol off (smGet dramDefault s.dram.words (off / 8)) (syndrome (smGet dramDefault s.dram.words (off / 8))) s

end Sys2Proof.Machine
end

