-- ==== Sys2Proof/Machine/Cache.lean ====
section
/-! DEFINITION. The caches (12): indexing, victims, back-invalidation, coherence among the L2s, fills and stores, the
Carafe ways, the L1s and the victim buffer. A line is named by its number PA[43:6]. -/

namespace Sys2Proof.Machine

/-! ## Indexing (R307, Table 12.1) -/

def l1Set (line : Nat) : Nat := (line % 256) ^^^ ((line / 256) % 256)

def l2Set (line : Nat) : Nat :=
  (line % 4096) ^^^ ((line / 2 ^ 12) % 4096) ^^^ ((line / 2 ^ 24) % 4096) ^^^ ((line / 2 ^ 36) % 4)

def lineOf (pa : BitVec 44) : Nat := pa.toNat / 64

/-- The DRAM offset of a line of this device. -/
def lineOff (line : Nat) : Nat := (line * 64) % 0x10000000000

/-! ## Lines, writes and their parity (R307, R315) -/

/-- Apply writes to the words of a line. -/
def applyLine (ws : List Word) (writes : List WordWrite) : List Word :=
  writes.foldl (fun ws w => listSet ws (fld w.pa 3 3) (applyWrite (ws.getD (fld w.pa 3 3) uninit) w)) ws

/-- A write that covers its word writes both of its halves with their parity. -/
def coversWord (w : WordWrite) : Bool := w.tagged || w.mask == 0xFF

/-- The halves whose parity still disagrees after writes to their line. -/
def badAfter (bad : BitVec 16) (writes : List WordWrite) : BitVec 16 :=
  writes.foldl (fun b w => if coversWord w then b &&& ~~~(3#16 <<< (2 * fld w.pa 3 3)) else b) bad

/-- A line just filled. -/
def newILine (line : Nat) (ws : List Word) : ILine := { line := line, words := ws, bad := 0, sbad := false }

/-- The writes of a line as an L1 copy of it takes them. -/
def ILine.store (x : ILine) (writes : List WordWrite) : ILine :=
  { x with words := applyLine x.words (writes.filter fun w => lineOf w.pa == x.line)
           bad := badAfter x.bad (writes.filter fun w => lineOf w.pa == x.line) }

/-- Whether an L1 entry reads with bad parity. -/
def ILine.isBad (x : ILine) : Bool := x.bad != 0 || x.sbad

/-! ## L1 (R309, R310) -/

/-- The index at which L1D holds a line. -/
def dIdx? (l : L1) (line : Nat) : Option Nat :=
  ((List.range 4).map (fun w => l1Set line * 4 + w)).find? fun i => (smGet? l.dcache i).map (·.line) == some line

/-- The entry with which L1D holds a line. -/
def dGet? (l : L1) (line : Nat) : Option ILine := (dIdx? l line).bind (smGet? l.dcache)

/-- The entry with which the victim buffer holds a line. -/
def vGet? (l : L1) (line : Nat) : Option ILine := l.victim.find? fun x => x.line == line

def iIdx? (l : L1) (line : Nat) : Option Nat :=
  ((List.range 4).map (fun w => l1Set line * 4 + w)).find? fun i => (smGet? l.icache i).map (·.line) == some line

/-- The first free way of an L1 set, or the way that the LFSR draws (R312). -/
def l1Way (free : Nat → Bool) (v : BitVec 16) : Nat := ((List.range 4).find? free).getD (v.toNat % 4)

/-- A line that leaves L1D enters the victim buffer, which drops its oldest line when it is full (R310). -/
def victimPut (l : L1) (x : ILine) : L1 :=
  let v := if 8 ≤ l.victim.length then l.victim.drop 1 else l.victim
  { l with victim := v ++ [x] }

/-- Fill a line into L1D; a copy in the victim buffer leaves it (R310). -/
def dFill (l : L1) (x : ILine) : L1 :=
  let l := { l with victim := l.victim.filter (·.line != x.line) }
  if (dIdx? l x.line).isSome then l
  else
    let base := l1Set x.line * 4
    let w := l1Way (fun w => (smGet? l.dcache (base + w)).isNone) l.lfsr
    let l1 := match smGet? l.dcache (base + w) with
      | some old => victimPut l old
      | none => l
    { l1 with dcache := smSet l1.dcache (base + w) x }

/-- Fill a line into L1I. -/
def iFill (l : L1) (x : ILine) : L1 :=
  match iIdx? l x.line with
  | some i => { l with icache := smSet l.icache i x }
  | none =>
    let base := l1Set x.line * 4
    let w := l1Way (fun w => (smGet? l.icache (base + w)).isNone) l.lfsr
    { l with icache := smSet l.icache (base + w) x }

def dDrop (l : L1) (line : Nat) : L1 :=
  let l := { l with victim := l.victim.filter (·.line != line) }
  match dIdx? l line with
  | some i => { l with dcache := smDel l.dcache i }
  | none => l

def iDrop (l : L1) (line : Nat) : L1 :=
  match iIdx? l line with
  | some i => { l with icache := smDel l.icache i }
  | none => l

/-- A store writes the copies that L1D and the victim buffer hold of its line (R309, R310). -/
def dStore (l : L1) (writes : List WordWrite) : L1 :=
  { l with dcache := l.dcache.map fun e => (e.1, e.2.store writes), victim := l.victim.map fun x => x.store writes }

/-- The L1s and the victim buffer invalidated, the LFSR kept (R309, 10 R281). -/
def l1Clear (l : L1) : L1 := { l with icache := [], dcache := [], victim := [], fbuf := [], miss := [] }

def modL1 (s : State) (c : CoreId) (f : L1 → L1) : State := modCore s c fun k => { k with l1 := f k.l1 }

/-! ## L2 -/

def l2Of (s : State) (k : ClusterId) : L2 := (getCl s k).l2

def modL2 (s : State) (k : ClusterId) (f : L2 → L2) : State := modCl s k fun x => { x with l2 := f x.l2 }

/-- The index at which an L2 holds a line: lookups search all 16 ways (R312). -/
def l2Idx? (l : L2) (line : Nat) : Option Nat :=
  ((List.range 16).map (fun w => l2Set line * 16 + w)).find? fun i => (smGet? l.lines i).map (·.line) == some line

def l2Get? (s : State) (k : ClusterId) (line : Nat) : Option L2Line :=
  (l2Idx? (l2Of s k) line).bind fun i => smGet? (l2Of s k).lines i

def l2Put (s : State) (k : ClusterId) (line : Nat) (f : L2Line → L2Line) : State :=
  match l2Idx? (l2Of s k) line with
  | some i => modL2 s k fun l => match smGet? l.lines i with
    | some x => { l with lines := smSet l.lines i (f x) }
    | none => l
  | none => s

/-- The L1 copies of a line that a cluster's directory lists are removed (R313). -/
def backInval (s : State) (k : ClusterId) (x : L2Line) : State :=
  (List.finRange 8).foldl (fun s j =>
    let s := if bit x.dpres j.val then modL1 s (coreOf k j) (dDrop · x.line) else s
    if bit x.ipres j.val then modL1 s (coreOf k j) (iDrop · x.line) else s) s

/-- A store that reaches the L2 invalidates the copies of its line in the L1Ds and victim buffers of the cluster's other cores, so that no
L1D copy ever differs from L2 (R309, R313). -/
def l1dSync (s : State) (k : ClusterId) (own : Option CoreId) (line : Nat) : State :=
  match l2Get? s k line with
  | none => s
  | some x =>
    (List.finRange 8).foldl (fun s j =>
      if bit x.dpres j.val && own != some (coreOf k j) then
        l2Put (modL1 s (coreOf k j) (dDrop · line)) k line fun y => { y with dpres := bvSet y.dpres j.val false }
      else s) s

/-- Write the eight words of a line back to DRAM with fresh check bits. -/
def lineToDram (s : State) (line : Nat) (ws : List Word) : State :=
  (List.range 8).foldl (fun s i => dramWrite s (lineOff line + 8 * i) (ws.getD i uninit)) s

/-- Remove a line from an L2 without writing it back, its L1 copies first (R313). -/
def l2Drop (s : State) (k : ClusterId) (line : Nat) : State :=
  match l2Get? s k line, l2Idx? (l2Of s k) line with
  | some x, some i => modL2 (backInval s k x) k fun l => { l with lines := smDel l.lines i }
  | _, _ => s

/-! ## Parity (R315 to R317) -/

/-- The `EINFO` of a dirty-line error (18 Table 18.2). -/
def dirtyInfo (s : State) (k : ClusterId) (car stateBits : Bool) : W64 :=
  BitVec.ofNat 64 (k.val + 16 * s.devid.toNat + 256 * car.toNat + 512 * stateBits.toNat)

/-- What follows the loss of a line found by cluster `k` (R317 steps 4 and 5, 18 Table 18.1 class 0x04). -/
def loseLine (s : State) (k : ClusterId) (line : Nat) (owner : BitVec 4) (car stateBits : Bool) : State :=
  let addr : W64 := BitVec.ofNat 64 (line * 64)
  loseComp s 0x04 k.val (compId owner) addr { sub := 3, eaddr := addr, einfo := dirtyInfo s k car stateBits }

/-- The words that take the place of a lost line (R317 step 1, 02 Table 2.8). -/
def lostWords (line : Nat) : List Word := (List.range 8).map fun i => poison (BitVec.ofNat 44 (line * 64 + 8 * i)) 1

/-- A dirty-line error of an L2 line (R317): every copy is invalidated, and DRAM holds the line as `POISON`. -/
def dirtyLine (s : State) (k : ClusterId) (line : Nat) (stateBits : Bool) : State :=
  let s := allClusters.foldl (fun s j => l2Drop s j line) s
  loseLine (lineToDram s line (lostWords line)) k line (ownerAt s (lineOff line)) false stateBits

/-- The read of an L2 entry checks its parity (Table 12.4): bad address, state or directory bits, and bad data of an M line, are a
dirty-line error; bad data of an E or S line invalidates it, and the access goes on as a miss. -/
def l2Check (s : State) (k : ClusterId) (line : Nat) : State :=
  match l2Get? s k line with
  | none => s
  | some x =>
    if x.sbad || (x.bad != 0 && x.st == .m) then dirtyLine s k line x.sbad
    else if x.bad != 0 then
      logParity (l2Drop s k line) k (ownerAt s (lineOff line)) (BitVec.ofNat 64 (line * 64))
    else s

/-- Write a line back if it is M, and leave it E (R314). -/
def l2Clean (s : State) (k : ClusterId) (line : Nat) : State :=
  let s := l2Check s k line
  match l2Get? s k line with
  | some x => if x.st = .m then l2Put (lineToDram s line x.words) k line fun y => { y with st := .e } else s
  | none => s

/-- Write back and remove (R314). -/
def l2Evict (s : State) (k : ClusterId) (line : Nat) : State := l2Drop (l2Clean s k line) k line

/-- The clusters whose L2 holds a line. -/
def holders (s : State) (line : Nat) : List ClusterId := allClusters.filter fun k => (l2Get? s k line).isSome

/-- Write back every M copy of a line outside cluster `k` and leave the copies S, or remove them (R314). -/
def othersShare (s : State) (k : Option ClusterId) (line : Nat) : State :=
  (holders s line).foldl (fun s j => if some j = k then s else
    l2Put (l2Clean s j line) j line fun y => { y with st := .s }) s

def othersDrop (s : State) (k : Option ClusterId) (line : Nat) : State :=
  (holders s line).foldl (fun s j => if some j = k then s else l2Evict s j line) s

/-- A word read behind those read so far. -/
def dramPush (ws : List Word) (q : Word × State) : List Word × State := (ws ++ [q.1], q.2)

/-- One more word of DRAM behind those read so far. -/
def dramNext (off : Nat) (r : List Word × State) : List Word × State := dramPush r.1 (dramRead false off r.2)

/-- The eight words of a line as DRAM delivers them. -/
def dramLine (line : Nat) : DM (List Word) := fun s =>
  (List.range 8).foldl (fun r i => dramNext (lineOff line + 8 * i) r) ([], s)

/-- The eight words of a line from the L2 that holds it, or from DRAM. -/
def lineFrom (line : Nat) : Option ClusterId → DM (List Word)
  | some k => fun s => (((l2Get? s k line).map (·.words)).getD [], s)
  | none => dramLine line

/-- The copy of a line that a coherent reader takes is checked first; where it is lost the next one is taken (R316). -/
def checkHeld (s : State) (line : Nat) : State :=
  allClusters.foldl (fun s k => if (holders s line).head? = some k then l2Check s k line else s) s

/-- The eight words of a line as every coherent reader sees them: an L2 copy, else DRAM (R314). -/
def lineRead (line : Nat) : DM (List Word) := fun s =>
  let s := checkHeld s line
  lineFrom line (holders s line).head? s

/-- One word from the L2 that holds its line, or from DRAM. -/
def wordFrom (pa : BitVec 44) : Option ClusterId → DM Word
  | some k => fun s => (((l2Get? s k (lineOf pa)).map (fun x => x.words.getD (fld pa 3 3) uninit)).getD uninit, s)
  | none => dramRead false (paOff pa)

/-- One word as every coherent reader sees it. -/
def wordRead (pa : BitVec 44) : DM Word := fun s =>
  let s := checkHeld s (lineOf pa)
  wordFrom pa (holders s (lineOf pa)).head? s

/-- The ways of an L2 that a fill may take: not Carafe, not converting, in the mask (R312, R328). -/
def fillWays (l : L2) (mask : BitVec 16) : List Nat :=
  (bitsSet mask).filter fun w => !(8 ≤ w && w < 8 + l.cur.toNat) && !(l.busy && l.cur < l.carafeN && w == 8 + l.cur.toNat)

/-- The way a fill takes in a set (R312, Table 12.14): the lowest invalid way, then the lowest marked one, then the draw. -/
def l2Victim (l : L2) (set : Nat) (ways : List Nat) : Option Nat :=
  match ways.find? (fun w => (smGet? l.lines (set * 16 + w)).isNone) with
  | some w => some w
  | none => match ways.find? (fun w => ((smGet? l.lines (set * 16 + w)).map (·.stream)).getD false) with
    | some w => some w
    | none => if ways.isEmpty then none else ways[l.lfsr.toNat % ways.length]?

/-- Put a line into an L2 that is ON, evicting the victim; nothing where no way qualifies (R311, R312, R320). -/
def l2Insert (s : State) (k : ClusterId) (mask : BitVec 16) (x : L2Line) : State :=
  let l := l2Of s k
  if l.st ≠ .on then s
  else
    let set := l2Set x.line
    match l2Victim l set (fillWays l mask) with
    | none => s
    | some w =>
      let s := match smGet? l.lines (set * 16 + w) with
        | some old => l2Evict s k old.line
        | none => s
      modL2 s k fun l => { l with lines := smSet l.lines (set * 16 + w) x }

/-- How a request treats the streaming mark of a line (Table 12.14): a demand hit clears it, hint 3 sets it, and the other hints leave it. -/
inductive StreamUse where
  | demand
  | keep
  | mark
deriving DecidableEq, Repr

def StreamUse.after (u : StreamUse) (old : Bool) : Bool :=
  match u with
  | .demand => false
  | .keep => old
  | .mark => true

/-- Fill a line for reading into cluster `k` (R311): other copies become S, a sole copy is E. `excl` obtains it in E, as
a write hint, a store or a compare-and-swap does (R314, Table 12.14). The words are returned. -/
def l2Fill (k : ClusterId) (mask : BitVec 16) (line : Nat) (excl : Bool) (use : StreamUse) : DM (List Word) := fun s =>
  let s := l2Check s k line
  match l2Get? s k line with
  | some x =>
    let s := if excl ∧ x.st = .s then l2Put (othersDrop s (some k) line) k line fun y => { y with st := .e } else s
    (x.words, l2Put s k line fun y => { y with stream := use.after y.stream })
  | none =>
    let s := if excl then othersDrop s (some k) line else othersShare s (some k) line
    let shared := !(holders s line).isEmpty
    let (ws, s) := lineRead line s
    (ws, l2Insert s k mask
      { line := line, st := if shared then .s else .e, words := ws, dpres := 0, ipres := 0, stream := use.after false, bad := 0,
        sbad := false })

/-- Whether writes cover a whole line (R311). -/
def coversLine (writes : List WordWrite) : Bool :=
  (List.range 8).all fun i => writes.any fun w => fld w.pa 3 3 == i && coversWord w

/-- Apply one write to DRAM itself, as one read-modify-write of its word (17 R418). -/
def dramApply1 (s : State) (w : WordWrite) : State :=
  if w.tagged then dramWrite s (paOff w.pa) (applyWrite uninit w)
  else dramWrite (dramRead false (paOff w.pa) s).2 (paOff w.pa) (applyWrite (dramRead false (paOff w.pa) s).1 w)

/-- Apply writes to DRAM itself, each as one read-modify-write of its word (17 R418). -/
def dramApply (s : State) (writes : List WordWrite) : State := writes.foldl dramApply1 s

/-- What a line held dirty after writes to it is. -/
def newDirty (line : Nat) (ws : List Word) : L2Line :=
  { line := line, st := .m, words := ws, dpres := 0, ipres := 0, stream := false, bad := 0, sbad := false }

/-- A line with writes to it enters an L2; where no way may take it, DRAM takes the writes. -/
def l2Allocate (k : ClusterId) (mask : BitVec 16) (line : Nat) (writes : List WordWrite) (ws : List Word) (s : State) : State :=
  if (l2Get? (l2Insert s k mask (newDirty line (applyLine ws writes))) k line).isSome then
    l2Insert s k mask (newDirty line (applyLine ws writes))
  else dramApply s writes

/-- Coherent writes to a line that the cluster's L2 does not hold: it is fetched, but for writes that cover it whole (R311). -/
def l2StoreMiss (s : State) (k : ClusterId) (mask : BitVec 16) (line : Nat) (writes : List WordWrite) : State :=
  if coversLine writes then l2Allocate k mask line writes (List.replicate 8 uninit) s
  else l2Allocate k mask line writes (lineRead line s).1 (lineRead line s).2

/-- Coherent writes to a line of which no other cluster holds a copy (R311, R314, R320). -/
def l2StoreLine (s : State) (k : ClusterId) (mask : BitVec 16) (line : Nat) (writes : List WordWrite) : Option L2Line → L2State → State
  | some x, .draining =>
    l2Put (lineToDram s line (applyLine x.words writes)) k line fun y => { y with words := applyLine x.words writes, st := .e }
  | some x, _ => l2Put s k line fun y => { y with words := applyLine x.words writes, st := .m, stream := false }
  | none, .on => l2StoreMiss s k mask line writes
  | none, _ => dramApply s writes

/-- The writes to a line once the other clusters have given it up; the copy that is held is read, and checked, first. -/
def l2StoreAlone (s : State) (k : ClusterId) (mask : BitVec 16) (line : Nat) (writes : List WordWrite) : State :=
  let s := l2Check s k line
  l2StoreLine s k mask line writes (l2Get? s k line) (l2Of s k).st

/-- Coherent writes to one line of cached DRAM from cluster `k`, by one of its cores or by another unit (R309, R311, R314, R320). -/
def l2StoreBy (own : Option CoreId) (s : State) (k : ClusterId) (mask : BitVec 16) (writes : List WordWrite) : State :=
  match writes with
  | [] => s
  | w :: _ => l1dSync (l2StoreAlone (othersDrop s (some k) (lineOf w.pa)) k mask (lineOf w.pa) writes) k own (lineOf w.pa)

/-- The same by a unit that is no core. -/
def l2Store (s : State) (k : ClusterId) (mask : BitVec 16) (writes : List WordWrite) : State := l2StoreBy none s k mask writes

/-- Writes to one line where an L2 holds it, else to DRAM. -/
def storeHeld (s : State) (writes : List WordWrite) : Option ClusterId → State
  | some k => l2Store s k 0 writes
  | none => dramApply s writes

/-- Coherent writes to one line by a unit that allocates in no L2: a copy that is M or E takes them, else DRAM does. -/
def memStore (s : State) (writes : List WordWrite) : State :=
  match writes with
  | [] => s
  | w :: _ => storeHeld s writes (holders s (lineOf w.pa)).head?

/-- A whole-word write. -/
def wholeWrite (pa : BitVec 44) (w : Word) : WordWrite := { pa := pa, mask := 0xFF, w := w, tagged := true }

/-- The L2 way mask of a compartment in a cluster (16 R381). -/
def compWays (s : State) (k : ClusterId) (comp : BitVec 4) : BitVec 16 := smGet 0 (l2Of s k).ways comp.toNat

/-- The slice class of a core's space (16 R389). -/
def sliceClass (s : State) (comp : BitVec 4) (sid : BitVec 12) : Nat :=
  let w := smGet 0 (getComp s (compId comp)).slcMap (sid.toNat / 16)
  fld w (4 * (sid.toNat % 16)) 3

/-- The way mask of a core's fills: the ways of its slice class that its compartment holds (R312, 16 R389). -/
def coreWays (s : State) (c : CoreId) : BitVec 16 :=
  let k := getCore s c
  let cls := (getComp s (compId k.compart)).slcClass.get (Fin.ofNat 8 (sliceClass s k.compart (k.mmu.space.setWidth 12)))
  cls.setWidth 16 &&& compWays s (clusterOf c) k.compart

/-! ## Fills of a core's L1 (R309, R311, R313) -/

/-- Set the presence bit of a core's L1D or L1I copy in its L2's directory (R313). -/
def setPresence (s : State) (c : CoreId) (line : Nat) (fetch : Bool) : State :=
  l2Put s (clusterOf c) line fun x =>
    if fetch then { x with ipres := bvSet x.ipres (c.val % 8) true } else { x with dpres := bvSet x.dpres (c.val % 8) true }

/-- The words of a line with the core's queued stores to it: they have written its L1D copy already (10 R273). -/
def withQueue (k : Core) (line : Nat) (ws : List Word) : List Word :=
  applyLine ws (((k.sq.filter (·.mt == .cached)).flatMap (·.writes)).filter fun w => lineOf w.pa == line)

/-- A line of cached local DRAM as core `c` reads it, filled into its L2 and, with `l1`, into its L1D or L1I where the L2
then holds it and is not draining (R311, R313, R320). -/
def coreFill (c : CoreId) (line : Nat) (fetch l1 : Bool) : DM (List Word) := fun s =>
  let (ws, s) := l2Fill (clusterOf c) (coreWays s c) line false .demand s
  if l1 ∧ (l2Get? s (clusterOf c) line).isSome ∧ (l2Of s (clusterOf c)).st = .on then
    let s := setPresence s c line fetch
    (ws, modL1 s c fun l =>
      if fetch then iFill l (newILine line ws) else dFill l (newILine line (withQueue (getCore s c) line ws)))
  else (ws, s)

/-- A line in L1D or the victim buffer as a load reads it; a copy with bad parity is invalidated (Table 12.4), and a hit in the buffer
moves the line back (R310). -/
def dRead (c : CoreId) (line : Nat) : DM (Option ILine) := fun s =>
  let l := (getCore s c).l1
  let drop (s : State) : State :=
    logParity (modL1 s c (dDrop · line)) (clusterOf c) (getCore s c).compart (BitVec.ofNat 64 (line * 64))
  match dGet? l line, vGet? l line with
  | some x, _ => if x.isBad then (none, drop s) else (some x, s)
  | none, some x => if x.isBad then (none, drop s) else (some x, modL1 s c fun l => dFill l x)
  | none, none => (none, s)

/-! ## Carafe (R327, R329) -/

/-- The Carafe way an offset lies in, 0 to 7. -/
def carafeWay (o : Nat) : Nat := (o / 2 ^ 18) % 8

def carafeOwner (l : L2) (w : Nat) : BitVec 4 := BitVec.ofNat 4 (fld l.cown (4 * w) 4)

/-- Whether a compartment may reach an offset of a Carafe window: the way is Carafe, not going back to cache, and the
compartment's; the Lockkeeper reaches every Carafe way (R327, R328). -/
def carafeOk (s : State) (k : ClusterId) (comp : BitVec 4) (o : Nat) : Bool :=
  let l := l2Of s k
  let leaving := l.busy && l.carafeN < l.cur && carafeWay o + 1 == l.cur.toNat
  decide (carafeWay o < l.cur.toNat) && (comp == 0 || (carafeOwner l (carafeWay o) == comp && !leaving))

/-- A word of Carafe. -/
def carafeRead (s : State) (k : ClusterId) (o : Nat) : Word := smGet uninit (l2Of s k).carafe (o / 8)

/-- A whole word written to Carafe, with its parity. -/
def carafeWrite (s : State) (k : ClusterId) (o : Nat) (w : Word) : State :=
  modL2 s k fun l => { l with carafe := smPut uninit l.carafe (o / 8) w, cbad := smDel l.cbad (o / 8) }

/-- The device address of a Carafe offset. -/
def carafePa (s : State) (k : ClusterId) (o : Nat) : BitVec 44 := localPa s (0xF800000000 + k.val * 0x200000 + o)

/-- The read of a Carafe word checks its parity: an error is a dirty-line error of its Carafe line, which becomes `POISON` in place
(Table 12.4, R317). -/
def carafeCheck (s : State) (k : ClusterId) (o : Nat) : State :=
  if smGet 0 (l2Of s k).cbad (o / 8) = 0 then s
  else
    let line := lineOf (carafePa s k o)
    let base := o / 64 * 64
    let own := carafeOwner (l2Of s k) (carafeWay o)
    let s := (List.range 8).foldl (fun s i => carafeWrite s k (base + 8 * i) ((lostWords line).getD i uninit)) s
    loseLine s k line own true false

/-- A Carafe word as an access reads it. -/
def carafeLoad (k : ClusterId) (o : Nat) : DM Word := fun s =>
  let s := carafeCheck s k o
  (carafeRead s k o, s)

/-- A write to a Carafe word: one that does not cover the word reads it first. -/
def carafeStore (s : State) (k : ClusterId) (o : Nat) (w : WordWrite) : State :=
  let s := if coversWord w && w.tagged then s else carafeCheck s k o
  carafeWrite s k o (applyWrite (carafeRead s k o) w)

end Sys2Proof.Machine
end

