-- ==== Sys2Proof/Machine/Translate.lean ====
section
/-! DEFINITION. Address translation (11): walks of the page tables, the TLBs, the translation of an access with its page
faults and traps, and the translations of barriers. -/

namespace Sys2Proof.Machine

/-- The kinds of access (R294), in the order of `KIND` (Table 11.5). -/
inductive AKind where
  | fetch
  | load
  | store
  | rmw
deriving DecidableEq, Repr

def AKind.code : AKind → Nat
  | .fetch => 0
  | .load => 1
  | .store => 2
  | .rmw => 3

/-- The page fault vector of an access kind (R294). -/
def AKind.vector : AKind → Byte
  | .fetch => 0x06
  | .load => 0x07
  | .store => 0x08
  | .rmw => 0x08

/-! ## Page table entries (Table 11.3) -/

def pteV (w : W64) : Bool := bit w 0
def pteR (w : W64) : Bool := bit w 1
def pteW (w : W64) : Bool := bit w 2
def pteX (w : W64) : Bool := bit w 3
def pteU (w : W64) : Bool := bit w 4
def pteG (w : W64) : Bool := bit w 5
def pteA (w : W64) : Bool := bit w 6
def pteD (w : W64) : Bool := bit w 7
def pteMt (w : W64) : MemType :=
  match fld w 8 2 with
  | 0 => .cached
  | 1 => .uncached
  | 2 => .device
  | _ => .carafe
def ptePfn (w : W64) : BitVec 44 := BitVec.ofNat 44 (fld w 12 32 * 4096)
def pteRattr (w : W64) : Byte := BitVec.ofNat 8 (fld w 44 8)

/-- Whether an entry with V = 1 is a pointer to the next table (R292). -/
def ptePointer (w : W64) : Bool := !pteR w && !pteW w && !pteX w

/-- The reserved bits and combinations of an entry with V = 1 (R292). -/
def pteBitsOk (w : W64) : Bool :=
  fld w 60 4 == 0 && !(pteW w && !pteR w) && (!ptePointer w || (fld w 4 8 == 0 && fld w 44 16 == 0))

/-- Whether a memory type may lie on a physical address (Table 11.4, R293). -/
def typeOk (s : State) (mt : MemType) (pa : BitVec 44) : Bool :=
  match classify s pa with
  | .dram _ => mt == .cached || mt == .uncached
  | .mmio _ => mt == .device
  | .carafe _ _ => mt == .carafe
  | .unassigned => false
  | .remote _ => (mt == .cached || mt == .uncached) && decide (paOff pa < 0x8000000000)

/-- Whether a leaf's page frame is aligned for its level (Table 11.3). -/
def pfnAligned (w : W64) (level : Nat) : Bool := fld w 12 (9 * level) == 0

/-! ## Walks (R291 to R294) -/

/-- Why a walk yields no leaf: an entry with V = 0, or a walk fault (Table 11.7). -/
inductive WalkErr where
  | invalid (level : Nat) (flags : Byte)
  | fault (sub : Byte) (pa : BitVec 44) (level : Nat) (tag : Byte)
deriving DecidableEq, Repr

/-- A reader of table words: none on a bus error. -/
abbrev TableReader := BitVec 44 → DM (Option Word)

/-- The index of a level (Table 11.2). -/
def walkIndex (va : W64) (level : Nat) : Nat := fld va (12 + 9 * level) 9

/-- The walk of R294 from the table at `p` at a level; the leaf with its level. -/
def walk (rd : TableReader) (va : W64) : Nat → BitVec 44 → DM (Except WalkErr (Nat × W64))
  | level, p => fun s =>
    match classify s p with
    | .dram _ =>
      let a := p + BitVec.ofNat 44 (8 * walkIndex va level)
      let (ow, s) := rd a s
      match ow with
      | none => (.error (.fault 0x07 a level 0), s)
      | some w =>
        if w.tag = 0x08 then (.error (.fault 0x03 a level w.tag), s)
        else if w.tag ≠ 0x06 then (.error (.fault 0x02 a level w.tag), s)
        else if !pteV w.payload then (.error (.invalid level (w.payload.setWidth 8)), s)
        else if !pteBitsOk w.payload then (.error (.fault 0x04 a level 0), s)
        else if ptePointer w.payload then
          match level with
          | 0 => (.error (.fault 0x08 a 0 0), s)
          | n + 1 => walk rd va n (ptePfn w.payload) s
        else if level = 3 ∨ !pfnAligned w.payload level then (.error (.fault 0x05 a level 0), s)
        else if !typeOk s (pteMt w.payload) (ptePfn w.payload) then (.error (.fault 0x06 a level 0), s)
        else (.ok (level, w.payload), s)
    | _ => (.error (.fault 0x01 p level 0), s)

/-! ## TLBs (R300, R302) -/

/-- Whether an entry matches an access. -/
def tlbMatch (e : TlbEntry) (comp : BitVec 4) (sid : BitVec 12) (va : W64) : Bool :=
  e.comp == comp && (pteG e.pte || e.sid == sid) && e.vpn.toNat >>> (9 * e.level.val) == fld va 12 36 >>> (9 * e.level.val)

/-- The entries of a TLB that match and read with good parity; of several, any one is used (R302). -/
def tlbFind (m : SMap TlbEntry) (comp : BitVec 4) (sid : BitVec 12) (va : W64) : DM (Option TlbEntry) := fun s =>
  match m.filter (fun e => tlbMatch e.2 comp sid va && !e.2.bad) with
  | [] => (none, s)
  | [e] => (some e.2, s)
  | es =>
    let (n, s) := fresh s
    ((es[Config.tlbChoice n % es.length]?).map (·.2), s)

/-- Put an entry into a TLB of `n` entries: the lowest free number, else a draw (R300). -/
def tlbPut (n : Nat) (m : SMap TlbEntry) (lfsr : BitVec 16) (e : TlbEntry) : SMap TlbEntry × BitVec 16 :=
  match (List.range n).find? fun i => (smGet? m i).isNone with
  | some i => (smSet m i e, lfsr)
  | none => (smSet m (lfsr.toNat % n) e, lfsrNext lfsr)

/-- Fill the first-level TLB of an access. -/
def tlbPutFirst (t : Tlbs) (fetch : Bool) (e : TlbEntry) : Tlbs :=
  if fetch then let (m, v) := tlbPut 48 t.itlb t.lfsr e; { t with itlb := m, lfsr := v }
  else let (m, v) := tlbPut 64 t.dtlb t.lfsr e; { t with dtlb := m, lfsr := v }

def tlbPutSecond (t : Tlbs) (e : TlbEntry) : Tlbs :=
  let (m, v) := tlbPut 256 t.stlb t.lfsr e; { t with stlb := m, lfsr := v }

/-- Remove the entries that satisfy a test from all three TLBs. -/
def tlbDrop (t : Tlbs) (p : TlbEntry → Bool) : Tlbs :=
  { t with itlb := t.itlb.filter (fun e => !p e.2), dtlb := t.dtlb.filter (fun e => !p e.2),
           stlb := t.stlb.filter (fun e => !p e.2) }

/-- What the selectors of `INVTLB` and `INVTLB.B` match (R304), for a compartment and the issuer's space. -/
def invMatch (sel : BitVec 2) (comp : BitVec 4) (space : BitVec 12) (v : W64) (e : TlbEntry) : Bool :=
  e.comp == comp && match sel.toNat with
  | 0 => tlbMatch e comp space (va48 v)
  | 1 => !pteG e.pte && e.sid == v.setWidth 12
  | 2 => !pteG e.pte
  | _ => true

/-! ## A core's lookups -/

/-- A table word as a core's walk reads it: a cached read at system privilege, fenced (R301, Table 11.7). -/
def coreTableRead (c : CoreId) : TableReader := fun pa s =>
  let k := getCore s c
  if installed s (paOff pa) && fenceOk s k.compart (paOff pa) then
    let (hit, s) := if stDET k then (none, s) else dRead c (lineOf pa) s
    match hit with
    | some x => (some (x.words.getD (fld pa 3 3) uninit), s)
    | none =>
      let (ws, s) := coreFill c (lineOf pa) false (!stDET k) s
      (some (ws.getD (fld pa 3 3) uninit), s)
  else (none, s)

/-- The space and the table a core uses for an access (03 R68). -/
def coreSpace (k : Core) (fetch : Bool) : BitVec 12 := if fetch then k.mmu.fetchSpace.setWidth 12 else k.mmu.space.setWidth 12

def coreTable (k : Core) (fetch : Bool) : W64 := if fetch then k.mmu.fetchPtbase else k.mmu.ptbase

/-- An entry that an access translated before an `INVTLB.B` arrived may go on with (R305, R306). -/
def heldEntry (k : Core) (fetch : Bool) (va : W64) : Option TlbEntry :=
  k.replay.tlb.bind fun t =>
    (((if fetch then t.itlb else t.dtlb) ++ t.stlb).map (·.2)).find? fun e =>
      tlbMatch e k.compart (coreSpace k fetch) va && !e.bad

/-- TLB entries that a lookup reads with bad parity are invalidated and logged (18 Table 18.1 class 0x03); the access walks again. -/
def tlbParity (c : CoreId) (fetch : Bool) (va : W64) : State → State := fun s =>
  let k := getCore s c
  let hit (e : TlbEntry) : Bool := e.bad && tlbMatch e k.compart (coreSpace k fetch) va
  if ((if fetch then k.tlb.itlb else k.tlb.dtlb) ++ k.tlb.stlb).any fun e => hit e.2 then
    logParity (modCore s c fun k => { k with tlb := tlbDrop k.tlb hit }) (clusterOf c) k.compart 0
  else s

/-- Look an address up in a core's TLBs, or walk and fill (R294, R300); the entry and whether a TLB held it. -/
def coreLookup (c : CoreId) (fetch : Bool) (va : W64) : DM (Except WalkErr (TlbEntry × Bool)) := fun s =>
  match heldEntry (getCore s c) fetch va with
  | some e => (.ok (e, true), s)
  | none =>
    let s := tlbParity c fetch va s
    let k := getCore s c
    let sid := coreSpace k fetch
    let first := if fetch then k.tlb.itlb else k.tlb.dtlb
    match tlbFind first k.compart sid va s with
    | (some e, s) => (.ok (e, true), s)
    | (none, s) => match tlbFind k.tlb.stlb k.compart sid va s with
      | (some e, s) => (.ok (e, true), modCore s c fun k => { k with tlb := tlbPutFirst k.tlb fetch e })
      | (none, s) => match walk (coreTableRead c) va 3 (ptePfn (coreTable k fetch)) s with
        | (.error x, s) => (.error x, s)
        | (.ok (level, pte), s) =>
          let e : TlbEntry := { comp := k.compart, sid := sid, vpn := BitVec.ofNat 36 (fld va 12 36),
                                level := Fin.ofNat 3 level, pte := pte, bad := false }
          (.ok (e, false), modCore s c fun k => { k with tlb := tlbPutFirst (tlbPutSecond k.tlb e) fetch e })

/-- The physical address of an address under an entry. -/
def entryPa (e : TlbEntry) (va : W64) : BitVec 44 :=
  ptePfn e.pte + BitVec.ofNat 44 (fld va 0 (12 + 9 * e.level.val))

/-- A translated address: physical address, memory type, region attribute field, and the level of the leaf (0 untranslated). -/
structure Xlat where
  pa : BitVec 44
  mt : MemType
  rattr : Byte
  level : Nat
deriving DecidableEq, Repr

/-- The memory type of an untranslated address (R290); none in an unassigned range. -/
def untranslatedType (s : State) (pa : BitVec 44) : Option MemType :=
  match classify s pa with
  | .dram _ => some .cached
  | .mmio _ => some .device
  | .carafe _ _ => some .carafe
  | .unassigned => none
  | .remote _ => if paOff pa < 0x8000000000 then some .uncached else none

/-- Bus error on a data access or a fetch (R289, 09 Table 9.4). -/
def busError {α : Type} (c : CoreId) (kind : AKind) (va : W64) : CM α :=
  raise c 0x05 (if kind = .fetch then 0x03 else 0x01) va 0

/-- A page fault (R295). -/
def pageFault {α : Type} (c : CoreId) (kind : AKind) (sub : Byte) (va : W64) (level : Nat) (tlb : Bool) (flags : Byte) :
    CM α :=
  raise c kind.vector sub va (BitVec.ofNat 64 (kind.code + 4 * level + 16 * tlb.toNat + 256 * flags.toNat))

/-- A walk fault (R298). -/
def walkFault {α : Type} (c : CoreId) (va : W64) (sub : Byte) (pa : BitVec 44) (level : Nat) (tag : Byte) : CM α :=
  raise c 0x14 sub va (BitVec.ofNat 64 (pa.toNat + level * 2 ^ 48 + tag.toNat * 2 ^ 56))

/-- Run a lookup, raising what it finds (R294, R298). -/
def lookupOrRaise (c : CoreId) (kind : AKind) (va : W64) : CM (TlbEntry × Bool) := do
  match ← liftD (coreLookup c (kind == .fetch) va) with
  | .ok r => return r
  | .error (.invalid level flags) => pageFault c kind 0x01 va level false flags
  | .error (.fault sub pa level tag) => walkFault c va sub pa level tag

/-- The translation of R294 at a given privilege, with the memory types that a fetch may not use (R293). -/
def translate (c : CoreId) (va : W64) (kind : AKind) (user : Bool) : CM Xlat := do
  let k ← cget c
  let va := va48 va
  if !bit (coreTable k (kind == .fetch)) 0 then
    if user then pageFault c kind 0x06 va 0 false 0
    if fld va 44 4 ≠ 0 then pageFault c kind 0x05 va 0 false 0
    let pa : BitVec 44 := va.setWidth 44
    match untranslatedType (← sget) pa with
    | none => busError c kind va
    | some mt =>
      if kind == .fetch && (mt == .device || paDev pa != (← sget).devid) then busError c kind va
      return { pa := pa, mt := mt, rattr := 0, level := 0 }
  else
    if user && bit va 47 then pageFault c kind 0x04 va 0 false 0
    let (e, tlb) ← lookupOrRaise c kind va
    let fault {α : Type} (sub : Byte) : CM α := pageFault c kind sub va e.level.val tlb (e.pte.setWidth 8)
    if user && !pteU e.pte then fault 0x03
    let rd := kind == .load || kind == .rmw
    let wr := kind == .store || kind == .rmw
    if (kind == .fetch && !pteX e.pte) || (rd && !pteR e.pte) || (wr && !pteW e.pte) then fault 0x02
    let trap {α : Type} (vec : Byte) : CM α := do
      cmod c fun k => { k with tlb := tlbDrop k.tlb fun e => tlbMatch e k.compart (coreSpace k (kind == .fetch)) va }
      raise c vec 0 va (BitVec.ofNat 64 (kind.code + 4 * e.level.val + 16 * tlb.toNat + 256 * fld e.pte 0 8))
    if !pteA e.pte then trap 0x09
    if wr && !pteD e.pte then trap 0x0A
    let pa := entryPa e va
    let mt := pteMt e.pte
    if kind == .fetch && (mt == .device || paDev pa != (← sget).devid) then busError c kind va
    return { pa := pa, mt := mt, rattr := pteRattr e.pte, level := e.level.val }

/-- The translation of a barrier target, or of an access without its checks (R296): none where there is no valid one.
With `PTBASE.V` = 0 the address is its own translation under a zero field (R290). -/
def barrierXlat (c : CoreId) (va : W64) : DM (Option (Xlat × W64)) := fun s =>
  let k := getCore s c
  let va := va48 va
  if !bit k.mmu.ptbase 0 then
    if fld va 44 4 ≠ 0 then (none, s)
    else
      let pa : BitVec 44 := va.setWidth 44
      match untranslatedType s pa with
      | some mt => (some ({ pa := pa, mt := mt, rattr := 0, level := 0 }, 0xFF), s)
      | none => (none, s)
  else match coreLookup c false va s with
    | (.ok (e, _), s) => (some ({ pa := entryPa e va, mt := pteMt e.pte, rattr := pteRattr e.pte, level := e.level.val }, e.pte), s)
    | (.error _, s) => (none, s)

/-- A translation for `PREF` (R108, R299): none where it would fault, or where the leaf's D is clear. The caller keeps the state that it
had: a `PREF` leaves the TLBs as it finds them. -/
def probeXlat (c : CoreId) (va : W64) (user : Bool) : DM (Option Xlat) := fun s =>
  match (translate c va .load user).run s with
  | .ok x t =>
    if !bit (getCore t c).mmu.ptbase 0 then (some x, t)
    else match coreLookup c false (va48 va) t with
      | (.ok (e, _), u) => (if pteD e.pte then some x else none, u)
      | (.error _, _) => (none, s)
  | .error _ _ => (none, s)

/-- `GEN`, `STATE`, `SNAP` and `NOBAR` of a region attribute field (06 Table 6.1). -/
def raGen (r : Byte) : Nat := fld r 0 3
def raState (r : Byte) : Nat := fld r 3 3
def raSnap (r : Byte) : Bool := bit r 6
def raNobar (r : Byte) : Bool := bit r 7

/-- Whether the region of an address with field `ra` is pending: snapshot-pending, or `SNAP` with a snapshot of the compartment that has
stopped and has not yet copied the region (06 R172). -/
def regionPending (s : State) (comp : BitVec 4) (ra : Byte) (pa : BitVec 44) : Bool :=
  raState ra == 5 || (raSnap ra && match (getComp s (compId comp)).snap with
    | some x => x.due && !x.copied.contains (physRegion pa)
    | none => false)

end Sys2Proof.Machine
end

