-- ==== Sys2Proof/Machine/Xitex.lean ====
section
/-! DEFINITION. The requesting side of Xitex (17): topologies and routes (R405), sending a flit (R408), credits and
outstanding requests (R410, R411). -/

namespace Sys2Proof.Machine

/-- The ports that carry traffic: trained and not down. -/
def upPorts (s : State) : List PortId := (List.finRange 8).filter fun x => (getPort s x).trained && !(getPort s x).down

/-- The peer of a port: the one that `WEIR_CONFIG` names (R405), else the one that training found. -/
def peerOf (s : State) (x : PortId) : BitVec 4 := (s.weir.peers.get x).getD (getPort s x).peer

/-- The devices of the board that this one knows of: those that calibration has found, the peers, and itself. -/
def knownDevs (s : State) : BitVec 16 :=
  (List.finRange 8).foldl (fun m x => match s.weir.peers.get x with
    | some d => bvSet m d.toNat true
    | none => m) (bvSet s.weir.board s.devid.toNat true)

/-- The number of devices of a ring: they are numbered from 0 without a gap (Table 17.1), the failed ones among them. -/
def boardSize (s : State) : Nat := (bitsSet (knownDevs s)).foldl max 0 + 1

/-- Whether the trained ports form a hypercube about this device (Table 17.1). -/
def isHypercube (s : State) : Bool :=
  (List.finRange 8).all fun x => !(getPort s x).trained || peerOf s x == s.devid ^^^ (1#4 <<< (x.val / 2))

/-- Whether every trained port joins the same device (Table 17.1). -/
def isPair (s : State) (d : BitVec 4) : Bool :=
  (List.finRange 8).all fun x => !(getPort s x).trained || peerOf s x == d

/-- The edges towards a device in order of preference, as ports, with the hops along each (R405). -/
def edgesTo (s : State) (d : BitVec 4) : List (List PortId × Nat) :=
  let up := upPorts s
  if isHypercube s then
    let diff := s.devid ^^^ d
    match (bitsSet diff).head? with
    | some j => [(up.filter (fun x => x.val / 2 == j), popcount diff)]
    | none => []
  else if isPair s d then [(up, 1)]
  else
    let n := boardSize s
    let fwd := (d.toNat + n - s.devid.toNat % n) % n
    let next := (up.filter (fun x => decide (x.val < 4)), fwd)
    let prev := (up.filter (fun x => decide (4 ≤ x.val)), n - fwd)
    if fwd ≤ n - fwd then [next, prev] else [prev, next]

/-- The port of an edge for a physical address: the one with rank PA[11:9] among them (R405). -/
def edgePort (ps : List PortId) (pa : BitVec 44) : Option PortId := ps[fld pa 9 3 % ps.length]?

/-- The port of the first hop towards a device for a physical address, with the hops (R405); none without a route. -/
def firstHop (s : State) (d : BitVec 4) (pa : BitVec 44) : Option (PortId × Nat) :=
  match (edgesTo s d).find? (fun e => !e.1.isEmpty) with
  | some (ps, hops) => (edgePort ps pa).map fun x => (x, hops)
  | none => none

/-- Whether the board is a ring: neither of the other topologies (Table 17.1). -/
def isRing (s : State) (d : BitVec 4) : Bool := !isHypercube s && !isPair s d

/-- The hops from here to a device over a port (R405). -/
def hopsVia (s : State) (x : PortId) (d : BitVec 4) : Nat :=
  if isHypercube s then popcount (s.devid ^^^ d)
  else if isPair s d then 1
  else
    let n := boardSize s
    let fwd := (d.toNat + n - s.devid.toNat % n) % n
    if x.val < 4 then fwd else n - fwd

/-- The port by which a relay passes a request or a message on (R405): round a ring in the direction that it came in, else by the next hop.
A direction without a port leaves the other (R409). -/
def onward (s : State) (x : PortId) (f : Flit) : Option (PortId × Nat) :=
  let straight := if isRing s f.dst then
      edgePort ((upPorts s).filter fun y => decide (y.val < 4) != decide (x.val < 4)) f.pa else none
  match straight with
  | some y => some (y, f.hops.toNat - 1)
  | none => (firstHop s f.dst f.pa).map fun r => (r.1, if isRing s f.dst then r.2 else f.hops.toNat - 1)

/-- Whether a port may send a flit now: standby, waking and retraining hold traffic (R405, R409, 01 R25), and the replay
buffer holds 2,048 flits (R408). -/
def canSend (p : Port) : Bool :=
  p.trained && !p.down && !p.standby && !p.waking && !p.retrain && !p.training && decide (p.sent.length < 2048)

/-- A flit goes out with the next `SEQ` and what the port has to say in its trailer, or is held behind those that wait (R408). -/
def emit (p : Port) (f : Flit) : Port :=
  if canSend p && p.queued.isEmpty then
    { p with sent := p.sent ++ [{ f with seq := p.txSeq, ack := p.rxSeq - 1, nak := p.nak }], txSeq := p.txSeq + 1, nak := false }
  else { p with queued := p.queued ++ [f] }

/-- Send a flit on a port, or hold it there. -/
def sendFlit (s : State) (x : PortId) (f : Flit) : State := modPort s x fun p => emit p f

/-- Send what a port holds, in order, as far as it may send. -/
def flushPort (p : Port) : Port := p.queued.foldl emit { p with queued := [] }

def flushQueue (s : State) (x : PortId) : State := modPort s x flushPort

/-- A flit with every field zero but those of a message that this device originates (Table 17.2). -/
def newFlit (s : State) (typ : BitVec 4) (dst : BitVec 4) (comp : BitVec 4) (hops : Nat) : Flit :=
  { typ := typ, dst := dst, src := s.devid, compart := comp, tid := 0, hops := BitVec.ofNat 4 hops, bytemask := 0,
    wmask := 0, nline := 0, bodytag := false, status := 0, cls := false, rsv := 0, pa := 0, paRsv := 0, body := [],
    seq := 0, ack := 0, nak := false, trRsv := 0 }

/-- The credits a compartment holds on a port (16 R381). -/
def creditsHeld (s : State) (comp : BitVec 4) (x : PortId) : Nat :=
  ((getComp s (compId comp)).res.lcred.getD x.val 0).toNat

/-- Whether a request of a user is outstanding on a port. -/
def hasRequest (s : State) (u : RemoteUser) (x : PortId) : Bool :=
  s.xitex.outstanding.any fun r => r.2.user == u && r.2.port == x

/-- The cores that hold a credit of a compartment on a port for the remaining words of an instruction of which a word may be written
already (R412), with no request outstanding there. -/
def reservedOn (s : State) (comp : BitVec 4) (x : PortId) : List CoreId :=
  allCores.filter fun c =>
    (getCore s c).replay.ports.contains x && (getCore s c).compart == comp && !hasRequest s (.core c) x

/-- The credits of a compartment in use on a port (R411). -/
def creditsUsed (s : State) (comp : BitVec 4) (x : PortId) : Nat :=
  (s.xitex.outstanding.filter fun r => r.2.comp == comp && r.2.port == x).length + (reservedOn s comp x).length

/-- Whether a user holds a credit for its next request on a port already. -/
def holdsCredit (s : State) (u : RemoteUser) (x : PortId) : Bool :=
  match u with
  | .core c => (getCore s c).replay.ports.contains x && !hasRequest s u x
  | _ => false

/-- The first free transaction identifier from `nextTid` on (Table 17.2). -/
def freeTid (s : State) : BitVec 12 :=
  s.xitex.nextTid + BitVec.ofNat 12
    (((List.range 4096).find? fun i => (smGet? s.xitex.outstanding ((s.xitex.nextTid.toNat + i) % 4096)).isNone).getD 0)

/-- What comes of issuing a remote request: refused with a bus error, waiting for a credit, or sent under a TID. -/
inductive RemoteIssue where
  | busError
  | noCredit
  | sent (tid : BitVec 12)
deriving DecidableEq, Repr

/-- A remote request as its issuer describes it. -/
structure RemoteReq where
  user : RemoteUser
  comp : BitVec 4
  typ : BitVec 4
  pa : BitVec 44
  bytemask : Byte
  wmask : Byte
  nline : BitVec 3
  bodytag : Bool
  cls : Bool
  body : List Word

/-- Issue a remote request (R410, R411). A compartment without credits on the port is refused; the Lockkeeper needs none. -/
def issueRemote (r : RemoteReq) : DM RemoteIssue := fun s =>
  match firstHop s (paDev r.pa) r.pa with
  | none => (.busError, s)
  | some (x, hops) =>
    if r.comp ≠ 0 ∧ creditsHeld s r.comp x = 0 then (.busError, s)
    else if r.comp ≠ 0 ∧ !holdsCredit s r.user x ∧ creditsHeld s r.comp x ≤ creditsUsed s r.comp x then (.noCredit, s)
    else
      let tid := freeTid s
      let f := { newFlit s r.typ (paDev r.pa) r.comp hops with
        tid := tid, bytemask := r.bytemask, wmask := r.wmask, nline := r.nline, bodytag := r.bodytag, cls := r.cls,
        pa := r.pa, body := r.body }
      let o : Remote := { user := r.user, comp := r.comp, pa := r.pa, port := x, typ := r.typ, issued := s.now }
      let s := { s with xitex := { s.xitex with
        outstanding := smSet s.xitex.outstanding tid.toNat o, nextTid := tid + 1 } }
      (.sent tid, sendFlit s x f)

end Sys2Proof.Machine
end

