-- ==== Sys2Proof/Machine/Weir.lean ====
section
/-! DEFINITION. The groups of the Weir (08 R219 to R228, R234): entries, members, joining, and how an operation completes. -/

namespace Sys2Proof.Machine

/-! ## The group table (R219) -/

/-- An entry that is not in use. -/
def GroupEntry.none : GroupEntry :=
  { valid := false, compart := 0, user := false, devmask := 0, engmask := 0, cores := 0, d := 0, failed := false }

def groupOf (s : State) (g : GroupId) : GroupEntry := smGet GroupEntry.none s.weir.groups g.val

/-- The words of an entry (Table 8.5). -/
def groupWord (e : GroupEntry) (i : Nat) : W64 :=
  match i with
  | 0 => BitVec.ofNat 64 (e.valid.toNat + 2 * e.compart.toNat + 32 * e.user.toNat + 2 ^ 8 * e.devmask.toNat
           + 2 ^ 24 * e.engmask.toNat)
  | 1 => BitVec.ofNat 64 (fld e.cores 0 64)
  | 2 => BitVec.ofNat 64 (fld e.cores 64 64)
  | _ => BitVec.ofNat 64 (e.d.toNat + 16 * e.failed.toNat)

/-! ## Members (R221) -/

def Member.none : Member := { st := .idle, kind := Option.none, senders := 0, contrib := fixZero, latch := fixZero }

def coreKey (c : CoreId) : Nat := c.val
def engineKey (k : ClusterId) : Nat := 128 + k.val
def deviceKey (d : BitVec 4) : Nat := 144 + d.toNat

def memberOf (s : State) (g : GroupId) (key : Nat) : Member := smGet Member.none s.weir.members (g.val * 256 + key)

def setMember (s : State) (g : GroupId) (key : Nat) (m : Member) : State :=
  { s with weir := { s.weir with members := smPut Member.none s.weir.members (g.val * 256 + key) m } }

/-- Change a member's state alone. -/
def setMemberSt (s : State) (g : GroupId) (key : Nat) (st : MemberState) : State :=
  setMember s g key { memberOf s g key with st := st }

/-- The members of a group on this device: its cores and engines. -/
def ownKeys (e : GroupEntry) : List Nat := bitsSet e.cores ++ (bitsSet e.engmask).map (128 + ·)

/-- The other member devices. -/
def otherDevs (s : State) (e : GroupEntry) : List (BitVec 4) :=
  ((bitsSet e.devmask).map (BitVec.ofNat 4)).filter (· != s.devid)

/-! ## Combining contributions (R222, R226, R227) -/

/-- Table 8.7. -/
def reduce (f : Fin 5) (a b : W64) : W64 :=
  match f with
  | 0 => a + b
  | 1 => if a.toInt ≤ b.toInt then a else b
  | 2 => if b.toInt ≤ a.toInt then a else b
  | 3 => a ||| b
  | 4 => a &&& b

/-- The kind that arrivals agree on, if they do. -/
def agreedKind : List GroupArrival → Option GroupKind
  | [] => none
  | a :: r => if r.all (fun b => b.kind == a.kind) then a.kind else none

/-- Arrivals taken together: their kind, their senders, and the word that results. -/
def combine (l : List GroupArrival) : GroupArrival :=
  let k := agreedKind l
  let n := (l.map (·.senders)).foldl (· + ·) 0
  let w : Word := match k with
    | some .broadcast => ((l.find? fun a => a.senders != 0).map (·.word)).getD fixZero
    | some (.reduce f) => match l.map (·.word.payload) with
      | [] => fixZero
      | x :: r => fix (r.foldl (reduce f) x)
    | _ => fixZero
  { kind := k, senders := n, word := w }

/-- An operation completes as a mismatch unless its kinds agree and a broadcast has one sender (R222, R226). -/
def isMismatch (a : GroupArrival) : Bool :=
  match a.kind with
  | none => true
  | some .broadcast => a.senders != 1
  | some _ => false

def arrivalOf (m : Member) : GroupArrival := { kind := m.kind, senders := m.senders, word := m.contrib }

def arrived (s : State) (g : GroupId) (key : Nat) : Bool := (memberOf s g key).st == .arrived

/-! ## Joining (R221, R234) -/

/-- Send a `MSG` flit to another device. -/
def sendMsg (s : State) (d : BitVec 4) (comp : BitVec 4) (body : List W64) : State :=
  match firstHop s d 0 with
  | some (x, hops) => sendFlit s x { newFlit s 0x9 d comp hops with body := body.map bytesW }
  | none => s

def kindCode : Option GroupKind → Nat
  | none => 0
  | some .barrier => 1
  | some .broadcast => 2
  | some (.reduce f) => 8 + f.val

/-- Once every own member has joined, this device's arrival goes to the other member devices (R234). -/
def announce (s : State) (g : GroupId) : State :=
  let e := groupOf s g
  let own := ownKeys e
  let others := otherDevs s e
  if others.isEmpty || !own.all (arrived s g) || arrived s g (deviceKey s.devid) then s
  else
    let a := combine (own.map fun k => arrivalOf (memberOf s g k))
    let s := setMember s g (deviceKey s.devid)
      { st := .arrived, kind := a.kind, senders := a.senders, contrib := a.word, latch := fixZero }
    let body := Config.msgBody 0 [g.val, kindCode a.kind, a.senders, a.word.tag.toNat, a.word.payload.toNat]
    others.foldl (fun s d => sendMsg s d e.compart body) s

/-- A member of this device joins the operation. -/
def joinGroup (s : State) (g : GroupId) (key : Nat) (a : GroupArrival) : State :=
  announce (setMember s g key
    { memberOf s g key with st := .arrived, kind := a.kind, senders := a.senders, contrib := a.word }) g

/-- Whether an operation has every arrival that it completes with (R222). -/
def groupReady (s : State) (g : GroupId) : Bool :=
  let e := groupOf s g
  e.valid && !e.failed && (ownKeys e).all (arrived s g) && (otherDevs s e).all fun d => arrived s g (deviceKey d)

/-- Every arrival of the operation, this device's members and the other devices. -/
def groupArrivals (s : State) (g : GroupId) : List GroupArrival :=
  let e := groupOf s g
  (ownKeys e ++ (otherDevs s e).map deviceKey).map fun k => arrivalOf (memberOf s g k)

/-- A device's arrival (R234). -/
def deviceArrives (s : State) (g : GroupId) (d : BitVec 4) (a : GroupArrival) : State :=
  setMember s g (deviceKey d)
    { st := .arrived, kind := a.kind, senders := a.senders, contrib := a.word, latch := fixZero }

def earlyKey (g : GroupId) (d : BitVec 4) : Nat := g.val * 16 + d.toNat

/-- A device is idle again, or has arrived at the next operation already. -/
def deviceNext (g : GroupId) (s : State) (d : BitVec 4) : State :=
  match smGet? s.weir.early (earlyKey g d) with
  | some a =>
    deviceArrives { s with weir := { s.weir with early := smDel s.weir.early (earlyKey g d) } } g d a
  | none => setMember s g (deviceKey d) Member.none

/-- The operation completes: every own member is `DONE` with the result, or `MISMATCH`; the devices are idle again. -/
def completeGroup (s : State) (g : GroupId) : State :=
  let e := groupOf s g
  let a := combine (groupArrivals s g)
  let own (s : State) (k : Nat) : State :=
    let m := memberOf s g k
    if isMismatch a then setMember s g k { m with st := .mismatch }
    else setMember s g k { m with st := .done, latch := if a.kind = some .barrier then m.latch else a.word }
  let s := (ownKeys e).foldl own s
  ((bitsSet e.devmask).map (BitVec.ofNat 4)).foldl (deviceNext g) s

end Sys2Proof.Machine
end

