-- ==== Sys2Proof/Machine/ActTable.lean ====
section
/-! DEFINITION. The action table of the device (08 R228 to R232): the entries, who holds them, and installing one. -/

namespace Sys2Proof.Machine

/-- L(D) of R229, in ticks. -/
def leadFor (d : BitVec 4) : Nat := 20 + 130 * d.toNat

def actionAt (s : State) (e : Fin 32) : Option Action := smGet? s.weir.actions e.val

/-- The first free entry from `lo` to 31; entries 0 to 3 are the Lockkeeper's. -/
def freeAction (s : State) (lo hi : Nat) : Option Nat :=
  (List.range 32).find? fun e => lo ≤ e && e ≤ hi && (smGet? s.weir.actions e).isNone

/-- The entries that a compartment's own posts hold on this device (Table 8.8, `ACT_HELD`). -/
def actionsHeld (s : State) (comp : BitVec 4) : List Nat :=
  (s.weir.actions.filter fun a => a.2.comp == comp && !a.2.byLk).map (·.1)

def heldMask (s : State) (comp : BitVec 4) : BitVec 32 := (actionsHeld s comp).foldl (fun m e => bvSet m e true) 0

/-- Install an action in entry `e`, the latest of those posted. -/
def putAction (s : State) (e : Nat) (a : Action) : State :=
  { s with weir := { s.weir with
    actions := smSet s.weir.actions e { a with order := s.weir.nextId }, nextId := s.weir.nextId + 1 } }

def dropAction (s : State) (e : Nat) : State :=
  { s with weir := { s.weir with actions := smDel s.weir.actions e } }

/-- Free every entry that satisfies a test. -/
def dropActions (s : State) (p : Action → Bool) : State :=
  { s with weir := { s.weir with actions := s.weir.actions.filter fun a => !p a.2 } }

/-! ## Falling due (R230, R231) -/

/-- Whether the hub's `TICK` has reached or passed an action's tick. -/
def hubDue (s : State) (a : Action) : Bool := a.tick.toNat ≤ (hubTick s).toNat

/-- The hub's tick in which an action falls due: the first that reaches or passes its own. -/
def dueTick (a : Action) : W64 := a.due.getD a.tick

/-- Whether one due action takes effect before another: by the tick they fall due in, a compartment reset first, then by `ACT` and
the order of the posts. -/
def actsBefore (a b : Action) : Bool :=
  if dueTick a ≠ dueTick b then (dueTick a).toNat < (dueTick b).toNat
  else if (a.act == 8) != (b.act == 8) then a.act == 8
  else a.act.toNat < b.act.toNat || (a.act == b.act && a.order < b.order)

/-- The actions that a compartment reset discards: those of its compartment that fall due in the same tick. -/
def discards (r b : Action) : Bool := r.act == 8 && b.comp == r.comp && dueTick b == dueTick r

/-- Put a due action in its place among others. -/
def placeAct (a : Nat × Action) : List (Nat × Action) → List (Nat × Action)
  | [] => [a]
  | b :: l => if actsBefore b.2 a.2 then b :: placeAct a l else a :: b :: l

/-- The starts and staggers of timer channels that are due at the hub and that no compartment reset discards, in their order. -/
def dueTimerActions (s : State) : List (Nat × Action) :=
  (s.weir.actions.filter fun a => (a.2.act == 5 || a.2.act == 6) && hubDue s a.2
    && s.weir.actions.all fun r => !(hubDue s r.2 && discards r.2 a.2)).foldr placeAct []

/-- Free a timer action's entry and let it act in the hub's tick. -/
def actTimer (s : State) (a : Nat × Action) : State :=
  { dropAction s a.1 with timerActs := s.timerActs ++
      [{ stagger := a.2.act == 6, comp := compId a.2.comp, mask := a.2.arg.setWidth 16 }] }

/-- Note the actions that fall due as the hub's `TICK` becomes `t`. -/
def noteDue (t : W64) (w : Weir) : Weir :=
  { w with actions := w.actions.map fun a =>
      (a.1, if a.2.due.isNone ∧ a.2.tick.toNat ≤ t.toNat then { a.2 with due := some t } else a.2) }

/-- Whether an entry was posted by a compartment or targets one of its groups (16 R383). -/
def actionOf (s : State) (comp : BitVec 4) (a : Action) : Bool :=
  a.comp == comp || ((groupOf s (Fin.ofNat 64 a.group.toNat)).valid &&
    (groupOf s (Fin.ofNat 64 a.group.toNat)).compart == comp)

/-- The groups that a compartment owns. -/
def groupsOf (s : State) (comp : BitVec 4) : List GroupId :=
  (List.finRange 64).filter fun g => (groupOf s g).valid && (groupOf s g).compart == comp

/-- Every member of a group becomes `IDLE`. -/
def idleMembers (s : State) (g : GroupId) : State :=
  { s with weir := { s.weir with
    members := s.weir.members.filter fun m => m.1 / 256 != g.val
    early := s.weir.early.filter fun m => m.1 / 16 != g.val } }

/-- The Lockkeeper posts an action for a compartment in entry `e`. -/
def lkAction (s : State) (e : Nat) (comp : BitVec 4) (g : GroupId) (act : BitVec 4) (arg : BitVec 32) (t : W64) : State :=
  putAction s e { origin := s.devid.toFin, id := s.weir.nextId, comp := comp, byLk := true, act := act,
                  group := BitVec.ofNat 6 g.val, arg := arg, tick := t, order := 0, due := none }

end Sys2Proof.Machine
end

