-- ==== Sys2Proof/Machine/ActionPort.lean ====
section
/-! DEFINITION. The action port of a compartment (08 R228, R229, R232, Tables 8.8 to 8.10): posts and cancels. -/

namespace Sys2Proof.Machine

/-! ## Posting (R228, R229) -/

def cmdAct (cmd : W64) : BitVec 4 := BitVec.ofNat 4 (fld cmd 0 4)
def cmdGroup (cmd : W64) : GroupId := Fin.ofNat 64 (fld cmd 4 6)
def cmdArg (cmd : W64) : BitVec 32 := BitVec.ofNat 32 (fld cmd 16 32)

/-- The fields of `ACT_CMD` that exist. -/
def actCmdMask : W64 := 0xFFFFFFFF03FF

/-- The Lockkeeper's own actions (Table 8.9). -/
def lkOnly (act : BitVec 4) : Bool := act == 7 || act == 8

/-- Whether a post is `BAD` (Table 8.10). -/
def postBad (cmd : W64) : Bool :=
  let act := cmdAct cmd
  act == 0 || 9 ≤ act || (cmd &&& ~~~actCmdMask) != 0 || (act == 1 && fld cmd 16 2 == 0)

/-- Whether a post is `DENIED`: a compartment posts to its own groups, and never the Lockkeeper's actions. -/
def postDenied (s : State) (p : CompId) (cmd : W64) : Bool :=
  let e := groupOf s (cmdGroup cmd)
  !e.valid || (p != 0 && (e.compart != compNo p || lkOnly (cmdAct cmd)))

/-- Whether this device is a member of a group. -/
def ownMember (s : State) (e : GroupEntry) : Bool := bit e.devmask s.devid.toNat

/-- A free entry for a post: entries 0 to 3 are the Lockkeeper's, the last of them kept for forced aborts; a compartment
holds at most 8. -/
def entryFor (s : State) (p : CompId) (lk : Bool) : Option Nat :=
  if lk then freeAction s 0 2
  else if 8 ≤ (actionsHeld s (compNo p)).length then none else freeAction s 4 31

/-- A post, as its port sees it (R229): the checks in their order, then the entry on this device. It stays in progress while
other member devices have it to install. -/
def postRun (s : State) (p : CompId) (bad : Bool) (a : ActPort) : State × ActPort :=
  let g := cmdGroup a.cmd
  let e := groupOf s g
  let lk := p == 0
  let ended (r : BitVec 4) (devs : BitVec 16) : State × ActPort := (s, { a with busy := false, result := r, devs := devs })
  if bad || postBad a.cmd then ended 4 0
  else if postDenied s p a.cmd then ended 3 0
  else if a.tick.toNat < (hubTick s).toNat + leadFor e.d then ended 1 0
  else
    let act (s : State) : Action :=
      { origin := s.devid.toFin, id := s.weir.nextId, comp := if lk then e.compart else compNo p, byLk := lk,
        act := cmdAct a.cmd, group := BitVec.ofNat 6 g.val, arg := cmdArg a.cmd, tick := a.tick, order := 0, due := none }
    let more := !(otherDevs s e).isEmpty
    let a := { a with postGroup := BitVec.ofNat 6 g.val, id := s.weir.nextId, cancel := false, busy := more, result := if more then a.result else 0, devs := 0 }
    if ownMember s e then
      match entryFor s p lk with
      | none => ended 2 (bvSet 0 s.devid.toNat true)
      | some i => (putAction s i (act s), { a with entry := BitVec.ofNat 5 i })
    else ({ s with weir := { s.weir with nextId := s.weir.nextId + 1 } }, a)

/-- A cancel, as its port sees it (R232). -/
def cancelRun (s : State) (p : CompId) (bad : Bool) (i : Fin 32) (a : ActPort) : State × ActPort :=
  let ended (r : BitVec 4) : State × ActPort := (s, { a with busy := false, result := r, devs := 0 })
  if bad then ended 4
  else match actionAt s i with
    | none => ended 3
    | some x =>
      let e := groupOf s (Fin.ofNat 64 x.group.toNat)
      if (if p = 0 then !x.byLk else x.byLk || x.comp != compNo p) then ended 3
      else if x.tick.toNat < (hubTick s).toNat + leadFor e.d then ended 1
      else
        let more := !(otherDevs s e).isEmpty
        (dropAction s i.val,
          { a with busy := more, cancel := true, id := x.id, postGroup := x.group, result := if more then a.result else 5, devs := 0 })

/-- The last answer to a post or cancel returns (R229): a post that some device did not install is removed from every one. -/
def postEnd (s : State) (full failed : BitVec 16) (a : ActPort) : State × ActPort :=
  let undo := dropActions s fun x => x.origin == s.devid.toFin && x.id == a.id
  let a := { a with busy := false, cancel := false }
  if failed ≠ 0 then (undo, { a with result := 6, devs := failed })
  else if a.cancel then (s, { a with result := 5, devs := 0 })
  else if full ≠ 0 then (undo, { a with result := 2, devs := full })
  else (s, { a with result := 0, devs := 0 })

def putPort (p : CompId) (r : State × ActPort) : State := modActPort r.1 p fun _ => r.2

/-- A write of `ACT_POST.GO` (Table 8.8). -/
def postGo (s : State) (p : CompId) (bad : Bool) : State :=
  let a := getActPort s p
  if a.busy then s else putPort p (postRun s p bad a)

/-- A write of `ACT_POST.CANCEL`. -/
def postCancel (s : State) (p : CompId) (bad : Bool) (e : Fin 32) : State :=
  let a := getActPort s p
  if a.busy then s else putPort p (cancelRun s p bad e a)

/-- ACT_POST_GO (R229). -/
def execActPostGo (p : CompId) (s : State) : Host.Outcome State Fault Refusal := .next (postGo s p false)

/-- ACT_POST_CANCEL (R232). -/
def execActPostCancel (p : CompId) (e : Fin 32) (s : State) : Host.Outcome State Fault Refusal :=
  .next (postCancel s p false e)

/-- A read of the port (Table 8.8). -/
def actPortRead (s : State) (p : CompId) (off : Nat) : W64 :=
  let a := getActPort s p
  match off with
  | 0x000 => a.tick
  | 0x008 => a.cmd &&& actCmdMask
  | 0x018 => BitVec.ofNat 64 (a.busy.toNat + 16 * a.result.toNat + 256 * a.entry.toNat + 2 ^ 16 * a.devs.toNat)
  | 0x020 => (heldMask s (compNo p)).setWidth 64
  | _ => 0

/-- A write of the port, with byte enables: one that sets both `GO` and `CANCEL` is ignored. -/
def actPortWrite (s : State) (p : CompId) (off : Nat) (be : Byte) (v : W64) : State :=
  match off with
  | 0x000 => modActPort s p fun a => { a with tick := mergeBytes a.tick v be }
  | 0x008 => modActPort s p fun a => { a with cmd := mergeBytes a.cmd v be }
  | 0x010 =>
    let w := v &&& byteMask be
    let bad := (w &&& ~~~(0x3F01 : W64)) != 0
    match bit w 0, bit w 8 with
    | true, false => postGo s p bad
    | false, true => postCancel s p bad (Fin.ofNat 32 (fld w 9 5))
    | _, _ => s
  | _ => s

end Sys2Proof.Machine
end

