-- ==== Sys2Proof/Machine/Flags.lean ====
section
/-! DEFINITION. The arithmetic conditions of the spec: signed overflow (04 R94), the range of a fixnum (05 R122), the
number of significant bits of a magnitude (10 R275). -/

namespace Sys2Proof.Machine

/-- Whether an exact result lies outside the 64-bit signed range. -/
def outOfRange (r : Int) : Bool := decide (r < -(2 ^ 63)) || decide (2 ^ 63 ≤ r)

/-- `SignedOverflow` of an exact sum or difference (R94). -/
def signedOverflow (r : Int) : Bool := outOfRange r

/-- −1, 0 or +1 as an exact integer is negative, zero or positive. -/
def signOf (r : Int) : Int := if r < 0 then -1 else if r = 0 then 0 else 1

/-- Raw division of 04 R94 without a zero divisor: quotient toward zero. −2^63 by −1 wraps to −2^63. -/
def quotS (a b : W64) : W64 := BitVec.ofInt 64 (a.toInt.tdiv b.toInt)
def remS (a b : W64) : W64 := BitVec.ofInt 64 (a.toInt.tmod b.toInt)
def quotU (a b : W64) : W64 := BitVec.ofNat 64 (a.toNat / b.toNat)
def remU (a b : W64) : W64 := BitVec.ofNat 64 (a.toNat % b.toNat)

/-- The high half of the signed product (04 Table 4.5). -/
def mulHigh (a b : W64) : W64 := BitVec.ofInt 64 ((a.toInt * b.toInt).fdiv (2 ^ 64))

/-- Rotate left by the low six bits (04 Table 4.5). -/
def rotl (a b : W64) : W64 := a.rotateLeft (b.toNat % 64)

end Sys2Proof.Machine
end

