-- ==== Sys2Proof/Machine/Encode.lean ====
section
/-! DEFINITION. Instruction words (04 Tables 4.1 to 4.10): the word of every instruction of a core, which several
exceptions report in EINFO, and the decode checks of R90 and R112 on a word. -/

namespace Sys2Proof.Machine

/-! ## Encoding -/

/-- A word from its major opcode, its fields at [25:21] and [20:16], and its low half. -/
def iw (op f g lo : Nat) : BitVec 32 := BitVec.ofNat 32 (op * 2 ^ 26 + f * 2 ^ 21 + g * 2 ^ 16 + lo)

/-- Format R: gb and func11. -/
def iwR (op : Nat) (gd ga gb : Reg) (f : Nat) : BitVec 32 := iw op gd.val ga.val (gb.val * 2 ^ 11 + f)

/-- Format S: SF and N. -/
def iwS (gd ga : Reg) (sf n : Nat) : BitVec 32 := iw 0 gd.val ga.val (sf * 2 ^ 12 + n)

/-- Generic group: register or immediate form (Table 4.6). -/
def iwG (gd ga : Reg) (b : GSrc) (f : Nat) : BitVec 32 :=
  match b with
  | .reg gb => iwR 0x04 gd ga gb f
  | .imm i => iw 0x05 gd.val ga.val (f * 2 ^ 12 + i.toNat)

/-- Format MR: SZ, U, disp13. -/
def iwMR (op : Nat) (gd ga : Reg) (sz : Nat) (u : Bool) (d : BitVec 13) : BitVec 32 :=
  iw op gd.val ga.val (sz * 2 ^ 14 + u.toNat * 2 ^ 13 + d.toNat)

/-- Format BC: cond, ga, gb, disp11. -/
def iwBC (cond : Nat) (ga gb : Reg) (d : BitVec 11) : BitVec 32 :=
  iw 0x10 cond ga.val (gb.val * 2 ^ 11 + d.toNat)

/-- Opcodes `0x09` and `0x0A`: displacement and option bits (R98). -/
def iwM (op : Nat) (gd ga : Reg) (d : BitVec 13) (rsv : BitVec 2) (nb : Bool) : BitVec 32 :=
  iw op gd.val ga.val (d.toNat * 8 + rsv.toNat * 2 + nb.toNat)

/-- The word of `REP gc`. -/
def iwRep (gc : Reg) : BitVec 32 := iw 0x01 0 gc.val 0

/-- The word of an instruction of a core; of a repeat pair, the governed word. None for the other commands. -/
def encodeCore : Instr → Option (BitVec 32)
  | .syscall _ n => some (iwS 0 0 0 n.toNat)
  | .retx _ => some (iwS 0 0 1 0)
  | .isync _ => some (iwS 0 0 2 0)
  | .fenceL _ => some (iwS 0 0 3 1)
  | .fenceS _ => some (iwS 0 0 3 2)
  | .fenceA _ => some (iwS 0 0 3 3)
  | .mfc _ gd n => some (iwS gd 0 4 n.toNat)
  | .mtc _ n ga => some (iwS 0 ga 5 n.toNat)
  | .wdset _ ga => some (iwS 0 ga 5 0x010)
  | .wdclr _ ga => some (iwS 0 ga 5 0x010)
  | .irouteWr _ ga => some (iwS 0 ga 5 0x012)
  | .swi _ ga => some (iwS 0 ga 5 0x011)
  | .swclr _ ga => some (iwS 0 ga 5 0x011)
  | .mfb _ gd r => some (iwS gd 0 6 r.val)
  | .mtb _ r ga => some (iwS 0 ga 7 r.val)
  | .invtlb _ ga sel => some (iwS 0 ga 8 sel.toNat)
  | .invtlbB _ ga sel => some (iwS 0 ga 9 sel.toNat)
  | .halt _ => some (iwS 0 0 10 0)
  | .brk _ n => some (iwS 0 0 11 n.toNat)
  | .dret _ ga => some (iwS 0 ga 12 0)
  | .add _ gd ga gb => some (iwR 0x02 gd ga gb 0x000)
  | .sub _ gd ga gb => some (iwR 0x02 gd ga gb 0x001)
  | .and _ gd ga gb => some (iwR 0x02 gd ga gb 0x002)
  | .or _ gd ga gb => some (iwR 0x02 gd ga gb 0x003)
  | .xor _ gd ga gb => some (iwR 0x02 gd ga gb 0x004)
  | .shl _ gd ga gb => some (iwR 0x02 gd ga gb 0x005)
  | .shr _ gd ga gb => some (iwR 0x02 gd ga gb 0x006)
  | .sar _ gd ga gb => some (iwR 0x02 gd ga gb 0x007)
  | .rol _ gd ga gb => some (iwR 0x02 gd ga gb 0x008)
  | .cmps _ gd ga gb => some (iwR 0x02 gd ga gb 0x009)
  | .cmpu _ gd ga gb => some (iwR 0x02 gd ga gb 0x00A)
  | .mul _ gd ga gb => some (iwR 0x02 gd ga gb 0x010)
  | .mulh _ gd ga gb => some (iwR 0x02 gd ga gb 0x011)
  | .div _ gd ga gb => some (iwR 0x02 gd ga gb 0x012)
  | .divu _ gd ga gb => some (iwR 0x02 gd ga gb 0x013)
  | .rem _ gd ga gb => some (iwR 0x02 gd ga gb 0x014)
  | .remu _ gd ga gb => some (iwR 0x02 gd ga gb 0x015)
  | .addi _ gd imm => some (iw 0x03 gd.val 0x04 imm.toNat)
  | .andi _ gd imm => some (iw 0x03 gd.val 0x05 imm.toNat)
  | .ori _ gd imm => some (iw 0x03 gd.val 0x06 imm.toNat)
  | .xori _ gd imm => some (iw 0x03 gd.val 0x07 imm.toNat)
  | .shli _ gd imm => some (iw 0x03 gd.val 0x08 imm.toNat)
  | .shri _ gd imm => some (iw 0x03 gd.val 0x09 imm.toNat)
  | .sari _ gd imm => some (iw 0x03 gd.val 0x0A imm.toNat)
  | .movi _ gd imm => some (iw 0x03 gd.val 0x00 imm.toNat)
  | .movhi _ gd imm h => some (iw 0x03 gd.val (h.val + 1) imm.toNat)
  | .gadd _ gd ga b => some (iwG gd ga b 0)
  | .gsub _ gd ga b => some (iwG gd ga b 1)
  | .gmul _ gd ga b => some (iwG gd ga b 2)
  | .gdiv _ gd ga b => some (iwG gd ga b 3)
  | .gquo _ gd ga b => some (iwG gd ga b 4)
  | .grem _ gd ga b => some (iwG gd ga b 5)
  | .gneg _ gd ga => some (iwR 0x04 gd ga 0 6)
  | .glt _ gd ga b => some (iwG gd ga b 7)
  | .gle _ gd ga b => some (iwG gd ga b 8)
  | .geq _ gd ga b => some (iwG gd ga b 9)
  | .gcmp _ gd ga b => some (iwG gd ga b 10)
  | .eq _ gd ga b => some (iwG gd ga b 11)
  | .gtag _ gd ga => some (iwR 0x06 gd ga 0 0x000)
  | .stag _ gd ga t => some (iwR 0x06 gd ga 0 (0x100 + t.toNat))
  | .tcls _ gd ga => some (iwR 0x06 gd ga 0 0x200)
  | .car _ gd ga => some (iwR 0x07 gd ga 0 0)
  | .cdr _ gd ga => some (iwR 0x07 gd ga 0 1)
  | .cons _ gd ga gb => some (iwR 0x07 gd ga gb 2)
  | .rplaca _ ga gb => some (iwR 0x07 0 ga gb 3)
  | .rplacd _ ga gb => some (iwR 0x07 0 ga gb 4)
  | .lwalk _ _ gd ga gb => some (iwR 0x07 gd ga gb 5)
  | .alloc _ gd ga p => some (iwR 0x08 gd ga 0 (16 * p.toNat))
  | .hdr _ gd ga => some (iwR 0x08 gd ga 0 1)
  | .vref _ gd ga gb => some (iwR 0x08 gd ga gb 2)
  | .vset _ gd ga gb => some (iwR 0x08 gd ga gb 3)
  | .vlen _ gd ga => some (iwR 0x08 gd ga 0 4)
  | .ldw _ gd ga d r => some (iwM 0x09 gd ga d r false)
  | .ldwNb _ gd ga d r => some (iwM 0x09 gd ga d r true)
  | .stw _ gd ga d r => some (iwM 0x0A gd ga d r false)
  | .stwNb _ gd ga d r => some (iwM 0x0A gd ga d r true)
  | .ldB _ gd ga u d => some (iwMR 0x0B gd ga 0 u d)
  | .ldH _ gd ga u d => some (iwMR 0x0B gd ga 1 u d)
  | .ldW _ gd ga u d => some (iwMR 0x0B gd ga 2 u d)
  | .ldD _ gd ga u d => some (iwMR 0x0B gd ga 3 u d)
  | .stB _ gd ga d => some (iwMR 0x0C gd ga 0 false d)
  | .stH _ gd ga d => some (iwMR 0x0C gd ga 1 false d)
  | .stW _ gd ga d => some (iwMR 0x0C gd ga 2 false d)
  | .stD _ gd ga d => some (iwMR 0x0C gd ga 3 false d)
  | .casw _ gd ga gb => some (iwR 0x0D gd ga gb 0)
  | .movw _ _ gd ga gb => some (iwR 0x0E gd ga gb 0)
  | .fillw _ _ gd ga gb => some (iwR 0x0E gd ga gb 1)
  | .scanw _ _ gd ga gb => some (iwR 0x0E gd ga gb 2)
  | .cmpw _ _ gd ga gb => some (iwR 0x0E gd ga gb 3)
  | .movb _ _ gd ga gb => some (iwR 0x0E gd ga gb 4)
  | .pref _ h ga d => some (iw 0x0F h.toNat ga.val d.toNat)
  | .beq _ ga gb d => some (iwBC 0 ga gb d)
  | .bne _ ga gb d => some (iwBC 1 ga gb d)
  | .bnil _ ga d => some (iw 0x10 2 ga.val d.toNat)
  | .bnnil _ ga d => some (iw 0x10 3 ga.val d.toNat)
  | .bz _ ga d => some (iw 0x10 4 ga.val d.toNat)
  | .bnz _ ga d => some (iw 0x10 5 ga.val d.toNat)
  | .bltf _ ga gb d => some (iwBC 6 ga gb d)
  | .bgef _ ga gb d => some (iwBC 7 ga gb d)
  | .btag _ ga t d => some (iw 0x11 0 ga.val (t.toNat * 2 ^ 8 + d.toNat))
  | .bntag _ ga t d => some (iw 0x11 1 ga.val (t.toNat * 2 ^ 8 + d.toNat))
  | .bcls _ ga k d => some (iw 0x11 (8 + k.toNat) ga.val d.toNat)
  | .jmp _ d => some (BitVec.ofNat 32 (0x12 * 2 ^ 26 + d.toNat))
  | .call _ d => some (BitVec.ofNat 32 (0x13 * 2 ^ 26 + d.toNat))
  | .jr _ ga => some (iwR 0x14 0 ga 0 0)
  | .callr _ ga => some (iwR 0x14 0 ga 0 1)
  | .ret _ ga => some (iwR 0x14 0 ga 0 2)
  | .rdt _ gd => some (iwR 0x18 gd 0 0 0)
  | .waitt _ ga => some (iwR 0x18 0 ga 0 1)
  | .armt _ ga n => some (iwR 0x18 0 ga 0 (2 + 16 * n.val))
  | .barw _ ga => some (iwR 0x18 0 ga 0 3)
  | .bara _ ga => some (iwR 0x18 0 ga 0 4)
  | .bart _ gd ga => some (iwR 0x18 gd ga 0 5)
  | .bcst _ gd ga gb => some (iwR 0x18 gd ga gb 6)
  | .rduc _ gd ga gb f => some (iwR 0x18 gd ga gb (7 + 16 * f.toNat))
  | .vaddD _ d a b => some (iwR 0x1C d a b 0x000)
  | .vsubD _ d a b => some (iwR 0x1C d a b 0x001)
  | .vmulD _ d a b => some (iwR 0x1C d a b 0x002)
  | .vdivD _ d a b => some (iwR 0x1C d a b 0x003)
  | .vfmaD _ d a b => some (iwR 0x1C d a b 0x004)
  | .vsqrtD _ d a => some (iwR 0x1C d a 0 0x005)
  | .vminD _ d a b => some (iwR 0x1C d a b 0x006)
  | .vmaxD _ d a b => some (iwR 0x1C d a b 0x007)
  | .vcmpltD _ d a b => some (iwR 0x1C d a b 0x008)
  | .vcmpeqD _ d a b => some (iwR 0x1C d a b 0x009)
  | .vcvtLd _ d a => some (iwR 0x1C d a 0 0x00A)
  | .vcvtDl _ d a => some (iwR 0x1C d a 0 0x00B)
  | .vaddL _ d a b => some (iwR 0x1C d a b 0x010)
  | .vsubL _ d a b => some (iwR 0x1C d a b 0x011)
  | .vmulL _ d a b => some (iwR 0x1C d a b 0x012)
  | .vand _ d a b => some (iwR 0x1C d a b 0x013)
  | .vor _ d a b => some (iwR 0x1C d a b 0x014)
  | .vxor _ d a b => some (iwR 0x1C d a b 0x015)
  | .vldF _ d a b => some (iwR 0x1C d a b 0x020)
  | .vldB _ d a b => some (iwR 0x1C d a b 0x021)
  | .vstF _ d a b => some (iwR 0x1C d a b 0x022)
  | .vstB _ d a b => some (iwR 0x1C d a b 0x023)
  | .vins _ d ga l => some (iwR 0x1C d ga ⟨l.val, by omega⟩ 0x030)
  | .vextF _ gd a l => some (iwR 0x1C gd a ⟨l.val, by omega⟩ 0x031)
  | .vextL _ gd a l => some (iwR 0x1C gd a ⟨l.val, by omega⟩ 0x032)
  | .vsplat _ d ga => some (iwR 0x1C d ga 0 0x033)
  | .nrdf _ gd => some (iwR 0x1C gd 0 0 0x03C)
  | .nwrf _ ga => some (iwR 0x1C 0 ga 0 0x03D)
  | _ => none

/-- The instruction word as EINFO reports it (R91). -/
def einfoWord (i : Instr) : W64 := ((encodeCore i).getD 0).setWidth 64

/-! ## Decode checks (R90, R112) -/

/-- Control register numbers of 03 Table 3.3. -/
def ctlNumbers : List Nat :=
  [0x000, 0x001, 0x002, 0x003, 0x004, 0x005, 0x006, 0x008, 0x009, 0x00A, 0x00B, 0x00C, 0x00D, 0x00E, 0x00F, 0x010,
   0x011, 0x012, 0x020, 0x021, 0x022, 0x030, 0x031, 0x032, 0x033, 0x034, 0x040, 0x041, 0x042, 0x043, 0x044, 0x045,
   0x050, 0x051, 0x052, 0x053, 0x054, 0x060, 0x061, 0x080]

/-- The registers of which every field is read-only (03 R66). -/
def ctlReadOnly : List Nat := [0x021, 0x050, 0x080]

/-- The pointer types that `ALLOC` accepts (05 R119). -/
def allocType (p : Nat) : Bool := (1 ≤ p && p ≤ 6) || (0x10 ≤ p && p ≤ 0x1F)

/-- Which of the fields [25:21], [20:16] and [15:11] a function of a format R group uses; none where the function is
unassigned (Tables 4.5 to 4.10, 05 Table 5.1). -/
def rFields (op f : Nat) : Option (Bool × Bool × Bool) :=
  if op = 0x02 then
    if f ≤ 0x00A ∨ (0x010 ≤ f ∧ f ≤ 0x015) then some (true, true, true) else none
  else if op = 0x04 then
    if f = 6 then some (true, true, false) else if f ≤ 11 then some (true, true, true) else none
  else if op = 0x06 then
    if f = 0 ∨ (0x100 ≤ f ∧ f ≤ 0x200) then some (true, true, false) else none
  else if op = 0x07 then
    if f ≤ 1 then some (true, true, false)
    else if f = 2 ∨ f = 5 then some (true, true, true)
    else if f ≤ 4 then some (false, true, true)
    else none
  else if op = 0x08 then
    if f = 1 ∨ f = 4 then some (true, true, false)
    else if f = 2 ∨ f = 3 then some (true, true, true)
    else if f % 16 = 0 ∧ f / 16 < 32 ∧ allocType (f / 16) then some (true, true, false)
    else none
  else if op = 0x0D then if f = 0 then some (true, true, true) else none
  else if op = 0x0E then if f ≤ 4 then some (true, true, true) else none
  else if op = 0x14 then if f ≤ 2 then some (false, true, false) else none
  else if op = 0x18 then
    if f = 0 then some (true, false, false)
    else if f = 1 ∨ f = 3 ∨ f = 4 then some (false, true, false)
    else if f % 16 = 2 ∧ f / 16 < 4 then some (false, true, false)
    else if f = 5 then some (true, true, false)
    else if f = 6 then some (true, true, true)
    else if f % 16 = 7 ∧ f / 16 < 5 then some (true, true, true)
    else none
  else if op = 0x1C then
    if f = 0x005 ∨ f = 0x00A ∨ f = 0x00B ∨ f = 0x033 then some (true, true, false)
    else if f ≤ 0x009 ∨ (0x010 ≤ f ∧ f ≤ 0x015) ∨ (0x020 ≤ f ∧ f ≤ 0x023) ∨ (0x030 ≤ f ∧ f ≤ 0x032) then
      some (true, true, true)
    else if f = 0x03C then some (true, false, false)
    else if f = 0x03D then some (false, true, false)
    else none
  else none

/-- The first decode check that a word fails on its own, by its subcode of Table 4.3 (R90). -/
def checkWord (w : BitVec 32) : Option Byte :=
  let op := w.toNat / 2 ^ 26
  let f := w.toNat / 2 ^ 21 % 32
  let g := w.toNat / 2 ^ 16 % 32
  let lo := w.toNat % 2 ^ 16
  let used (b : Bool) (v : Nat) : Bool := b || v == 0
  if op = 0x00 then
    let sf := lo / 2 ^ 12
    let n := lo % 2 ^ 12
    if sf ≥ 13 ∨ (sf = 3 ∧ (n = 0 ∨ 3 < n)) then some 0x02
    else if (sf = 4 ∨ sf = 5) ∧ (!ctlNumbers.contains n || (sf == 5 && ctlReadOnly.contains n)) then some 0x05
    else
      let ok := match sf with
        | 0 => f == 0 && g == 0 && n < 32
        | 3 => f == 0 && g == 0
        | 4 => g == 0
        | 5 => f == 0
        | 6 => g == 0 && n < 32
        | 7 => f == 0 && n < 32
        | 8 | 9 => f == 0 && n < 4 && (n < 2 || g == 0)
        | 11 => f == 0 && g == 0
        | 12 => f == 0 && n == 0
        | _ => f == 0 && g == 0 && n == 0
      if ok then none else some 0x03
  else if op = 0x01 then if f = 0 ∧ lo = 0 then none else some 0x03
  else if op = 0x03 then
    if g ≥ 0x0B then some 0x02
    else if (g = 0x08 ∨ g = 0x09 ∨ g = 0x0A) ∧ 64 ≤ lo then some 0x03
    else none
  else if op = 0x05 then if lo / 2 ^ 12 ≤ 11 ∧ lo / 2 ^ 12 ≠ 6 then none else some 0x02
  else if op = 0x09 ∨ op = 0x0A then if lo / 2 % 4 = 0 then none else some 0x03
  else if op = 0x0B then if lo / 2 ^ 13 = 7 then some 0x02 else none
  else if op = 0x0C then if lo / 2 ^ 13 % 2 = 1 then some 0x02 else none
  else if op = 0x0F ∨ op = 0x12 ∨ op = 0x13 then none
  else if op = 0x10 then if f ≤ 7 then none else some 0x02
  else if op = 0x11 then if f ≤ 1 ∨ (8 ≤ f ∧ f ≤ 15) then none else some 0x02
  else if op = 0x02 ∨ op = 0x04 ∨ op = 0x06 ∨ op = 0x07 ∨ op = 0x08 ∨ op = 0x0D ∨ op = 0x0E ∨ op = 0x14 ∨ op = 0x18
      ∨ op = 0x1C then
    match rFields op (lo % 2 ^ 11) with
    | none => some 0x02
    | some (u1, u2, u3) =>
      if !(used u1 f && used u2 g && used u3 (lo / 2 ^ 11)) then some 0x03
      else if op = 0x1C ∧ 0x030 ≤ lo % 2 ^ 11 ∧ lo % 2 ^ 11 ≤ 0x032 ∧ 4 ≤ lo / 2 ^ 11 then some 0x03
      else if op = 0x07 ∧ lo % 2 ^ 11 = 5 ∧ f = g then some 0x03
      else none
  else some 0x01

/-- Whether a word names a block instruction or `LWALK` by major opcode and function (R112). -/
def isBlockWord (w : BitVec 32) : Bool :=
  let op := w.toNat / 2 ^ 26
  let f := w.toNat % 2 ^ 11
  (op == 0x0E && f ≤ 4) || (op == 0x07 && f == 5)

/-- The register check of R112 on a governed word. -/
def repRegs (gc : Nat) (w : BitVec 32) : Bool :=
  let gd := w.toNat / 2 ^ 21 % 32
  let ga := w.toNat / 2 ^ 16 % 32
  let gb := w.toNat / 2 ^ 11 % 32
  gd != gc && ga != gc && gb != gc && (w.toNat / 2 ^ 26 != 0x0E || (gb != gd && gb != ga))

/-- The illegal instruction exception that decoding a word raises, if any: its subcode, the word that EINFO reports, and
whether it is raised for a repeat pair. `next` is the word that follows; a failure of the prefix's own fields is the pair's too
(R90, R91, R112, R113). -/
def illegalOf (w next : BitVec 32) : Option (Byte × BitVec 32 × Bool) :=
  match checkWord w with
  | some sub => if w.toNat / 2 ^ 26 = 0x01 then some (sub, next, true) else some (sub, w, false)
  | none =>
    if w.toNat / 2 ^ 26 = 0x01 then
      if !isBlockWord next then some (0x04, next, true)
      else match checkWord next with
        | some sub => some (sub, next, true)
        | none => if repRegs (w.toNat / 2 ^ 16 % 32) next then none else some (0x04, next, true)
    else if w.toNat / 2 ^ 26 = 0x0E then some (0x06, w, false)
    else none

/-- The decode check of a core instruction given as a command: its word, and its prefix where it has one. -/
def illegalInstr (rep : Option Reg) (i : Instr) : Option (Byte × BitVec 32 × Bool) :=
  let w := (encodeCore i).getD 0
  match rep with
  | some gc => illegalOf (iwRep gc) w
  | none => illegalOf w 0

end Sys2Proof.Machine
end

