-- ==== Sys2Proof/Machine/MicroHook.lean ====
section
/-! DEFINITION. The patch-match table (13 R333, R334), and how an operation that microcode carries out enters its ROM routine
(13 R332, Table 13.1). -/

namespace Sys2Proof.Machine

/-- The patch RAM word that a fetch of a ROM address executes instead: the lowest-numbered valid entry wins (R334). -/
def patchOf (k : Core) (a : Nat) : Option Nat :=
  (k.micro.table.find? fun e => e.2.valid && e.2.romaddr.toNat == a).map (·.2.paddr.toNat)

/-- The micro-PC of a patch RAM word: the store bit stands above the 14-bit address (R331). -/
def patchPc (a : Nat) : Nat := 2 ^ 14 + a % 2 ^ 14

/-- Where a fetch of a ROM address goes: to patch RAM where an entry matches (R334). -/
def romFetch (k : Core) (a : Nat) : Nat :=
  match patchOf k a with
  | some p => patchPc p
  | none => a

/-- The latches at the entry of a routine, which the spec leaves open but for those that it names: free values (log 3). -/
def microStart (a key upc n : Nat) : MicroRun :=
  let w (i : Nat) : Word := Config.microLatch n i
  let b (i : Nat) : Bool := bit (w (40 + i)).payload 0
  { entry := a, key := key, upc := upc, acted := false, alr := w 0, tgr := w 1, sfr := w 2, mdr := w 3, crd := w 4, prr := w 5, wrr := w 6
    xdr := w 7, lgr := w 8, rem := w 9, ea := va48 (w 10).payload, zero := b 0, neg := b 1, carry := b 2, ovf := b 3
    tageq := b 4, stale := b 5, same := b 6, xfail := b 7, casok := b 8, percref := b 9
    bndd := (w 11).payload, bnds := (w 12).payload, count := (w 13).payload.toNat
    u := Vector.ofFn fun i => w (20 + i.val), bl := (w 14).payload.setWidth 3, first := true, begun := none, abandon := false
    iw := (w 15).payload.setWidth 32, fwd := none, card := none, late := [] }

/-- The entries of the ROM's routines in ascending order (Table 13.1), with the end of the ROM. -/
def romEntries : List Nat :=
  [0x0040, 0x0060, 0x0080, 0x00A0, 0x0100, 0x0140, 0x0180, 0x01C0, 0x01E0, 0x0200, 0x0400, 0x0440, 0x0480, 0x04C0, 0x0500, 0x0600,
   0x0700, 0x0780, 0x3000, 0x3F00, 0x4000]

/-- How many ROM words belong to a routine: those from its entry to the next one (R332: the other addresses hold the words of these
routines; DESIGN CHOICE, log 20). -/
def routineSpan (a : Nat) : Nat := ((romEntries.find? fun b => decide (a < b)).getD (a + 1)) - a

/-- Whether the microprogram of a routine is not the ROM's own: an entry matches one of the routine's known words. A patch that has
gone on into the original word is not entered again for the same use of the routine, which `key` names, and an operation within a
microprogram enters none. -/
def redirected (k : Core) (a key : Nat) : Bool :=
  (k.micro.table.any fun e => e.2.valid && decide (a ≤ e.2.romaddr.toNat) && decide (e.2.romaddr.toNat < a + routineSpan a))
    && k.micro.run.isNone && !k.replay.rom.contains (a, key)

/-- What a micro-stack fault is to put back (R339). -/
def savedOf (k : Core) : SavedRegs :=
  { banks := k.banks, st := k.st, exc := k.exc, mmu := k.mmu, bw := k.bw, irq := k.irq, heap := k.heap, alarm := k.alarm, v := k.v
    nfl := k.nfl, cards := k.cards }

/-- The registers of a core as they were saved. -/
def putBack (k : Core) : Core :=
  match k.micro.saved with
  | none => k
  | some r => { k with
      banks := r.banks, st := r.st, exc := r.exc, mmu := r.mmu, bw := r.bw, irq := r.irq, heap := r.heap, alarm := r.alarm, v := r.v
      nfl := r.nfl, cards := r.cards }

/-- Enter a ROM routine: nothing where its words are the ROM's own; else the sequencer takes over, with the latches that the
routine's entry is known to hold. `key` names the use of the routine within its instruction. -/
def enterRom (c : CoreId) (a key : Nat) (set : MicroRun → MicroRun) : CM Unit := do
  let k ← cget c
  if redirected k a key then
    let n ← liftD fresh
    cmod c fun k => { k with micro := { k.micro with
      run := some (set (microStart a key (romFetch k a) n))
      saved := some (k.micro.saved.getD (savedOf k)) } }
    throw .micro

/-- The uses of routines that the next iteration of a repeat pair does not repeat: those of the pair's own routine. -/
def loopRom (rom : List (Nat × Nat)) : List (Nat × Nat) := rom.filter fun e => decide (0x0400 ≤ e.1)

/-- What a core keeps of an iteration's answers when the next one begins (04 R113). -/
def nextIteration (r : Replay) : Replay := { Replay.reset with rom := loopRom r.rom }

end Sys2Proof.Machine
end

