-- ==== Sys2Proof/Machine/TimerTick.lean ====
section
/-! DEFINITION. A timer channel in one tick (14 R350 to R356): the level it drives, the advance, the match, the captures, and the
ticks that pass while nothing is asked of it (log 12). -/

namespace Sys2Proof.Machine

/-! ## Outputs (R356) -/

/-- The number of counts in a period: 2^32 for `PERIOD` 0 and in a cascaded pair. -/
def effPeriod (casc : Bool) (t : Timer) : Nat := if casc ∨ t.period = 0 then 2 ^ 32 else t.period.toNat

/-- The level a channel drives (Table 14.2); `casc`: it is one of a cascaded pair. -/
def outLevel (casc : Bool) (t : Timer) : Bool :=
  let p := effPeriod casc t
  match t.omode.toNat with
  | 0 => false
  | 1 => t.level
  | 2 => t.duty != 0 && (decide (p ≤ t.duty.toNat) || decide ((t.count.toNat + p - t.offset.toNat % p) % p < t.duty.toNat))
  | _ => t.toggle

/-- The level of a channel's pin as it reads. -/
def pinLevel (casc : Bool) (t : Timer) : Bool := if t.omode = 0 then t.pin else outLevel casc t

/-! ## The advance (R350, R353) -/

/-- How often the count of a channel of its own advances as `TICK` reaches `next`. -/
def advances (t : Timer) : Nat :=
  let hit (n : Nat) : Nat := if n % 2 ^ t.pre.toNat = 0 then 1 else 0
  if t.run then hit t.next.toNat + (if t.skip then hit (t.next.toNat - 1) else 0) else 0

/-- One advance (R350). -/
def advance (casc : Bool) (t : Timer) (c : BitVec 32) : BitVec 32 :=
  if effPeriod casc t ≤ c.toNat + 1 then 0 else c + 1

/-- The count after `n` advances in a tick; a count that was written in it stands (R351). -/
def countAfter (casc : Bool) (n : Nat) (t : Timer) : BitVec 32 :=
  if t.loaded then t.count else (List.replicate n ()).foldl (fun c _ => advance casc t c) t.count

/-- How often the low half of a pair goes from 0xFFFF_FFFF to 0 in the tick (R353). -/
def carries (n : Nat) (lo : Timer) : Nat := if lo.loaded then 0 else (lo.count.toNat + n) / 2 ^ 32

/-! ## Captures (R354, R355) -/

/-- The edges whose stamp's tick ends now, where the channel captures. -/
def edgesNow (t : Timer) : List Bool :=
  if t.capen && t.omode == 0 then (t.edges.filter fun e => e.stamp.toNat ≤ t.next.toNat).map (·.rising) else []

/-- A capture at the end of a tick: into the register, where an unread value before it is an overrun, or into the holding register
where the capture register was read in the tick. -/
def capture (t : Timer) (rising : Bool) : Timer :=
  if rising then
    let t := { t with irq := bvSet t.irq 1 true }
    if t.readr then { t with holdr := some t.count, newr := true }
    else { t with capr := t.count, newr := true, ovrr := t.ovrr || t.newr, irq := if t.newr then bvSet t.irq 3 true else t.irq }
  else
    let t := { t with irq := bvSet t.irq 2 true }
    if t.readf then { t with holdf := some t.count, newf := true }
    else { t with capf := t.count, newf := true, ovrf := t.ovrf || t.newf, irq := if t.newf then bvSet t.irq 3 true else t.irq }

/-! ## One tick -/

/-- The end of a tick (R351, R352): the advance, the match and what it does, and the captures of the given edges. -/
def endTick (casc : Bool) (n : Nat) (es : List Bool) (t : Timer) : Timer :=
  let c := countAfter casc n t
  let m := c == t.offset && (c != t.last || t.started)
  let t := { t with
    count := c
    hshadow := if t.latch then c else t.hshadow
    irq := if m then bvSet t.irq 0 true else t.irq
    run := t.run && !(m && t.oneshot)
    toggle := t.toggle.xor (m && t.omode == 3)
    newr := t.newr && !t.readr
    newf := t.newf && !t.readf }
  es.foldl capture t

/-- The next tick begins: what came about in the one before is past, and a held capture moves into its register. -/
def nextTick (t : Timer) : Timer :=
  { t with
    last := t.count, loaded := false, started := false, latch := false
    capr := t.holdr.getD t.capr, capf := t.holdf.getD t.capf, holdr := none, holdf := none, readr := false, readf := false
    edges := t.edges.filter fun e => t.next.toNat < e.stamp.toNat
    next := t.next + 1, skip := false }

def endAlone (t : Timer) : Timer := endTick false (advances t) (edgesNow t) t

/-- The end of a tick of a cascaded pair: the high half advances as the low half wraps, and the low channel's pin captures both
counts (R353, R354). -/
def endPair (lo hi : Timer) : Timer × Timer :=
  let n := advances lo
  (endTick true n (edgesNow lo) lo, endTick true (carries n lo) (edgesNow lo) hi)

/-- Whether nothing more happens to a channel by itself: it does not run, and nothing of this tick has still to be evaluated. -/
def quiet (t : Timer) : Bool :=
  !t.run && !t.loaded && !t.started && !t.latch && !t.readr && !t.readf && t.holdr.isNone && t.holdf.isNone && t.edges.isEmpty

/-- `n` ticks end. -/
def runTicks : Nat → Timer → Timer
  | 0, t => t
  | n + 1, t =>
    let u := nextTick (endAlone t)
    if quiet u then { u with next := u.next + BitVec.ofNat 64 n } else runTicks n u

def runTicksPair : Nat → Timer → Timer → Timer × Timer
  | 0, lo, hi => (lo, hi)
  | n + 1, lo, hi =>
    let r := endPair lo hi
    let a := nextTick r.1
    let b := nextTick r.2
    if quiet a && quiet { b with run := false } then
      ({ a with next := a.next + BitVec.ofNat 64 n }, { b with next := b.next + BitVec.ofNat 64 n })
    else runTicksPair n a b

end Sys2Proof.Machine
end

