-- ==== Sys2Proof/Machine/Reset.lean ====
section
/-! DEFINITION. What a reset or an abort takes away from a unit: a core (03 R86), a timer channel (14 R360), a Percolator
(07 R206), a maintenance engine (12 R325), a Culvert channel and a load copy (16 R402). -/

namespace Sys2Proof.Machine

/-- A core reset (R86): every value of Tables 3.3 and 3.9. `COMPART` and `EPC`, which the Lockkeeper writes before release,
stand, and so do the microcode patches, which it reloads (13 R347), and the record of a core that is held after a lockup. -/
def coreReset (k : Core) : Core :=
  { Core.reset with
    compart := k.compart
    exc := { Core.reset.exc with epc := k.exc.epc }
    micro := { k.micro with run := none, stack := [] }
    lock := if k.lockHeld then k.lock else none
    lockHeld := k.lockHeld
    mcHeld := k.mcHeld }

/-- Reset core `c`; what it has asked of other units is forgotten. -/
def resetCore (s : State) (c : CoreId) : State :=
  let s := modCore s c coreReset
  { s with answers := s.answers.filter (fun a => a.1 != c), bcast := s.bcast.filter (fun b => b.2.core != c) }

/-- The Culvert channels of a compartment. -/
def compChans (s : State) (p : CompId) : List ChanId :=
  (List.finRange 64).filter fun n => bit (getComp s p).res.culvert n.val

/-- The timer channels of a compartment. -/
def compTimers (s : State) (p : CompId) : List TimerId :=
  (List.finRange 16).filter fun n => bit (getComp s p).res.timers n.val

/-- A timer channel at its Reset values; the pin, which is an input from then on, and the tick the channel has counted to stand
(14 R360). -/
def timerReset (t : Timer) : Timer := { Timer.reset with pin := pinLevel false t, next := t.next, skip := t.skip }

/-- The channels of a compartment are reset, and its timed actions of this tick are discarded. -/
def resetTimers (s : State) (p : CompId) : State :=
  (compTimers s p).foldl (fun s n => modTimer s n timerReset)
    { s with timerActs := s.timerActs.filter fun a => a.comp != p }

/-- A Percolator discards all of a compartment's work (07 R206), but for the card copies that writes of others wait for (16 R403). -/
def discardEngine (s : State) (p : CompId) (k : ClusterId) : State :=
  let c := compNo p
  let s := modPerc s k p fun e =>
    { e with stack := [], memCount := 0, run := none, stopped := true, markedSince := false, unacked := 0 }
  modEng s k fun e => { e with
    fwd := e.fwd.filter (fun r => r.comp != c), marks := e.marks.filter (fun r => r.comp != c)
    cards := e.cards.filter (fun r => r.comp != c), tlb := e.tlb.filter (fun t => t.2.comp != c)
    got := e.got.filter (fun g => g.comp != c || g.unit == .guard), copies := e.copies.filter (fun r => r.comp != c) }

/-- A maintenance engine stops a compartment's operation, or discards its queued one (12 R325). -/
def discardMnt (s : State) (p : CompId) (k : ClusterId) : State :=
  let s := modMnt s k p fun m =>
    if m.busy then { m with busy := false, done := true, result := 4, lines := m.count, acted := false }
    else { m with queued := false }
  modMntEng s k fun e => { e with queue := e.queue.filter (· != p) }

/-- A Culvert channel drops its descriptor and fetches nothing more (16 R402). -/
def discardChan (s : State) (n : ChanId) : State :=
  modChan { s with pcie := { s.pcie with reads := s.pcie.reads.filter fun x => x.chan != some n } } n fun h =>
    { h with run := none, nbwait := false, stopped := true }

/-- A load copy that stops has written nothing yet; its event is posted (15 R369, 19 R442). -/
def stopLoad (s : State) (p : CompId) : State :=
  match (getComp s p).load with
  | some l =>
    let s := { s with pcie := { s.pcie with reads := s.pcie.reads.filter fun x => x.chan.isSome } }
    postEvent (modComp s p fun c => { c with load := none }) 0x0001 p.val l.seq 0
  | none => s

/-- The compartment's engines, maintenance engines, channels and load copy discard their work (15 R371, 16 R402 step 2). -/
def discardWork (s : State) (p : CompId) : State :=
  let s := allClusters.foldl (fun s k => discardMnt (discardEngine s p k) p k) s
  let s := (compChans s p).foldl discardChan s
  modComp (stopLoad s p) p fun c => { c with quiesce := none, snap := none }

/-- The cores of a compartment are held in reset (16 R402 step 1). -/
def holdCores (s : State) (p : CompId) : State := (compCores s p).foldl resetCore s

/-- The TLB entries of a compartment are invalidated (16 R402 step 6). -/
def dropTlbs (s : State) (p : CompId) : State :=
  let s := allCores.foldl (fun s c => modCore s c fun k => { k with tlb := tlbDrop k.tlb (fun e => e.comp == compNo p) }) s
  allClusters.foldl (fun s k => modEng s k fun e => { e with tlb := e.tlb.filter (fun t => t.2.comp != compNo p) }) s

end Sys2Proof.Machine
end

