-- ==== Sys2Proof/Machine/CulvertPage.lean ====
section
/-! DEFINITION. The registers of the host data path (16): the page of a Culvert channel (Table 16.6), and the queue pairs and MSI-X
vectors of a virtual function (R391 to R393). -/

namespace Sys2Proof.Machine

/-- The compartment that holds a channel; 0: none. -/
def chanOwner (s : State) (n : ChanId) : CompId :=
  (allComps.find? fun p => p != 0 && bit (getComp s p).res.culvert n.val).getD 0

def cvRingError (s : State) (n : ChanId) : State := modChan s n fun h => { h with rerr := true, en := false }

/-- Whether `LOG2N` is in its range (07 R180). -/
def cvLogOk (h : Channel) : Bool := 4 ≤ h.log2n.toNat && h.log2n.toNat ≤ 12

/-! ## The channel page (Table 16.6) -/

/-- A write of `TAIL`; a bit at or above `LOG2N` is a ring error (07 R180). -/
def cvWriteTail (s : State) (n : ChanId) (t : Nat) : State :=
  let s := modChan s n fun h => { h with tail := BitVec.ofNat 12 t }
  if 2 ^ (getChan s n).log2n.toNat ≤ t then cvRingError s n else s

/-- CV_TAIL (R396). -/
def execCvTail (n : ChanId) (v : W64) (s : State) : Host.Outcome State Fault Refusal := .next (cvWriteTail s n (fld v 0 12))

def cvRingWord (h : Channel) : W64 :=
  BitVec.ofNat 64 (h.en.toNat + 2 * h.log2n.toNat + 32 * h.trustok.toNat + h.ring.toNat)

def cvRegRead (s : State) (n : ChanId) (off : Nat) : W64 :=
  let h := getChan s n
  match off with
  | 0x000 => cvRingWord h
  | 0x008 => h.head.setWidth 64
  | 0x010 => h.tail.setWidth 64
  | 0x018 => BitVec.ofNat 64 (h.run.isSome.toNat + 2 * h.rerr.toNat + 4 * h.stopped.toNat + 8 * h.nbwait.toNat
      + 256 * h.lasterr.toNat)
  | 0x020 => BitVec.ofNat 64 (h.irq.toNat + 256 * h.irqen.toNat)
  | _ => 0

/-- Whether a Start Culvert channel action has set `EN` in the present tick: it comes after the tick's writes (R403). -/
def startedNow (s : State) (n : ChanId) : Bool := (getChan s n).startTick == some (hubTick s)

/-- A write of the page, at system privilege or not, with byte enables. -/
def cvRegWrite (s : State) (n : ChanId) (sys : Bool) (off : Nat) (be : Byte) (v : W64) : State :=
  let w1 := v &&& byteMask be
  match off with
  | 0x000 =>
    let v := mergeBytes (cvRingWord (getChan s n)) v be
    let v := if startedNow s n then setBit v 0 true else v
    let s := modChan s n fun h => { h with
      en := bit v 0, log2n := BitVec.ofNat 4 (fld v 1 4), trustok := if sys then bit v 5 else h.trustok
      ring := BitVec.ofNat 44 (fld v 12 32 * 4096) }
    if bit v 0 ∧ (fld v 1 4 < 4 ∨ 12 < fld v 1 4) then cvRingError s n else s
  | 0x010 => cvWriteTail s n (fld (mergeBytes ((getChan s n).tail.setWidth 64) v be) 0 12)
  | 0x018 => modChan s n fun h => { h with rerr := h.rerr && !bit w1 1 }
  | 0x020 => modChan s n fun h => { h with
      irq := h.irq &&& ~~~(w1.setWidth 2), irqen := if bit be 1 then BitVec.ofNat 2 (fld v 8 2) else h.irqen }
  | _ => s

/-! ## Queue pairs and MSI-X (R391 to R393) -/

def getQp (s : State) (p : CompId) (q : QpId) : QueuePair := (getComp s p).vf.qp.get q

def modQp (s : State) (p : CompId) (q : QpId) (f : QueuePair → QueuePair) : State :=
  modComp s p fun c => { c with vf := { c.vf with qp := c.vf.qp.set q.val (f (c.vf.qp.get q)) q.isLt } }

/-- Whether host writes to a function take effect (R391). -/
def vfWritable (st : CState) : Bool := st == .created || st == .running || st == .quiescing

/-- A write of `QP_SQTAIL`: bits at or above `SQLOG2` are written as zero. -/
def setSqTail (s : State) (p : CompId) (q : QpId) (v : W64) : State :=
  modQp s p q fun x => { x with sqtail := BitVec.ofNat 12 (fld v 0 12 % 2 ^ x.sqlog2.toNat) }

/-- QP_SQTAIL (R392). -/
def execQpSqtail (p : CompId) (q : QpId) (v : W64) (s : State) : Host.Outcome State Fault Refusal :=
  if hostReaches s ∧ p ≠ 0 ∧ vfWritable (getComp s p).st then .next (setSqTail s p q v) else .next s

/-- QP_SQHEAD (R392). -/
def execQpSqhead (p : CompId) (q : QpId) (v : W64) (s : State) : Host.Outcome State Fault Refusal :=
  .next (modQp s p q fun x => { x with sqhead := BitVec.ofNat 12 (fld v 0 12) })

/-- A write of `QP_CQTAIL`: a changed value signals vector `q` where `CQIRQ` = 1. -/
def setCqTail (s : State) (p : CompId) (q : QpId) (v : W64) : State :=
  let x := getQp s p q
  let t := BitVec.ofNat 12 (fld v 0 12)
  let s := modQp s p q fun x => { x with cqtail := t }
  if x.cqtail != t && x.cqirq then signal s p q.val else s

/-- QP_CQTAIL (R393). -/
def execQpCqtail (p : CompId) (q : QpId) (v : W64) (s : State) : Host.Outcome State Fault Refusal :=
  .next (setCqTail s p q v)

/-- A write of `VF_HOSTIRQ`. -/
def hostIrq (s : State) (p : CompId) (v : W64) : State :=
  let n := fld v 0 5
  if bit v 8 ∧ 8 ≤ n ∧ n ≤ 30 then signal s p n else s

/-- VF_HOSTIRQ (R393). -/
def execVfHostirq (p : CompId) (v : W64) (s : State) : Host.Outcome State Fault Refusal := .next (hostIrq s p v)

def qpCfg (x : QueuePair) : W64 :=
  BitVec.ofNat 64 (x.en.toNat + 2 * x.sqlog2.toNat + 32 * x.cqlog2.toNat + 512 * x.cqirq.toNat)

/-- A read of a queue pair, from either side. -/
def qpRead (s : State) (p : CompId) (q : QpId) (off : Nat) : W64 :=
  let x := getQp s p q
  match off with
  | 0x00 => qpCfg x
  | 0x08 => x.sqbase
  | 0x10 => x.cqbase
  | 0x18 => x.sqtail.setWidth 64
  | 0x20 => x.sqhead.setWidth 64
  | 0x28 => x.cqtail.setWidth 64
  | 0x30 => x.cqhead.setWidth 64
  | 0x38 => x.sqirq.toNat
  | _ => 0

/-- A host write of a queue pair (Table 16.4). -/
def qpHostWrite (s : State) (p : CompId) (q : QpId) (off : Nat) (be : Byte) (v : W64) : State :=
  let x := getQp s p q
  let m (old : W64) : W64 := mergeBytes old v be
  if p = 0 ∨ !vfWritable (getComp s p).st then s
  else match off with
  | 0x00 =>
    let c := m (qpCfg x)
    modQp s p q fun x => { x with
      en := bit c 0, sqlog2 := BitVec.ofNat 4 (fld c 1 4), cqlog2 := BitVec.ofNat 4 (fld c 5 4), cqirq := bit c 9 }
  | 0x08 => modQp s p q fun x => { x with sqbase := m x.sqbase &&& ~~~(0x3F : W64) }
  | 0x10 => modQp s p q fun x => { x with cqbase := m x.cqbase &&& ~~~(0x3F : W64) }
  | 0x18 => setSqTail s p q (m (x.sqtail.setWidth 64))
  | 0x30 => modQp s p q fun x => { x with cqhead := BitVec.ofNat 12 (fld (m (x.cqhead.setWidth 64)) 0 12) }
  | _ => s

/-- A compartment's write of a queue pair: the fields that are read-only to the host. -/
def qpCoreWrite (s : State) (p : CompId) (q : QpId) (off : Nat) (be : Byte) (v : W64) : State :=
  let x := getQp s p q
  let m (old : W64) : W64 := mergeBytes old v be
  match off with
  | 0x20 => modQp s p q fun x => { x with sqhead := BitVec.ofNat 12 (fld (m (x.sqhead.setWidth 64)) 0 12) }
  | 0x28 => setCqTail s p q (m (x.cqtail.setWidth 64))
  | 0x38 => if bit be 0 then modQp s p q fun x => { x with sqirq := bit v 0 } else s
  | _ => s

end Sys2Proof.Machine
end

