-- ==== Sys2Proof/Machine/Abort.lean ====
section
/-! DEFINITION. Aborts of compartments (15 R371, R372; 16 R402): the start, the orderly abort, the forced path and the end. -/

namespace Sys2Proof.Machine

/-- The home group of a compartment (16 R384). -/
def homeGroup (s : State) (p : CompId) : Option GroupId := (getComp s p).res.home

/-- Post the Compartment reset action to the other devices of a compartment, in entry `e` (15 R371); nothing where it is on
this device alone or an earlier post stands. -/
def postReset (s : State) (p : CompId) (e : Nat) (ahead : Nat) : State :=
  match homeGroup s p with
  | none => s
  | some g =>
    let en := groupOf s g
    if !en.valid || (otherDevs s en).isEmpty || s.weir.actions.any (fun a => a.2.act == 8 && a.2.comp == compNo p) then s
    else lkAction s e (compNo p) g 8 0 (hubTick s + BitVec.ofNat 64 (leadFor en.d + ahead))

/-- The steps of the orderly abort that the Lockkeeper takes on this device (16 R402 steps 1 to 5). The fences and the
responses to inbound requests follow the state of the compartment. -/
def orderlyAbort (s : State) (p : CompId) (post : Bool) : State :=
  let s := if post then postReset s p ((freeAction s 0 2).getD 3) 2000 else s
  let s := resetTimers (discardWork (holdCores s p) p) p
  let s := dropActions s fun a => actionOf s (compNo p) a && a.act != 8
  let s := (groupsOf s (compNo p)).foldl idleMembers s
  modComp s p fun c => { c with abort := c.abort.map fun a => { a with orderly := true } }

/-- Whether a state lets an abort start (15 R371, 16 Table 16.1). -/
def abortable (st : CState) : Bool :=
  match st with
  | .created | .running | .quiescing | .quiesced => true
  | _ => false

/-- An abort starts (15 R371): the hardware sets `RUN` and the timer. A command that executes on the compartment completes with
`STATE` (15 R378); a schedule of its own that still posts goes with it. -/
def beginAbort (s : State) (p : CompId) (byCmd : Bool) : State :=
  let s := { s with mbx := { s.mbx with abRun := bvSet s.mbx.abRun p.val true } }
  let s := modComp s p fun c =>
    { c with
      abortDue := false
      abort := some { start := s.now, forced := false, byCmd := byCmd, joined := false, orderly := false,
                             lost := s.lk.restarting } }
  let s := setCompState s p .aborting
  match s.lk.cur with
  | some cmd =>
    if !(byCmd && cmd.opcode == 0x0024) && !s.lk.restarting && cmd.comp.toNat == p.val then respond { s with weir := { s.weir with sched := none } } 0x05 0 []
    else s
  | none => s

/-- An abort starts, and the Lockkeeper, where it runs, goes on with the orderly abort. -/
def startAbort (s : State) (p : CompId) (byCmd fromAction : Bool) : State :=
  if p = 0 ∨ !abortable (getComp s p).st then s
  else
    let s := beginAbort s p byCmd
    if s.lk.restarting then s else orderlyAbort s p (!fromAction)

/-- The forced path (15 R371): the hub resets the compartment in hardware and posts through entry 3. -/
def forceAbort (s : State) (p : CompId) : State :=
  let s := resetTimers (discardWork (holdCores s p) p) p
  let s := postReset s p 3 0
  modComp s p fun c => { c with abort := c.abort.map fun a => { a with forced := true } }

/-- The abort completes (15 R372); what the orderly abort has still to do comes first. -/
def finishAbort (s : State) (p : CompId) (a : Abort) : State :=
  let s := if a.forced || a.orderly then s else orderlyAbort s p false
  let s := dropTlbs s p
  let s := setCompState (modComp s p fun c => { c with abort := none }) p .aborted
  let s := { s with mbx := { s.mbx with
    abRun := bvSet s.mbx.abRun p.val false
    abDone := bvSet s.mbx.abDone p.val true
    abForced := if a.forced then bvSet s.mbx.abForced p.val true else s.mbx.abForced } }
  let s := mbxIrq s 2
  let waits := (a.byCmd || a.joined) && !s.lk.restarting && s.lk.cur.any fun c => c.opcode == 0x0024 && c.comp.toNat == p.val
  let seq := if waits then (s.lk.cur.map (·.seq)).getD 0 else 0
  let s := postEvent s 0x0005 p.val seq (BitVec.ofNat 64 a.forced.toNat)
  if waits then (if a.byCmd && a.forced then respond s 0x07 1 [] else respond s 0x00 0 []) else s

end Sys2Proof.Machine
end

