-- ==== Sys2Proof/Machine/MachineCheck.lean ====
section
/-! DEFINITION. The aborts that follow a machine check of a whole compartment (12 R317 step 5, 18 R424). -/

namespace Sys2Proof.Machine

/-- An abort that is due starts, unless one runs already or the Lockkeeper restarts. -/
def dueAbort (s : State) (p : CompId) : State :=
  if (getComp s p).abortDue && !s.lk.restarting then
    startAbort (modComp s p fun x => { x with abortDue := false }) p false false
  else s

/-- The Lockkeeper's turn: every abort that lost state calls for starts (R317, 18 R424). -/
def dueAborts (s : State) : State := allComps.foldl dueAbort s

end Sys2Proof.Machine
end

