-- ==== Sys2Proof/Machine/Maintenance.lean ====
section
/-! DEFINITION. The maintenance engines (12 R321 to R326), the L2 control pages (R319, R320) and the conversion of Carafe
ways (R328). -/

namespace Sys2Proof.Machine

/-! ## The register page (Table 12.8) -/

/-- A write of `MNT_OP` starts or queues an operation (R322). -/
def mntStart (s : State) (k : ClusterId) (p : CompId) (op : W64) : State :=
  let free := (s.mnt.get k).queue.isEmpty
  let s := modMnt s k p fun m => { m with
    op := op, busy := free, queued := !free, done := false, result := 0, mode := false, lines := 0, acted := false,
    outcome := 0, count := 0 }
  modMntEng s k fun e => { e with queue := e.queue ++ [p] }

def mntStatus (m : Mnt) : W64 :=
  BitVec.ofNat 64 (m.busy.toNat + 2 * m.queued.toNat + 4 * m.done.toNat + 8 * m.rej.toNat + 16 * m.result.toNat
    + 256 * m.mode.toNat + 2 ^ 32 * m.lines.toNat)

/-- A read of the page of compartment `p`. -/
def mntRead (s : State) (k : ClusterId) (p : CompId) (off : Nat) : W64 :=
  let m := getMnt s k p
  match off with
  | 0x000 => m.start
  | 0x008 => m.stop
  | 0x010 => m.op
  | 0x018 => mntStatus m
  | _ => 0

/-- The bits of `MNT_START` and `MNT_END` that exist. -/
def mntPaMask : W64 := 0xFFFFFFFFFC0

/-- A write of the page of compartment `p`, with byte enables (11 R456). -/
def mntWrite (s : State) (k : ClusterId) (p : CompId) (off : Nat) (be : Byte) (v : W64) : State :=
  let m := getMnt s k p
  let held := m.busy || m.queued
  let reject := modMnt s k p fun m => { m with rej := true }
  match off with
  | 0x000 => if held then reject else modMnt s k p fun m => { m with start := mergeBytes m.start v be &&& mntPaMask }
  | 0x008 => if held then reject else modMnt s k p fun m => { m with stop := mergeBytes m.stop v be &&& mntPaMask }
  | 0x010 =>
    let op := mergeBytes m.op v be &&& 0xF
    if held then reject
    else if fld op 0 3 = 0 then modMnt s k p fun m => { m with op := op }
    else mntStart s k p op
  | 0x018 =>
    let w1 := v &&& byteMask be
    modMnt s k p fun m => { m with
      done := m.done && !bit w1 2, rej := m.rej && !bit w1 3, irqPend := m.irqPend && !bit w1 2 }
  | _ => s

/-! ## The operations (R323, Table 12.10) -/

/-- Where a range lies. -/
inductive MntRange where
  | bad
  | empty
  | dram (lo hi : Nat)
  | carafe (k : ClusterId) (lo hi : Nat)
deriving DecidableEq, Repr

/-- The range of an operation: offsets of the device's DRAM, or of a Carafe window. -/
def mntRange (s : State) (m : Mnt) : MntRange :=
  let a := m.start.toNat
  let b := m.stop.toNat
  if b < a then .bad
  else if a = b then .empty
  else match classify s (BitVec.ofNat 44 a), classify s (BitVec.ofNat 44 (b - 64)) with
    | .dram lo, .dram hi => .dram lo (hi + 64)
    | .carafe i lo, .carafe j hi => if i = j then .carafe i lo (hi + 64) else .bad
    | _, _ => .bad

/-- Whether a range of DRAM lies in a compartment's memory, unit by unit (16 R385). -/
def dramFence (s : State) (comp : BitVec 4) (lo hi : Nat) : Bool :=
  ((List.range ((hi - 1) / 0x40000000 + 1)).drop (lo / 0x40000000)).all fun u => fenceOk s comp (u * 0x40000000)

/-- Whether a range of a Carafe window lies in ways that a compartment owns (R327). -/
def carafeFence (s : State) (k : ClusterId) (comp : BitVec 4) (lo hi : Nat) : Bool :=
  ((List.range (carafeWay (hi - 1) + 1)).drop (carafeWay lo)).all fun w => carafeOk s k comp (w * 0x40000)

/-- A range longer than 8 MiB is worked through by set. -/
def bySet (lo hi : Nat) : Bool := decide (0x800000 < hi - lo)

/-- The way of an L2 that is converting between cache and Carafe (R328). -/
def convertingWay (l : L2) : Option Nat :=
  if !l.busy then none
  else if l.cur < l.carafeN then some (8 + l.cur.toNat)
  else if l.carafeN < l.cur then some (7 + l.cur.toNat)
  else none

/-- Put a line number in its place in an ascending list, once. -/
def insertLine (a : Nat) : List Nat → List Nat
  | [] => [a]
  | b :: l => if a < b then a :: b :: l else if a = b then b :: l else b :: insertLine a l

/-- The lines of a range that an L2 holds, ascending, each once: in the compartment's memory where the work is by set, and then not in
a way that converts (R326). -/
def heldLines (s : State) (comp : BitVec 4) (lo hi : Nat) : List Nat :=
  let inRange (line : Nat) : Bool :=
    decide (lo ≤ lineOff line) && decide (lineOff line < hi) && fenceOk s comp (lineOff line)
      && decide (classify s (BitVec.ofNat 44 (line * 64)) = .dram (lineOff line))
  let all := allClusters.flatMap fun k =>
    (((l2Of s k).lines.filter fun e => !(bySet lo hi && convertingWay (l2Of s k) == some (e.1 % 16))).map (·.2.line)).filter inRange
  all.foldr insertLine []

/-- Whether some L2 holds a line as M. -/
def heldM (s : State) (line : Nat) : Bool := allClusters.any fun k => ((l2Get? s k line).map (·.st)) == some .m

/-- Write back every M copy of a line. -/
def cleanLine (s : State) (line : Nat) : State := (holders s line).foldl (fun s k => l2Clean s k line) s

/-- Invalidate every copy of a line, M data discarded. -/
def invalLine (s : State) (line : Nat) : State := (holders s line).foldl (fun s k => l2Drop s k line) s

/-- An upset strikes the M copy of a line. -/
def upsetLine (s : State) (line : Nat) : State :=
  (holders s line).foldl (fun s k => l2Put s k line fun x => if x.st = .m then { x with bad := x.bad ||| 1 } else x) s

/-- The cluster whose copy of a line reads as a dirty-line error (Table 12.4). -/
def lostAt (s : State) (line : Nat) : Option ClusterId :=
  (holders s line).find? fun k => match l2Get? s k line with
    | some x => x.sbad || (x.bad != 0 && x.st == .m)
    | none => false

/-- The operation has done its work. -/
def mntActed (s : State) (k : ClusterId) (p : CompId) (outcome : BitVec 4) (count : Nat) (set : Bool) : State :=
  modMnt s k p fun m => { m with acted := true, outcome := outcome, count := BitVec.ofNat 32 count, mode := set }

/-- Work through the held lines of a range: what is done to a line, and whether a line counts; `dirty` is a line that an upset strikes.
The walk ends at a line that it finds lost (R324). -/
def overLines (s : State) (k : ClusterId) (p : CompId) (lo hi : Nat) (counts : State → Nat → Bool)
    (act : State → Nat → State) (dirty : Option (BitVec 44)) : State :=
  let s := match dirty with
    | some pa => upsetLine s (lineOf pa)
    | none => s
  let lines := heldLines s (compNo p) lo hi
  let lost := lines.find? fun d => (lostAt s d).isSome
  let todo := match lost with
    | some d => lines.filter (· < d)
    | none => lines
  let n := (todo.filter (counts s)).length
  let s' := todo.foldl act s
  match lost with
  | some d => l2Check (mntActed s' k p 4 n (bySet lo hi)) ((lostAt s d).getD k) d
  | none => mntActed s' k p 0 n (bySet lo hi)

/-- An operation on copies, with the checks of Table 12.9. -/
def copiesOp (s : State) (k : ClusterId) (p : CompId) (counts : State → Nat → Bool) (act : State → Nat → State)
    (dirty : Option (BitVec 44)) : State :=
  match mntRange s (getMnt s k p) with
  | .bad => mntActed s k p 1 0 false
  | .empty => mntActed s k p 0 0 false
  | .carafe j lo hi => mntActed s k p (if carafeFence s j (compNo p) lo hi then 0 else 2) 0 false
  | .dram lo hi =>
    if !bySet lo hi && !dramFence s (compNo p) lo hi then mntActed s k p 2 0 false
    else overLines s k p lo hi counts act dirty

/-- Words of DRAM set to `UNINIT` 0: the words of [lo, hi) that are listed go (R42). -/
def dramUninit (s : State) (lo hi : Nat) : State :=
  { s with dram := { s.dram with words := s.dram.words.filter fun w => w.1 < lo / 8 || hi / 8 ≤ w.1 } }

def carafeUninit (s : State) (k : ClusterId) (lo hi : Nat) : State :=
  modL2 s k fun l => { l with
    carafe := l.carafe.filter fun w => w.1 < lo / 8 || hi / 8 ≤ w.1, cbad := l.cbad.filter fun w => w.1 < lo / 8 || hi / 8 ≤ w.1 }

/-- `TAGINIT`: a write to memory that is not installed, or the Lockkeeper's to a way that is not Carafe, fails. -/
def taginitOp (s : State) (k : ClusterId) (p : CompId) : State :=
  match mntRange s (getMnt s k p) with
  | .bad => mntActed s k p 1 0 false
  | .empty => mntActed s k p 0 0 false
  | .carafe j lo hi =>
    if carafeFence s j (compNo p) lo hi then mntActed (carafeUninit s j lo hi) k p 0 ((hi - lo) / 64) false
    else if p = 0 then
      let top := min hi ((l2Of s j).cur.toNat * 0x40000)
      mntActed (carafeUninit s j lo top) k p 3 ((top - lo) / 64) false
    else mntActed s k p 2 0 false
  | .dram lo hi =>
    if !dramFence s (compNo p) lo hi then mntActed s k p 2 0 false
    else
      let top := min hi (s.dram.units * 0x40000000)
      let s := dramUninit ((heldLines s (compNo p) lo top).foldl invalLine s) lo top
      mntActed s k p (if top = hi then 0 else 3) ((top - lo) / 64) false

/-- Whether the engine is to carry out operation `op` of a compartment. -/
def mntDue (s : State) (k : ClusterId) (p : CompId) (op : Nat) : Bool :=
  let m := getMnt s k p
  m.busy && !m.acted && fld m.op 0 3 == op && (s.mnt.get k).queue.head? == some p

/-- CLEAN (R323). -/
def execClean (k : ClusterId) (p : CompId) (dirty : Option (BitVec 44)) (s : State) :
    Host.Outcome State Fault Refusal :=
  .next (if mntDue s k p 1 then copiesOp s k p heldM cleanLine dirty else s)

/-- INVAL (R323). -/
def execInval (k : ClusterId) (p : CompId) (s : State) : Host.Outcome State Fault Refusal :=
  .next (if mntDue s k p 2 then copiesOp s k p (fun _ _ => true) invalLine none else s)

/-- CLEAN_INVAL (R323). -/
def execCleanInval (k : ClusterId) (p : CompId) (dirty : Option (BitVec 44)) (s : State) :
    Host.Outcome State Fault Refusal :=
  .next (if mntDue s k p 3 then copiesOp s k p (fun _ _ => true) (fun s l => invalLine (cleanLine s l) l) dirty else s)

/-- TAGINIT (R323). -/
def execTaginit (k : ClusterId) (p : CompId) (s : State) : Host.Outcome State Fault Refusal :=
  .next (if mntDue s k p 4 then taginitOp s k p else s)

/-- MAINTENANCE_QUEUED_START (R322): the oldest operation that waits starts on a free engine. -/
def execMaintenanceQueuedStart (k : ClusterId) (s : State) : Host.Outcome State Fault Refusal :=
  match (s.mnt.get k).queue.head? with
  | some p =>
    if (getMnt s k p).queued then .next (modMnt s k p fun m => { m with busy := true, queued := false }) else .next s
  | none => .next s

/-- MAINTENANCE_COMPLETE (R322): the operation that runs completes; an unassigned `OP` is `BAD`. The interrupt source follows
`DONE` and `IRQ`. -/
def execMaintenanceComplete (k : ClusterId) (s : State) : Host.Outcome State Fault Refusal :=
  match (s.mnt.get k).queue.head? with
  | some p =>
    let m := getMnt s k p
    let unassigned := decide (5 ≤ fld m.op 0 3)
    if m.busy ∧ (m.acted ∨ unassigned) then
      let res : BitVec 4 := if unassigned then 1 else m.outcome
      let s := modMnt s k p fun m => { m with
        busy := false, done := true, result := res, lines := m.count, acted := false, irqPend := m.irqPend || bit m.op 3 }
      let s := modMntEng s k fun e => { e with queue := e.queue.drop 1 }
      .next (if res = 3 then logErr s 0x0B 1 p.val k.val 0 3 else s)
    else .next s
  | none => .next s

/-! ## L2 control (R319, R320) -/

/-- A request for `ON`. -/
def l2On (s : State) (k : ClusterId) : State :=
  modL2 s k fun l => match l.st with
    | .off => { l with st := .on, lines := [] }
    | .draining => { l with st := .on }
    | .on => l

/-- A request for `OFF`. -/
def l2Off (s : State) (k : ClusterId) : State :=
  modL2 s k fun l => if l.st = .on then { l with st := .draining } else l

/-- L2_REQ_ON (R320). -/
def execL2ReqOn (k : ClusterId) (s : State) : Host.Outcome State Fault Refusal := .next (l2On s k)

/-- L2_REQ_OFF (R320). -/
def execL2ReqOff (k : ClusterId) (s : State) : Host.Outcome State Fault Refusal := .next (l2Off s k)

/-- L2_DRAIN_COMPLETE (R320): the walker has written back every M line; every way and every L1 copy is invalidated. -/
def execL2DrainComplete (k : ClusterId) (s : State) : Host.Outcome State Fault Refusal :=
  if (l2Of s k).st = .draining then
    let s := ((l2Of s k).lines.map (·.2.line)).foldl (fun s line => l2Evict s k line) s
    .next (modL2 s k fun l => { l with st := .off, lines := [] })
  else .next s

/-- A write of `L2_CARAFE.N`: 9 to 15 is ignored; the L2 converts until `CUR` = `N` (R328). -/
def setCarafeN (s : State) (k : ClusterId) (n : BitVec 4) : State :=
  if 8 < n then s else modL2 s k fun l => { l with carafeN := n, busy := l.cur != n }

/-- L2_CARAFE_WRITE (R328). -/
def execL2CarafeWrite (k : ClusterId) (n : BitVec 4) (s : State) : Host.Outcome State Fault Refusal :=
  .next (setCarafeN s k n)

/-- A Carafe line of this device: its cluster and its first offset. -/
def carafeLine (s : State) (line : Nat) : Option (ClusterId × Nat) :=
  match classify s (BitVec.ofNat 44 (line * 64)) with
  | .carafe k o => some (k, o)
  | _ => none

/-- Every L1I line filled from Carafe way `w` of cluster `k` is invalidated, in every core (R329). -/
def dropCarafeCode (s : State) (k : ClusterId) (w : Nat) : State :=
  let stays (line : Nat) : Bool := match carafeLine s line with
    | some (j, o) => !(j == k && carafeWay o == w)
    | none => true
  allCores.foldl (fun s c => modL1 s c fun l => { l with icache := l.icache.filter fun e => stays e.2.line }) s

/-- Every word of a Carafe way becomes `UNINIT` 0. -/
def clearCarafeWay (l : L2) (w : Nat) : L2 :=
  { l with carafe := l.carafe.filter fun e => e.1 / 32768 != w, cbad := l.cbad.filter fun e => e.1 / 32768 != w }

/-- Evict every line of an L2 way. -/
def evictWay (s : State) (k : ClusterId) (way : Nat) : State :=
  (((l2Of s k).lines.filter fun e => e.1 % 16 == way).map (·.2.line)).foldl (fun s line => l2Evict s k line) s

/-- CARAFE_WAY_CONVERTED (R328): the way that converts has become Carafe, or cache again. -/
def execCarafeWayConverted (k : ClusterId) (s : State) : Host.Outcome State Fault Refusal :=
  let l := l2Of s k
  let cur := l.cur.toNat
  if !l.busy then .next s
  else if l.cur < l.carafeN then
    let s := dropCarafeCode (evictWay s k (8 + cur)) k cur
    .next (modL2 s k fun l => { clearCarafeWay l cur with cur := l.cur + 1, busy := l.cur + 1 != l.carafeN })
  else if l.carafeN < l.cur then
    let s := dropCarafeCode s k (cur - 1)
    .next (modL2 s k fun l => { clearCarafeWay l (cur - 1) with cur := l.cur - 1, busy := l.cur - 1 != l.carafeN })
  else .next (modL2 s k fun l => { l with busy := false })

/-! ## The L2 control page (Table 12.6) -/

def l2CtlRead (s : State) (k : ClusterId) (off : Nat) : W64 :=
  let l := l2Of s k
  match off with
  | 0x000 => match l.st with
    | .off => 0
    | .on => 1
    | .draining => 2
  | 0x008 => BitVec.ofNat 64 (l.carafeN.toNat + 16 * l.busy.toNat + 256 * l.cur.toNat)
  | 0x010 => l.cown.setWidth 64
  | _ => 0

/-- A write of the page by the Lockkeeper. -/
def l2CtlWrite (s : State) (k : ClusterId) (off : Nat) (be : Byte) (v : W64) : State :=
  let w := v &&& byteMask be
  match off with
  | 0x000 => if fld w 2 2 = 1 then l2On s k else if fld w 2 2 = 2 then l2Off s k else s
  | 0x008 => if bit be 0 then setCarafeN s k (BitVec.ofNat 4 (fld v 0 4)) else s
  | 0x010 => modL2 s k fun l => { l with cown := (mergeBytes (l.cown.setWidth 64) v be).setWidth 32 }
  | _ => s

end Sys2Proof.Machine
end

