-- ==== Sys2Proof/Machine/PercMem.lean ====
section
/-! DEFINITION. A Percolator's memory (07 R185 to R187): fenced coherent accesses, translation through `PRC_PTBASE`, the
tables it keeps off the heap, region table entries, and finding the object that holds an address. -/

namespace Sys2Proof.Machine

/-- Why an engine's work stops: with a result code (Table 7.5), to wait for what is not there yet, to wait with what it has done so
far standing, or to ask another device. -/
inductive EStop where
  | code (n : Byte)
  | wait
  | parked
  | ask (a : EngAsk)
deriving DecidableEq, Repr

/-- Which unit of which engine works. -/
structure EngCtx where
  eng : ClusterId
  part : EngUnit

/-- What an engine does for a command or a request. -/
abbrev EM := ReaderT EngCtx (EStateM EStop State)

def liftE {α : Type} (m : DM α) : EM α := fun _ s => .ok (m s).1 (m s).2

def stopE {α : Type} (n : Byte) : EM α := fun _ s => .error (.code n) s

def waitE {α : Type} : EM α := fun _ s => .error .wait s

def emod (f : State → State) : EM Unit := fun _ s => .ok () (f s)

def eget : EM State := fun _ s => .ok s s

def ectx : EM EngCtx := fun w s => .ok w s

/-! ## What other devices answer (R194, R197; 17 R410 to R412) -/

/-- Whether a question can reach its device: there is a route, and for a Xitex request the compartment holds credits on it (17 R411). -/
def canAsk (s : State) (p : CompId) : EngAsk → Bool
  | .access _ pa _ _ _ => match firstHop s (paDev pa) pa with
    | some (x, _) => p == 0 || creditsHeld s (compNo p) x != 0
    | none => false
  | .forward _ pa _ => (firstHop s (paDev pa) 0).isSome
  | .outside _ pa => (firstHop s (paDev pa) 0).isSome

/-- The answer that a unit has to a question; none while it has not asked. -/
def gotOf (s : State) (w : EngCtx) (p : CompId) (a : EngAsk) : Option EngGot :=
  (getEng s w.eng).got.find? fun g => g.comp == compNo p && g.unit == w.part && g.ask == a

/-- The words that another device answers to a question; the work stops until they are there. -/
def engAsk (p : CompId) (a : EngAsk) : EM (List Word) := fun w s =>
  match gotOf s w p a with
  | some g => match g.ans with
    | some (code, ws) => if code = 0 then .ok ws s else .error (.code code) s
    | none => .error .wait s
  | none => if canAsk s p a then .error (.ask a) s else .error (.code 0x06) s

/-- Send a `MSG` that carries a question on to its device. -/
def sendAsk (s : State) (w : EngCtx) (p : CompId) (no : Nat) : EngAsk → State
  | .access _ _ _ _ _ => s
  | .forward va pa pt =>
    sendMsg s (paDev pa) (compNo p) (Config.msgBody 2 [w.eng.val, no, va.toNat, pa.toNat, pt])
  | .outside va pa => sendMsg s (paDev pa) (compNo p) (Config.msgBody 5 [w.eng.val, no, va.toNat, pa.toNat])

/-- Put a question to another device; a Xitex request that finds no credit is put again when the work is taken up again. -/
def putAsk (s : State) (w : EngCtx) (p : CompId) (a : EngAsk) : State :=
  let no := (getEng s w.eng).askNo + 1
  let note (s : State) : State := modEng s w.eng fun e => { e with
    askNo := no, got := e.got ++ [{ comp := compNo p, unit := w.part, no := no, ask := a, ans := none }] }
  match a with
  | .access typ pa wmask nline body =>
    match issueRemote { user := .engine w.eng w.part, comp := compNo p, typ := typ, pa := pa, bytemask := 0xFF, wmask := wmask,
                        nline := nline, bodytag := true, cls := false, body := body } s with
    | (.sent _, s) => note s
    | (_, s) => s
  | a => sendAsk (note s) w p no a

/-- Lines that a unit has read from another device stay with it until it leaves their block; every other answer serves one piece of
work. -/
def EngAsk.isBlock : EngAsk → Bool
  | .access typ _ _ _ _ => typ == 1 || typ == 2
  | _ => false

/-- A unit drops what it has been answered that satisfies a test. -/
def dropGot (s : State) (w : EngCtx) (p : CompId) (f : EngAsk → Bool) : State :=
  let mine (g : EngGot) : Bool := g.comp == compNo p && g.unit == w.part && f g.ask
  if (getEng s w.eng).got.any mine then modEng s w.eng fun e => { e with got := e.got.filter fun g => !mine g } else s

def forget (s : State) (w : EngCtx) (p : CompId) : State := dropGot s w p fun a => !a.isBlock

/-- What comes of a piece of an engine's work: it is done, stops with a result code, or waits. -/
inductive EngOut (α : Type) where
  | done (a : α) (s : State)
  | stop (n : Byte) (s : State)
  | wait (s : State)

/-- Carry out a piece of work: all of it or, where it has to wait, nothing but the question that it asks and the claim that it has
made. -/
def engRun {α : Type} (m : EM α) (w : EngCtx) (p : CompId) (s : State) : EngOut α :=
  match m w s with
  | .ok a t => .done a (forget t w p)
  | .error (.code n) t => .stop n (forget t w p)
  | .error .wait _ => .wait s
  | .error .parked t => .wait t
  | .error (.ask a) _ => .wait (putAsk s w p a)

/-! ## Accesses (16 R385) -/

/-- The DRAM offset of a local address that the engine may access for a compartment. -/
def engOff (p : CompId) (pa : BitVec 44) : EM Nat := fun _ s =>
  match classify s pa with
  | .dram o =>
    if !fenceOk s (compNo p) o then .error (.code 0x08) s
    else if !installed s o then .error (.code 0x06) s
    else .ok o s
  | _ => .error (.code 0x08) s

/-- A word of a line or bulk that a unit has read from another device. -/
def blockWord? (s : State) (w : EngCtx) (p : CompId) (pa : BitVec 44) : Option Word :=
  (getEng s w.eng).got.findSome? fun g =>
    match g.ask, g.ans with
    | .access typ base _ _ _, some (0, ws) =>
      if g.comp == compNo p && g.unit == w.part && (typ == 1 || typ == 2) && base.toNat ≤ pa.toNat then
        ws[(pa.toNat - base.toNat) / 8]?
      else none
    | _, _ => none

/-- Read a word as every coherent reader sees it. -/
def engRead (k : ClusterId) (p : CompId) (pa : BitVec 44) : EM Word := do
  let pa := pa &&& ~~~7#44
  if paDev pa ≠ (← eget).devid then
    match blockWord? (← eget) (← ectx) p pa with
    | some w => return w
    | none => return (← engAsk p (.access 0 pa 0 0 [])).headD uninit
  else
    let _ ← engOff p pa
    let ws ← liftE fun s => l2Fill k (compWays s k (compNo p)) (lineOf pa) false .demand s
    return ws.getD (fld pa 3 3) uninit

/-- Write words of one line coherently, whole. -/
def engWriteLine (k : ClusterId) (p : CompId) (ws : List WordWrite) : EM Unit := do
  match ws with
  | [] => return
  | w :: _ =>
    if paDev w.pa ≠ (← eget).devid then
      match ws with
      | [w] => do let _ ← engAsk p (.access 3 w.pa 0 0 [w.w])
      | _ => do
        let mask := ws.foldl (fun m w => bvSet m (fld w.pa 3 3) true) (0 : Byte)
        let _ ← engAsk p (.access 4 (w.pa &&& ~~~63#44) mask 0 (applyLine (List.replicate 8 uninit) ws))
    else
      let _ ← engOff p w.pa
      emod fun s => l2Store s k (compWays s k (compNo p)) ws

/-- Write a whole word coherently. -/
def engWrite (k : ClusterId) (p : CompId) (pa : BitVec 44) (w : Word) : EM Unit := engWriteLine k p [wholeWrite pa w]

/-- Write whole lines of one aligned block of 512 bytes (17 R407). -/
def engWriteBlock (k : ClusterId) (p : CompId) (pa : BitVec 44) (ws : List Word) : EM Unit := do
  let n := ws.length / 8
  if paDev pa ≠ (← eget).devid ∧ 1 < n then
    let _ ← engAsk p (.access 5 pa 0 (BitVec.ofNat 3 (n - 1)) ws)
  else
    (List.range n).forM fun l => engWriteLine k p ((List.range 8).map fun i =>
      wholeWrite (pa + BitVec.ofNat 44 (64 * l + 8 * i)) (ws.getD (8 * l + i) uninit))

/-- Compare a word on all its 72 bits and replace it where it is as expected, in one step at its home (06 R160, 12 R314). -/
def engCas (k : ClusterId) (p : CompId) (pa : BitVec 44) (old new : Word) : EM Bool := do
  if paDev pa ≠ (← eget).devid then return (← engAsk p (.access 6 pa 0 0 [old, new])) == [trueW]
  else
    let _ ← engOff p pa
    let ws ← liftE fun s => l2Fill k (compWays s k (compNo p)) (lineOf pa) true .demand s
    if ws.getD (fld pa 3 3) uninit = old then
      emod fun s => l2Store s k (compWays s k (compNo p)) [wholeWrite pa new]
      return true
    else return false

/-- Write a word of a table. -/
def tabWrite (k : ClusterId) (p : CompId) (pa : BitVec 44) (v : W64) : EM Unit := engWrite k p pa (bytesW v)

/-- Read a word of a table: `POISON` ends the work; a word that is not `BYTES` is left open by the spec. -/
def tabRead (k : ClusterId) (p : CompId) (pa : BitVec 44) : EM W64 := do
  let w ← engRead k p pa
  if w.tag = 0x08 then stopE 0x07
  if w.tag = 0x06 then return w.payload
  return Config.tableWord (← liftE fresh)

/-! ## Translation (R185) -/

/-- A page table word as an engine reads it: none where the fence refuses it. -/
def engTableRead (k : ClusterId) (p : CompId) : TableReader := fun pa s =>
  if installed s (paOff pa) && fenceOk s (compNo p) (paOff pa) then
    let (ws, s) := l2Fill k (compWays s k (compNo p)) (lineOf pa) false .demand s
    (some (ws.getD (fld pa 3 3) uninit), s)
  else (none, s)

/-- Enter a translation in the engine's TLB of 64 entries. -/
def engTlbPut (e : TlbEntry) (k : ClusterId) : DM Unit := fun s =>
  let m := (getEng s k).tlb
  match (List.range 64).find? fun i => (smGet? m i).isNone with
  | some i => ((), modEng s k fun g => { g with tlb := smSet g.tlb i e })
  | none =>
    let (n, s) := fresh s
    ((), modEng s k fun g => { g with tlb := smSet g.tlb (Config.choice n % 64) e })

/-- The entries of a compartment leave the engine's TLB: `PRC_HEAP` or `PRC_PTBASE` is written. -/
def engTlbDrop (s : State) (k : ClusterId) (p : CompId) : State :=
  modEng s k fun e => { e with tlb := e.tlb.filter fun t => t.2.comp != compNo p }

/-- An entry that a lookup reads with bad parity is invalidated and logged, and the address walked again (18 Table 18.1 class 0x03). -/
def engTlbParity (k : ClusterId) (p : CompId) (va : W64) (s : State) : State :=
  let hit (t : Nat × TlbEntry) : Bool := t.2.bad && tlbMatch t.2 (compNo p) (getPerc s k p).sid va
  if (getEng s k).tlb.any hit then
    logParity (modEng s k fun e => { e with tlb := e.tlb.filter fun t => !hit t }) k (compNo p) 0
  else s

/-- The TLB entry of a heap address: from the TLB or by a walk. -/
def engLookup (k : ClusterId) (p : CompId) (va : W64) : EM TlbEntry := do
  emod (engTlbParity k p va)
  let e := getPerc (← eget) k p
  if !bit e.ptbase 0 then stopE 0x05
  match ← liftE (tlbFind (getEng (← eget) k).tlb (compNo p) e.sid va) with
  | some t => return t
  | none =>
    match ← liftE (walk (engTableRead k p) va 3 (ptePfn e.ptbase)) with
    | .error (.fault 0x07 _ _ _) => stopE 0x08
    | .error _ => stopE 0x05
    | .ok (level, pte) => do
      let t : TlbEntry := { comp := compNo p, sid := e.sid, vpn := BitVec.ofNat 36 (fld va 12 36),
                            level := Fin.ofNat 3 level, pte := pte, bad := false }
      liftE (engTlbPut t k)
      return t

/-- Translate a heap address; the engine never sets A or D and never traps. -/
def engXlate (k : ClusterId) (p : CompId) (va : W64) (write : Bool) : EM Xlat := do
  let va := va48 va
  let t ← engLookup k p va
  let x : Xlat := { pa := entryPa t va, mt := pteMt t.pte, rattr := pteRattr t.pte, level := t.level.val }
  if !pteA t.pte || (write && !pteD t.pte) || x.mt != .cached then stopE 0x05
  return x

/-- The address of the leaf that maps an address, from the table at `q` of a level down to `target`. -/
def leafAddr (k : ClusterId) (p : CompId) (va : W64) (target : Nat) : Nat → BitVec 44 → EM (BitVec 44)
  | level, q => do
    let a := q + BitVec.ofNat 44 (8 * walkIndex va level)
    if level ≤ target then return a
    match level with
    | 0 => return a
    | n + 1 => leafAddr k p va target n (ptePfn (← tabRead k p a))

/-- Write `STATE` into the leaf entry of a region that one 2 MiB leaf maps (R196, R202). -/
def setLeafState (k : ClusterId) (p : CompId) (va : W64) (st : Nat) : EM Unit := do
  let e := getPerc (← eget) k p
  let a ← leafAddr k p (va48 va) 1 3 (ptePfn e.ptbase)
  tabWrite k p a (setFld (← tabRead k p a) 47 3 st)

/-! ## Region table entries (R186) -/

/-- A region of this device's DRAM as its entry describes it; `kind` 0 is served by no engine. -/
structure Region where
  base : BitVec 44
  entry : BitVec 44
  kind : Nat
  rescan : Bool
  vbase : W64
  bitmap : BitVec 44
  flog2 : Nat
  fwd : BitVec 44
  lhdr : W64
  snapdst : BitVec 44
  cardmap : BitVec 44
deriving DecidableEq, Repr

/-- Physical region number PA[38:21]. -/
def regionNo (pa : BitVec 44) : Nat := fld pa 21 18

/-- What the eight words of an entry say of the region of an address; `kind` 0 where they are not well formed. -/
def regionOfWords (pa entry : BitVec 44) (ws : List Word) : Region :=
  let w (i : Nat) : W64 := ((ws[i]?).map (·.payload)).getD 0
  let kind := fld (w 0) 0 2
  let fl := fld (w 2) 0 5
  let ok := ws.all (fun w => w.tag == 0x06) && (kind == 3 || (4 ≤ fl && fl ≤ 18))
  let at' (i lo : Nat) : BitVec 44 := BitVec.ofNat 44 (fld (w i) lo (44 - lo) * 2 ^ lo)
  { base := BitVec.ofNat 44 (pa.toNat / 2 ^ 21 * 2 ^ 21), entry := entry, kind := if ok then kind else 0,
    rescan := bit (w 0) 2, vbase := BitVec.ofNat 64 (fld (w 0) 21 27 * 2 ^ 21), bitmap := at' 1 15,
    flog2 := fl, fwd := at' 2 8, lhdr := BitVec.ofNat 64 (fld (w 2) 0 48), snapdst := at' 4 21,
    cardmap := at' 5 9 }

/-- Read the region table entry of a local address. -/
def regionOf (k : ClusterId) (p : CompId) (pa : BitVec 44) : EM Region := do
  let _ ← engOff p (pa &&& ~~~7#44)
  let a := (getPerc (← eget) k p).rtab + BitVec.ofNat 44 (64 * regionNo pa)
  let ws ← (List.range 8).mapM fun i => engRead k p (a + BitVec.ofNat 44 (8 * i))
  if ws.any fun w => w.tag == 0x08 then stopE 0x07
  return regionOfWords pa a ws

/-- Whether an address lies in a region. -/
def inRegion (r : Region) (va : W64) : Bool := va.toNat / 2 ^ 21 == r.vbase.toNat / 2 ^ 21

/-- The word offset of an address in its region. -/
def wordOff (va : W64) : Nat := fld va 3 18

/-- A heap word as it stands: in the region by its base, elsewhere by translation. -/
def heapWord (k : ClusterId) (p : CompId) (r : Region) (va : W64) : EM Word := do
  if inRegion r va then engRead k p (r.base + BitVec.ofNat 44 (8 * wordOff va))
  else
    engRead k p (← engXlate k p va false).pa

/-! ## Objects (R187) -/

/-- The bytes of an object that a header starts. -/
def headerBytes (h : Word) : Nat := (8 * (1 + hdrLen h) + 15) / 16 * 16

/-- The size of the object that starts at an address. -/
def objBytes (k : ClusterId) (p : CompId) (r : Region) (s : W64) : EM Nat := do
  if r.kind = 2 then return 16
  let h ← heapWord k p r s
  return if h.tag = 0x04 then headerBytes h else 16

/-- The nearest set bit of the bitmap in its first `n` words, the last of them masked to its bits at or below `top`. -/
def bitBelow (k : ClusterId) (p : CompId) (r : Region) : Nat → Nat → EM (Option Nat)
  | 0, _ => return none
  | n + 1, top => do
    let v := (← tabRead k p (r.bitmap + BitVec.ofNat 44 (8 * n))).toNat % 2 ^ (top + 1)
    if v ≠ 0 then return some (64 * n + v.log2)
    bitBelow k p r n 63

/-- The nearest `HEADER` at or below an address, at 16-byte steps down to the region's start, whose extent covers it. -/
def headerBelow (k : ClusterId) (p : CompId) (r : Region) (t : W64) : Nat → EM (Option W64)
  | 0 => return none
  | n + 1 => do
    let s := r.vbase + BitVec.ofNat 64 (16 * n)
    let h ← heapWord k p r s
    if h.tag = 0x04 then return if t.toNat < s.toNat + headerBytes h then some s else none
    headerBelow k p r t n

/-- The start and size of the object that contains an address of a region; `complete` says that its marking is complete. -/
def findObject (k : ClusterId) (p : CompId) (r : Region) (complete : Bool) (t : W64) (pt : Nat) : EM (W64 × Nat) := do
  let t := va48 t
  let pair := t &&& ~~~15#64
  let start ←
    if r.kind = 2 then pure pair
    else if r.kind = 3 then pure r.lhdr
    else if pt ≤ 6 ∨ pt = 9 then pure t
    else do
      let b ← if complete then bitBelow k p r (wordOff t / 64 + 1) (wordOff t % 64) else pure none
      match b with
      | some f => pure (r.vbase + BitVec.ofNat 64 (8 * f))
      | none => do pure ((← headerBelow k p r t (wordOff t / 2 + 1)).getD pair)
  return (start, ← objBytes k p r start)

end Sys2Proof.Machine
end

