-- ==== Sys2Proof/Machine/PercMark.lean ====
section
/-! DEFINITION. Marking and copying by a Percolator: forwarding tables and copies (07 R193, R194), the mark stack (R190), mark
requests and scans (R188, R192), and the card service (R202). -/

namespace Sys2Proof.Machine

/-- Change the command in progress. -/
def modRun (k : ClusterId) (p : CompId) (f : PercRun → PercRun) : EM Unit :=
  emod fun s => modPerc s k p fun e => { e with run := e.run.map f }

/-- Note in the command in progress what its marks have met: it is a `MARK`, or a `CLEAN_LOG` that marks itself. -/
def noteRun (k : ClusterId) (p : CompId) (f : PercRun → PercRun) : EM Unit := do
  let own := (← ectx).part == .cmd
  modRun k p fun r => match fld (r.words.headD 0) 0 8 with
    | 1 => f r
    | 5 => if own then f r else r
    | _ => r

/-- Note an error that does not stop the command: the first one stands. -/
def noteErr (k : ClusterId) (p : CompId) (n : Byte) : EM Unit :=
  noteRun k p fun r => if r.err = 0 then { r with err := n } else r

/-- Charge an engine's cycles to a compartment: 20 bytes a cycle (R203, R204). -/
def charge (k : ClusterId) (p : CompId) (bytes : Nat) : EM Unit :=
  emod fun s => modPerc s k p fun e => { e with used := e.used + (bytes + 19) / 20 }

/-- Set bits of `PRC_IRQ`. -/
def percIrq (s : State) (k : ClusterId) (p : CompId) (i : Nat) : State :=
  modPerc s k p fun e => { e with irq := bvSet e.irq i true }

/-- The `MARK` that executes, if any. -/
def markRun (s : State) (k : ClusterId) (p : CompId) : Option PercRun :=
  (getPerc s k p).run.bind fun r => if fld (r.words.headD 0) 0 8 = 1 then some r else none

/-- Whether the regions of a compartment count as completely marked on an engine: a `MARK` with `TERM` has completed and none
has begun since (R187, R192). -/
def markComplete (s : State) (k : ClusterId) (p : CompId) : Bool := (getPerc s k p).termDone

/-! ## Forwarding tables (R193, Table 7.7) -/

/-- What a probe for an object finds: its entry by state, an empty place, or a full table. -/
inductive Probe where
  | empty (i : Nat)
  | claimed (claimer : Byte) (i : Nat)
  | complete (n : W64)
  | failed
  | full
deriving DecidableEq, Repr

def fwdSlot (r : Region) (i : Nat) : BitVec 44 := r.fwd + BitVec.ofNat 44 (16 * i)

/-- Probe from index `i`, `n` places at most. -/
def fwdProbe (k : ClusterId) (p : CompId) (r : Region) (f : Nat) : Nat → Nat → EM Probe
  | 0, _ => return .full
  | n + 1, i => do
    let w ← tabRead k p (fwdSlot r i)
    if fld w 18 2 = 0 then return .empty i
    if fld w 0 18 = f then
      match fld w 18 2 with
      | 1 => return .claimed (BitVec.ofNat 8 (fld w 20 8)) i
      | 2 => do
        let n ← tabRead k p (fwdSlot r i + 8)
        return .complete (n &&& 0xFFFFFFFFFFF0)
      | _ => return .failed
    fwdProbe k p r f n ((i + 1) % 2 ^ r.flog2)

/-- Look an object up by its word offset. -/
def fwdFind (k : ClusterId) (p : CompId) (r : Region) (f : Nat) : EM Probe :=
  fwdProbe k p r f (2 ^ r.flog2) ((f ^^^ (f >>> r.flog2)) % 2 ^ r.flog2)

/-- Word 0 of an entry claimed by this engine, in a state. -/
def fwdWord (s : State) (k : ClusterId) (f st : Nat) : W64 :=
  BitVec.ofNat 64 (f + st * 2 ^ 18 + (16 * s.devid.toNat + k.val) * 2 ^ 20)

/-! ## Copying (R194) -/

/-- What becomes of an object that is to be forwarded. -/
inductive Fwd where
  | had (n : W64)
  | pinned
  | copied (n : W64)
  | refused
  | wait
deriving DecidableEq, Repr

/-- The engine that serves a physical address of this device. -/
def homeEngine (pa : BitVec 44) : ClusterId := Fin.ofNat 16 (regionNo pa)

/-- Places with their numbers, line by line. -/
def lineGroups : List (BitVec 44 × Nat) → List (List (BitVec 44 × Nat))
  | [] => []
  | x :: r => match lineGroups r with
    | (y :: g) :: gs => if lineOf x.1 = lineOf y.1 then (x :: y :: g) :: gs else [x] :: (y :: g) :: gs
    | gs => [x] :: gs

/-! ## The card service (06 R173, 07 R202) -/

/-- Where the bit of a card lies: the word of the card map and the bit. -/
def cardBit (r : Region) (pa : BitVec 44) : BitVec 44 × Nat :=
  let c := fld pa 9 12
  (r.cardmap + BitVec.ofNat 44 (8 * (c / 64)), c % 64)

/-- Whether the card of an address has been copied. -/
def cardCopied (k : ClusterId) (p : CompId) (pa : BitVec 44) : EM Bool := do
  let r ← regionOf k p pa
  if r.kind = 0 then stopE 0x0C
  let (a, b) := cardBit r pa
  return bit (← tabRead k p a) b

/-- Copy the card of an address, then set its bit; whether there was anything to copy. -/
def copyCard (k : ClusterId) (p : CompId) (pa : BitVec 44) : EM Bool := do
  if ← cardCopied k p pa then return false
  let r ← regionOf k p pa
  let first : BitVec 44 := pa &&& ~~~511#44
  let ws ← (List.range 64).mapM fun i => engRead k p (first + BitVec.ofNat 44 (8 * i))
  engWriteBlock k p (r.snapdst + BitVec.ofNat 44 (fld first 0 21)) ws
  let (a, b) := cardBit r pa
  tabWrite k p a (setBit (← tabRead k p a) b true)
  return true

/-- Whether the region of a physical address is pending, as its home finds it: through the region's entry and the leaf of its
virtual base (06 R172). An address whose region no engine serves, or cannot be told, is not. -/
def physPending (k : ClusterId) (p : CompId) (pa : BitVec 44) : EM Bool :=
  tryCatch (do
    let r ← regionOf k p pa
    if r.kind = 0 then return false
    let x ← engXlate k p r.vbase false
    return x.level == 1 && x.pa == r.base && regionPending (← eget) (compNo p) x.rattr pa) fun e => match e with
    | .code _ => return false
    | e => throw e

/-- The card check of a write that no core makes (06 R172, R173): a card of a pending region that has not been copied is copied
first, by the engine that serves it. -/
def cardGuard (p : CompId) (pa : BitVec 44) : EM Unit := do
  if paDev pa = (← eget).devid then
    let k := homeEngine pa
    if ← physPending k p pa then
      let _ ← copyCard k p pa

/-! ## Copying (R194) -/

/-- Words of a heap object go to their places in one line, card-checked. -/
def copyLine (k : ClusterId) (p : CompId) (r : Region) (s : W64) (g : List (BitVec 44 × Nat)) : EM Unit := do
  let ws ← g.mapM fun d => return wholeWrite d.1 (← heapWord k p r (s + BitVec.ofNat 64 (8 * d.2)))
  cardGuard p ((g.map (·.1)).headD 0)
  engWriteLine k p ws

/-- Copy the words of an object to their places, whole lines at a time (12 R311), then write `NEWVA` and `STATE` 2 (R194 steps 4, 5). -/
def copyAll (k : ClusterId) (p : CompId) (c : CopyRun) : EM Unit := do
  let r ← regionOf k p c.base
  (lineGroups c.dst.zipIdx).forM (copyLine k p r c.obj)
  tabWrite k p (c.slot + 8) c.new
  tabWrite k p c.slot (fwdWord (← eget) k c.off 2)
  charge k p (8 * c.dst.length)
  if c.part = EngUnit.cmd then
    modRun k p fun r => if fld (r.words.headD 0) 0 8 ≠ 2 then r else
      { r with count0 := r.count0 + 1, count1 := r.count1 + c.dst.length }

/-- A copy is no longer in progress. -/
def dropCopy (s : State) (k : ClusterId) (slot : BitVec 44) : State :=
  modEng s k fun e => { e with copies := e.copies.filter fun c => c.slot != slot }

/-- A copy under a claim goes on: it ends, or its failed access marks the entry failed (R194), or it waits for another device while
the claim stands. -/
def copyGo (k : ClusterId) (p : CompId) (c : CopyRun) (s : State) : EStateM.Result EStop State Unit :=
  match engRun (copyAll k p c) { eng := k, part := .copy c.slot } p s with
  | .done _ t => .ok () (dropCopy t k c.slot)
  | .stop n t => match engRun (tabWrite k p c.slot (fwdWord t k c.off 3)) { eng := k, part := .copy c.slot } p t with
    | .done _ t => .error (.code n) (dropCopy t k c.slot)
    | .stop _ t => .error (.code n) (dropCopy t k c.slot)
    | .wait t => .error .parked t
  | .wait t => .error .parked t

def copyOn (k : ClusterId) (p : CompId) (c : CopyRun) : EM Unit := fun _ s => copyGo k p c s

/-- Reserve, claim and copy an object into the place `i` of its table (R194 steps 2 to 5). -/
def copyObject (k : ClusterId) (p : CompId) (r : Region) (s : W64) (size f i : Nat) : EM W64 := do
  let e := getPerc (← eget) k p
  let n := e.evacPtr
  if e.evacLim.toNat < n.toNat + size then stopE 0x01
  let dst ← (List.range (size / 8)).mapM fun j => return (← engXlate k p (n + BitVec.ofNat 64 (8 * j)) true).pa
  emod fun s => modPerc s k p fun e => { e with evacPtr := n + BitVec.ofNat 64 size }
  if e.evacLim.toNat - (n.toNat + size) < e.evacLow.toNat then emod fun s => percIrq s k p 1
  let slot := fwdSlot r i
  let c : CopyRun := { comp := compNo p, part := (← ectx).part, obj := s, off := f, slot := slot, base := r.base, new := n, dst := dst }
  tabWrite k p slot (fwdWord (← eget) k f 1)
  emod fun s => modEng s k fun e => { e with copies := e.copies ++ [c] }
  copyOn k p c
  return n

/-- The copy in progress on an engine whose claim stands in a place of a table. -/
def copyAt? (s : State) (k : ClusterId) (slot : BitVec 44) : Option CopyRun :=
  (getEng s k).copies.find? fun c => c.slot == slot

/-- Whether a claim may end: one of this device ends where its copy is in progress, one of a failed device never does. -/
def claimStands (s : State) (claimer : Byte) (slot : BitVec 44) : Bool :=
  let d := BitVec.ofNat 4 (claimer.toNat / 16)
  if d = s.devid then (copyAt? s (Fin.ofNat 16 claimer.toNat) slot).isSome else !bit s.weir.faildev d.toNat

/-- Forward the object that starts at `s` in a region of `KIND` 1 or 2; `may` says that a copy may be started. -/
def forwardObject (k : ClusterId) (p : CompId) (r : Region) (s : W64) (size : Nat) (may : Bool) : EM Fwd := do
  let f := wordOff s
  match ← fwdFind k p r f with
  | .complete n => return .had n
  | .failed => return .refused
  | .claimed c i =>
    match copyAt? (← eget) k (fwdSlot r i) with
    | some run => do
      copyOn k p run
      return .copied run.new
    | none => return if claimStands (← eget) c (fwdSlot r i) then .wait else .refused
  | probe => do
    let h ← heapWord k p r s
    if r.kind = 1 ∧ h.tag = 0x04 ∧ bit h.payload 48 then return .pinned
    if !may then return .refused
    match probe with
    | .empty i => return .copied (← copyObject k p r s size f i)
    | _ => stopE 0x03

/-! ## The mark stack (R190) -/

def stackEntry (s : W64) (pt : Nat) : W64 := BitVec.ofNat 64 (fld s 0 48 + pt % 32 * 2 ^ 48)

/-- Push an object; with cache and memory stack full, its region is to be scanned again. -/
def stackPush (k : ClusterId) (p : CompId) (r : Region) (e : W64) : EM Unit := do
  let c := getPerc (← eget) k p
  if c.stack.length < 256 then
    emod fun s => modPerc s k p fun c => { c with stack := e :: c.stack }
  else if c.memCount < (c.mstkLim.toNat - c.mstkBase.toNat) / 8 then
    tabWrite k p (c.mstkBase + BitVec.ofNat 44 (8 * c.memCount)) (c.stack.getLastD 0)
    emod fun s => modPerc s k p fun c => { c with stack := e :: c.stack.dropLast, memCount := c.memCount + 1 }
  else
    tabWrite k p r.entry (setBit (← tabRead k p r.entry) 2 true)
    noteRun k p fun r => { r with overflow := true }

/-- Pop an object. -/
def stackPop (k : ClusterId) (p : CompId) : EM (Option W64) := do
  let c := getPerc (← eget) k p
  match c.stack with
  | x :: rest =>
    emod fun s => modPerc s k p fun c => { c with stack := rest }
    return some x
  | [] =>
    if c.memCount = 0 then return none
    let x ← tabRead k p (c.mstkBase + BitVec.ofNat 44 (8 * (c.memCount - 1)))
    emod fun s => modPerc s k p fun c => { c with memCount := c.memCount - 1 }
    return some x

/-- Whether an engine has nothing left to scan. -/
def stackEmpty (e : Perc) : Bool := e.stack.isEmpty && e.memCount == 0

/-! ## Mark requests (R188, R192) -/

/-- Add an object's words to `LIVE` of each region it covers, region by region. -/
def addLive (k : ClusterId) (p : CompId) (r : Region) : Nat → W64 → Nat → EM Unit
  | 0, _, _ => return ()
  | n + 1, a, left => do
    if left = 0 then return ()
    let here := min left (2 ^ 21 - fld a 0 21)
    let entry ← if inRegion r a then pure r.entry
      else do pure (← regionOf k p (← engXlate k p a false).pa).entry
    let w ← tabRead k p (entry + 24)
    tabWrite k p (entry + 24) (setFld w 0 19 (min (fld w 0 19 + here / 8) (2 ^ 19 - 1)))
    addLive k p r n (a + BitVec.ofNat 64 here) (left - here)

/-- A mark request reaches the engine of its home: the object's start bit is set, and a newly marked object is counted and
pushed; after a completed termination it is a late mark. -/
def markIn (k : ClusterId) (p : CompId) (va : W64) (pa : BitVec 44) (pt : Nat) : EM Unit := do
  let r ← regionOf k p pa
  if r.kind = 0 then noteErr k p 0x0C
  else
    let (s, size) ← findObject k p r (markComplete (← eget) k p) va pt
    let r ← if r.kind = 3 then do regionOf k p (← engXlate k p s false).pa else pure r
    if r.kind = 0 then noteErr k p 0x0C
    else
      let f := wordOff s
      let a := r.bitmap + BitVec.ofNat 44 (8 * (f / 64))
      let v ← tabRead k p a
      if bit v (f % 64) then return
      tabWrite k p a (setBit v (f % 64) true)
      addLive k p r (size / 2 ^ 21 + 2) s size
      if (markRun (← eget) k p).isSome then
        modRun k p fun r => { r with count0 := r.count0 + 1, count1 := r.count1 + size / 8 }
      let late := markComplete (← eget) k p
      emod fun s => modPerc s k p fun e => { e with
        markedSince := true
        late := if late ∧ e.late ≠ 0xFFFFFFFF then e.late + 1 else e.late }
      if late then emod fun s => percIrq s k p 3
      stackPush k p r (stackEntry s pt)

/-- Send a target to the engine of its home: this engine marks it at once, another finds it in its queue, another device gets
a message, which it has to acknowledge. -/
def sendMark (k : ClusterId) (p : CompId) (va : W64) (pa : BitVec 44) (pt : Nat) : EM Unit := do
  let s ← eget
  if paDev pa ≠ s.devid then
    emod fun s => modPerc (sendMsg s (paDev pa) (compNo p) (Config.msgBody 1 [k.val, va.toNat, pa.toNat, pt])) k p fun e =>
      { e with unacked := e.unacked + 1 }
  else if homeEngine pa = k then markIn k p va pa pt
  else
    let m : MarkReq := { comp := compNo p, va := va, pa := pa, ptype := BitVec.ofNat 5 pt, sender := k, dev := s.devid }
    emod fun s => modEng s (homeEngine pa) fun e => { e with marks := e.marks ++ [m] }

/-- Whether the region of a target keeps it unmarked: it is free, or beyond `GENMAX` under `GENLIM`. -/
def skipsMark (s : State) (k : ClusterId) (p : CompId) (ra : Byte) : Bool :=
  raState ra == 0 || match markRun s k p with
    | some r => bit (r.words.headD 0) 18 && decide (fld ((r.words[2]?).getD 0) 40 3 < raGen ra)
    | none => false

/-- Mark a target by its virtual address: the special cases of R188, then its home. A copy is marked in place of a forwarded
object. -/
def markVa (k : ClusterId) (p : CompId) : Nat → W64 → Nat → EM Unit
  | 0, _, _ => return ()
  | n + 1, va, pt => do
    let x ← engXlate k p va false
    if skipsMark (← eget) k p x.rattr then return
    let st := raState x.rattr
    if paDev x.pa ≠ (← eget).devid then sendMark k p va x.pa pt
    else if x.level ≠ 1 then noteErr k p 0x0C
    else if st = 3 ∨ st = 4 then
      let r ← regionOf k p x.pa
      if r.kind = 0 then noteErr k p 0x0C
      else if r.kind = 3 then sendMark k p va x.pa pt
      else
        let (s, _) ← findObject k p r (markComplete (← eget) k p) va pt
        match ← fwdFind k p r (wordOff s) with
        | .complete c => markVa k p n (c + (va - s)) pt
        | _ => if st = 4 then noteErr k p 0x0A else sendMark k p va x.pa pt
    else sendMark k p va x.pa pt

/-- Whether a word is a target at all (R188 step 1). -/
def isTarget (w : Word) : Bool :=
  isPtr w.tag && ptype w.tag != 0x08 && !(0x0A ≤ ptype w.tag && ptype w.tag ≤ 0x0F) && colourOf w.tag != 0

/-- Mark a word as a target. -/
def markWord (k : ClusterId) (p : CompId) (w : Word) : EM Unit :=
  if isTarget w then markVa k p 8 (va48 w.payload) (ptype w.tag) else pure ()

/-- Scan an object: every word of it is a target (R188 step 5). -/
def scanObject (k : ClusterId) (p : CompId) (s : W64) : EM Unit := do
  let x ← engXlate k p s false
  let r ← regionOf k p x.pa
  let size ← objBytes k p r s
  (List.range (size / 8)).forM fun i => do markWord k p (← heapWord k p r (s + BitVec.ofNat 64 (8 * i)))
  charge k p size

/-! ## The card check of a write that no core makes -/

/-- Before a write of a Culvert channel or of another device (06 R172, R173): it may go ahead, its card cannot be copied, or the copy
waits, and is noted so that it completes whatever becomes of the write (16 R403). -/
def cardService (s : State) (p : CompId) (pa : BitVec 44) : EngOut Unit :=
  let k := homeEngine pa
  let others (e : Engine) : List (BitVec 4 × BitVec 44) := e.guards.filter fun g => g != (compNo p, pa)
  let ended (s : State) : State := modEng s k fun e => { e with guards := others e }
  match engRun (cardGuard p pa) { eng := k, part := .guard } p s with
  | .done _ t => .done () (ended t)
  | .stop n t => .stop n (ended t)
  | .wait t => .wait (modEng t k fun e => { e with guards := others e ++ [(compNo p, pa)] })

/-- The card copies of an engine that wait go on. -/
def guardsGo (s : State) (k : ClusterId) : State :=
  (getEng s k).guards.foldl (fun s g => match cardService s (compId g.1) g.2 with
    | .done _ t => t
    | .stop _ t => t
    | .wait t => t) s

end Sys2Proof.Machine
end

