-- ==== Sys2Proof/Machine/Percolator.lean ====
section
/-! DEFINITION. The commands and the services of the Percolators (07): the ring, the six operations, their completion,
termination rounds, `Forward`, mark requests and buffers, cards, stealing and scheduling windows. -/

namespace Sys2Proof.Machine

/-! ## The ring (R180 to R184) -/

/-- A ring error clears `EN`. -/
def ringError (s : State) (k : ClusterId) (p : CompId) : State :=
  modPerc s k p fun e => { e with rerr := true, en := false }

/-- The sixteenths of engine `k` that a compartment has: its `PSHARE` where it has a core in the cluster (16 R381). -/
def percShare (s : State) (k : ClusterId) (p : CompId) : Nat :=
  let r := (getComp s p).res
  if (List.finRange 8).any (fun j => bit r.cores (coreOf k j).val) then r.pshare.toNat else 0

def withinShare (s : State) (k : ClusterId) (p : CompId) : Bool :=
  decide ((getPerc s k p).used < 256 * percShare s k p)

/-- Whether the command unit waits for another device's answer. -/
def cmdAsks (s : State) (k : ClusterId) (p : CompId) : Bool :=
  (getEng s k).got.any fun g => g.comp == compNo p && g.unit == .cmd && g.ans.isNone

/-- Whether a compartment has a command ready on an engine: one to fetch, or one in progress with something to do. -/
def cmdReady (s : State) (k : ClusterId) (p : CompId) : Bool :=
  let e := getPerc s k p
  match e.run with
  | none => e.en && e.head != e.tail && !e.stopped && !cmdAsks s k p
  | some r => r.result.isNone && !cmdAsks s k p && (!r.term || !stackEmpty e)

/-- Whether a compartment's command may use the engine now (R203): one within its share, or, while no other within its share is ready,
the next in turn of those beyond theirs. -/
def mayGo (s : State) (k : ClusterId) (p : CompId) : Bool :=
  let beyond (q : CompId) : Bool := cmdReady s k q && !withinShare s k q
  withinShare s k p ||
    (!allComps.any fun q => q != p && cmdReady s k q && withinShare s k q) &&
      ((List.range 16).map fun i => compId ((compNo (getEng s k).turn) + BitVec.ofNat 4 (i + 1))).find?
        (fun q => q == p || beyond q) == some p

/-- Spare cycles have gone to a compartment beyond its share. -/
def takeTurn (s : State) (k : ClusterId) (p : CompId) : State :=
  if withinShare s k p then s else modEng s k fun e => { e with turn := p }

/-- Whether an engine may fetch a compartment's next command. -/
def mayStart (s : State) (k : ClusterId) (p : CompId) : Bool :=
  (getPerc s k p).run.isNone && cmdReady s k p && mayGo s k p

/-- The command unit of an engine. -/
def cmdUnit (k : ClusterId) : EngCtx := { eng := k, part := .cmd }

/-- The address of the slot at `HEAD`. -/
def slotPa (e : Perc) : BitVec 44 := e.ring + BitVec.ofNat 44 (32 * e.head.toNat)

/-- The words of the slot at `HEAD`. -/
def fetchSlot (k : ClusterId) (p : CompId) : EM (List Word) := do
  let a := slotPa (getPerc (← eget) k p)
  (List.range 4).mapM fun i => engRead k p (a + BitVec.ofNat 44 (8 * i))

/-- The option bits of an operation (Table 7.4). -/
def optMask : Nat → Option Nat
  | 1 => some 7
  | 2 => some 1
  | 3 => some 1
  | 4 => some 3
  | 5 => some 0
  | 6 => some 1
  | _ => none

/-- R183: whether a command is well formed. -/
def commandOk (ws : List Word) : Bool :=
  let w (i : Nat) : W64 := ((ws[i]?).map (·.payload)).getD 0
  let op := fld (w 0) 0 8
  ws.all (fun x => x.tag == 0x06)
    && fld (w 0) 9 7 == 0 && fld (w 0) 24 8 == 0 && fld (w 0) 33 7 == 0 && fld (w 0) 48 16 == 0
    && (match optMask op with
      | some m => (fld (w 0) 16 8 &&& m) == fld (w 0) 16 8
      | none => false)
    && (match op with
      | 1 => fld (w 1) 0 3 == 0 && fld (w 2) 38 2 == 0 && fld (w 2) 43 21 == 0
      | 2 => fld (w 1) 0 21 == 0 && w 2 == 0
      | 3 => fld (w 1) 0 3 == 0 && fld (w 2) 0 3 == 0
      | 4 => fld (w 1) 0 6 == 0 && fld (w 2) 0 6 == 0
      | 6 => fld (w 1) 0 21 == 0 && fld (w 2) 3 61 == 0
      | _ => true)

/-- Two counts in one word. -/
def counts (r : PercRun) : W64 := BitVec.ofNat 64 (r.count0 % 2 ^ 32 + r.count1 % 2 ^ 32 * 2 ^ 32)

/-- Word 3 of a command that ends with a result (Table 7.4, R183). -/
def word3 (r : PercRun) (code : Byte) : W64 :=
  match fld (r.words.headD 0) 0 8 with
  | 3 => if code = 0x00 ∨ code = 0x0A then counts r else BitVec.ofNat 64 r.bytes
  | 4 => BitVec.ofNat 64 r.bytes
  | 6 => BitVec.ofNat 64 r.count0
  | _ => counts r

/-- The command's work has ended with a result. -/
def setResult (s : State) (k : ClusterId) (p : CompId) (code : Byte) : State :=
  modPerc s k p fun e => { e with run := e.run.map fun r => { r with result := some (code, word3 r code) } }

/-- The result of work that came to its end: the first error noted, else a word left unhealed, else an overflow. -/
def endCode (r : PercRun) : Byte := if r.err ≠ 0 then r.err else if r.unhealed then 0x0A else if r.overflow then 0x02 else 0x00

def newRun (ws : List Word) : PercRun :=
  { words := ws.map (·.payload), result := none, count0 := 0, count1 := 0, bytes := 0, err := 0, overflow := false, unhealed := false,
    term := false, stage := 0, pos := 0, region := none, put := none }

/-- What a piece of a command's work leaves: more of it, the end of the command, or nothing to do until a round or a mark. -/
inductive Progress where
  | more
  | ended
  | idle
deriving DecidableEq, Repr

/-- Whether a command stops for a quiesce here: at a boundary, with no replacement of a word under way (R206). -/
def mayStop (e : Perc) (r : PercRun) : Bool := e.stopped && r.put.isNone

/-- Carry a command in progress on, piece by piece, as far as it comes: to its end, to where it waits, or until another compartment's
turn comes. -/
def goOn (k : ClusterId) (p : CompId) (work : PercRun → EM Progress) : Nat → State → State
  | 0, s => s
  | n + 1, s => match (getPerc s k p).run with
    | none => s
    | some r =>
      if r.result.isSome ∨ cmdAsks s k p ∨ !mayGo s k p then s
      else if mayStop (getPerc s k p) r then setResult s k p 0x09
      else match engRun (work r) (cmdUnit k) p (takeTurn s k p) with
        | .done .more t => goOn k p work n t
        | .done .ended t => setResult t k p ((((getPerc t k p).run).map endCode).getD 0)
        | .done .idle t => t
        | .stop c t => setResult t k p c
        | .wait t => t

/-- More pieces than any command has. -/
def manyPieces : Nat := 2 ^ 62

/-- What the command unit has had of other devices is dropped with its command. -/
def dropCmdGot (s : State) (k : ClusterId) (p : CompId) : State := dropGot s (cmdUnit k) p fun _ => true

/-- Fetch the slot at `HEAD`, where its operation is `op`, and begin it. -/
def runCommand (k : ClusterId) (p : CompId) (op : Nat) (work : PercRun → EM Progress) (s : State) : State :=
  let e := getPerc s k p
  if !mayStart s k p then s
  else if e.log2n.toNat < 4 ∨ 12 < e.log2n.toNat then ringError s k p
  else match engRun (fetchSlot k p) (cmdUnit k) p s with
    | .wait t => t
    | .stop _ t => ringError t k p
    | .done ws t =>
      if ws.any fun w => w.tag == 0x08 then ringError t k p
      else if fld ((ws.headD uninit).payload) 0 8 ≠ op then s
      else
        let t := modPerc t k p fun e => { e with run := some (newRun ws) }
        if commandOk ws then goOn k p work manyPieces t else setResult t k p 0x04

/-- The row of an operation: the command of it that is in progress goes on, else the ring's next command begins. -/
def command (k : ClusterId) (p : CompId) (op : Nat) (work : PercRun → EM Progress) (s : State) : State :=
  match (getPerc s k p).run with
  | some r => if fld (r.words.headD 0) 0 8 = op then goOn k p work manyPieces s else s
  | none => runCommand k p op work s

/-- Word `i` of a command. -/
def cmdWord (r : PercRun) (i : Nat) : W64 := (r.words[i]?).getD 0

/-- Option `i` of a command. -/
def cmdOpt (r : PercRun) (i : Nat) : Bool := bit (cmdWord r 0) (16 + i)

/-! ## MARK (R188 to R192) -/

/-- The 1 GiB units of a compartment, and the regions of them by their addresses. -/
def unitsOf (s : State) (comp : BitVec 4) : List Nat :=
  (s.dram.owner.filter fun u => u.2 == comp && decide (u.1 < s.dram.units)).map (·.1)

def regionsOf (s : State) (comp : BitVec 4) : List (BitVec 44) :=
  (unitsOf s comp).flatMap fun u => (List.range 512).map fun i => localPa s (u * 2 ^ 30 + i * 2 ^ 21)

/-- Where a command stands next. -/
def setPlace (k : ClusterId) (p : CompId) (stage pos : Nat) : EM Unit := modRun k p fun r => { r with stage := stage, pos := pos }

/-- Scan the marked objects of a region: bit by bit of word `i` of its bitmap. -/
def scanMarkedWord (k : ClusterId) (p : CompId) (r : Region) (i : Nat) : EM Unit := do
  let v ← tabRead k p (r.bitmap + BitVec.ofNat 44 (8 * i))
  (bitsSet v).forM fun b => scanObject k p (r.vbase + BitVec.ofNat 64 (8 * (64 * i + b)))

/-- The first of regions whose entry has `RESCAN` set, with how many stand before it. -/
def findRescan (k : ClusterId) (p : CompId) : List (BitVec 44) → Nat → EM (Option (Region × Nat))
  | [], _ => return none
  | pa :: rest, i => do
    let r ← regionOf k p pa
    if r.kind ≠ 0 ∧ r.rescan then return some (r, i)
    findRescan k p rest (i + 1)

/-- `RESCAN` (R190): each region whose entry has it set is cleared and its marked objects are scanned, a word of its bitmap at a
time. False once none is left. -/
def rescan (k : ClusterId) (p : CompId) (c : PercRun) : EM Bool := do
  match c.region with
  | some base =>
    let r ← regionOf k p base
    scanMarkedWord k p r (c.pos % 4096)
    modRun k p fun c => { c with pos := c.pos + 1, region := if (c.pos + 1) % 4096 = 0 then none else c.region }
    return true
  | none =>
    let l := regionsOf (← eget) (compNo p)
    match ← findRescan k p (l.drop (c.pos / 4096)) (c.pos / 4096) with
    | none => return false
    | some (r, i) => do
      tabWrite k p r.entry (setBit (← tabRead k p r.entry) 2 false)
      modRun k p fun c => { c with pos := 4096 * i, region := some r.base }
      return true

/-- Word `i` of the root range is a target (R189). -/
def markRoot (k : ClusterId) (p : CompId) (a : W64) (i : Nat) : EM Unit := do
  let x ← engXlate k p (a + BitVec.ofNat 64 (8 * i)) false
  markWord k p (← engRead k p x.pa)

/-- Scan one pushed object; an object whose scan stops stays on the stack. False with the stack empty. -/
def traceOne (k : ClusterId) (p : CompId) : EM Bool := do
  match ← stackPop k p with
  | none => return false
  | some e => do
    tryCatch (scanObject k p (va48 e)) fun x => do
      emod fun s => modPerc s k p fun c => { c with stack := e :: c.stack }
      throw x
    return true

/-- The tracing of a `MARK`: it ends when the stack is empty, or with `TERM` goes on to the termination rounds. -/
def markTrace (k : ClusterId) (p : CompId) (r : PercRun) : EM Progress := do
  if ← traceOne k p then return .more
  if !cmdOpt r 0 then return .ended
  modRun k p fun r => { r with term := true }
  return .idle

/-- The root range of a `MARK`, then its tracing. -/
def markRoots (k : ClusterId) (p : CompId) (r : PercRun) (i : Nat) : EM Progress := do
  if cmdWord r 1 ≠ 0 ∧ i < fld (cmdWord r 2) 0 32 then
    markRoot k p (cmdWord r 1) i
    setPlace k p 2 (i + 1)
    return .more
  else
    setPlace k p 3 0
    markTrace k p r

/-- The regions to be scanned again, then the roots. -/
def markRescan (k : ClusterId) (p : CompId) (r : PercRun) : EM Progress := do
  if cmdOpt r 1 then
    if ← rescan k p r then return .more
  markRoots k p r 0

/-- The next piece of a `MARK`. -/
def workMark (k : ClusterId) (p : CompId) (r : PercRun) : EM Progress := do
  match r.stage with
  | 0 => do
    emod fun s => modPerc s k p fun e => { e with termDone := false }
    setPlace k p 1 0
    markRescan k p { r with pos := 0 }
  | 1 => markRescan k p r
  | 2 => markRoots k p r r.pos
  | _ => markTrace k p r

/-- MARK (R191). -/
def execMark (k : ClusterId) (p : CompId) (s : State) : Host.Outcome State Fault Refusal :=
  .next (command k p 1 (workMark k p) s)

/-! ## RELOCATE (R196) -/

/-- The region that a command names: its entry, where it is homed here and one 2 MiB leaf maps it, with its field. -/
def commandRegion (k : ClusterId) (p : CompId) (va : W64) : EM (Region × Byte) := do
  let x ← engXlate k p va false
  if paDev x.pa ≠ (← eget).devid then stopE 0x0B
  if x.level ≠ 1 then stopE 0x0C
  let r ← regionOf k p x.pa
  if r.kind = 0 then stopE 0x0C
  return (r, x.rattr)

/-- The first start bit of a region at or after word offset `f`: in the `n` words of its bitmap from the word of `f` on. -/
def nextMarked (k : ClusterId) (p : CompId) (r : Region) : Nat → Nat → EM (Option Nat)
  | 0, _ => return none
  | n + 1, f => do
    let v ← tabRead k p (r.bitmap + BitVec.ofNat 44 (8 * (f / 64)))
    match (bitsSet v).find? fun b => f % 64 ≤ b with
    | some b => return some (f / 64 * 64 + b)
    | none => nextMarked k p r n ((f / 64 + 1) * 64)

/-- Copy the object at word offset `f` of a region; a refused object is left (R194). -/
def relocateAt (k : ClusterId) (p : CompId) (r : Region) (f : Nat) : EM Unit := do
  let s := r.vbase + BitVec.ofNat 64 (8 * f)
  let size ← objBytes k p r s
  match ← forwardObject k p r s size true with
  | .wait => waitE
  | _ => pure ()

/-- The next piece of a `RELOCATE`: an object, or the end of the region. -/
def workRelocate (k : ClusterId) (p : CompId) (c : PercRun) : EM Progress := do
  let va := va48 (cmdWord c 1)
  let (r, ra) ← commandRegion k p va
  if (c.pos = 0 ∧ raState ra ≠ 3) ∨ r.kind = 3 then stopE 0x0C
  match ← nextMarked k p r (4096 - c.pos / 64) c.pos with
  | some f => do
    relocateAt k p r f
    setPlace k p 0 (f + 1)
    return .more
  | none => do
    if cmdOpt c 0 then setLeafState k p va 4
    return .ended

/-- RELOCATE (R196). -/
def execRelocate (k : ClusterId) (p : CompId) (s : State) : Host.Outcome State Fault Refusal :=
  .next (command k p 2 (workRelocate k p) s)

/-! ## Answering a Forward (R194, R195) -/

/-- The new address of a target in a local region: none where it is refused. -/
def forwardLocal (k : ClusterId) (p : CompId) (va : W64) (pa : BitVec 44) (pt st : Nat) (may : Bool) :
    EM (Option W64) := do
  let r ← regionOf k p pa
  if r.kind = 0 then return none
  if r.kind = 3 then return some va
  let (s, size) ← findObject k p r (markComplete (← eget) k p) va pt
  match ← forwardObject k p r s size (may && st != 4) with
  | .had n => return some (va48 (n + (va - s)))
  | .copied n => return some (va48 (n + (va - s)))
  | .pinned => return some va
  | .refused => return none
  | .wait => waitE

/-- A translation that the engine can make, none where it cannot. -/
def tryXlate (k : ClusterId) (p : CompId) (va : W64) : EM (Option Xlat) :=
  tryCatch (do return some (← engXlate k p va false)) fun e => match e with
    | .code _ => return none
    | e => throw e

/-- What the home device of a target answers: its new address, none where it is refused. -/
def forwardRemote (p : CompId) (va : W64) (pa : BitVec 44) (pt : Nat) : EM (Option W64) := do
  return ((← engAsk p (.forward va pa pt)).head?).map (·.payload)

/-- Answer a request for a target, whether or not the engine can translate it (R185, R187); one homed elsewhere is passed to its
home. -/
def answerForward (k : ClusterId) (p : CompId) (va : W64) (pa : BitVec 44) (pt : Nat) : EM (Option W64) := do
  if paDev pa ≠ (← eget).devid then forwardRemote p va pa pt
  else
    let known ← tryCatch (do return some (← engXlate k p va false)) fun e => match e with
      | .code 0x05 => return none
      | e => throw e
    match known with
    | some x => if x.level ≠ 1 then return none else forwardLocal k p va pa pt (raState x.rattr) true
    | none => forwardLocal k p va pa pt 3 false

/-! ## REMAP (R197) -/

/-- Whether a word homed here lies outside every marked object of the region that holds it; false where no engine serves the region. -/
def outsideHere (k : ClusterId) (p : CompId) (va : W64) (pa : BitVec 44) : EM Bool := do
  let r ← regionOf k p pa
  if r.kind = 0 then return false
  let (s, size) ← findObject k p r true va 7
  let r ← if r.kind = 3 then do regionOf k p (← engXlate k p s false).pa else pure r
  if r.kind = 0 then return false
  let f := wordOff s
  let v ← tabRead k p (r.bitmap + BitVec.ofNat 44 (8 * (f / 64)))
  return !(bit v (f % 64) && decide (s.toNat ≤ va.toNat) && decide (va.toNat < s.toNat + size))

/-- The same of any word; the home of a word says it. -/
def outsideMarked (k : ClusterId) (p : CompId) (va : W64) (x : Xlat) : EM Bool := do
  if x.level ≠ 1 then return false
  if paDev x.pa ≠ (← eget).devid then return (← engAsk p (.outside va x.pa)) == [trueW]
  outsideHere k p va x.pa

/-- What the engine's heal of a stale word yields (06 R158): the new address, none where it is refused or the target is free. -/
def engHeal (k : ClusterId) (p : CompId) (w : Word) : EM (Option W64) := do
  if !wellFormed w then return none
  let va := va48 w.payload
  match ← tryXlate k p va with
  | none => return none
  | some x =>
    match raState x.rattr with
    | 1 | 2 | 5 => do
      markVa k p 8 va (ptype w.tag)
      return some va
    | 3 | 4 =>
      if x.level ≠ 1 then return none
      else tryCatch (if paDev x.pa ≠ (← eget).devid then forwardRemote p va x.pa (ptype w.tag)
          else forwardLocal k p va x.pa (ptype w.tag) (raState x.rattr) true) fun e => match e with
        | .code _ => return none
        | e => throw e
    | _ => return none

/-- The word that takes the place of a stale one, and whether it heals; none where it stays. -/
def remapNew (k : ClusterId) (p : CompId) (all : Bool) (va : W64) (x : Xlat) (w : Word) : EM (Option (Word × Bool)) := do
  let st := raState x.rattr
  let col := (getPerc (← eget) k p).col
  let out ← if all ∧ (st = 2 ∨ st = 3 ∨ st = 5) then outsideMarked k p va x else pure false
  if out then return some (uninit, false)
  match ← engHeal k p w with
  | some n => return some (⟨ptrTag col (ptype w.tag), n⟩, true)
  | none => return if st = 1 ∨ raNobar x.rattr then some (uninit, false) else none

/-- Read the word of the range at `x`, of `left` words to come: from another device by lines of one block (17 R407). -/
def remapRead (k : ClusterId) (p : CompId) (pa : BitVec 44) (left : Nat) : EM Word := do
  if paDev pa = (← eget).devid ∨ (blockWord? (← eget) (← ectx) p pa).isSome then engRead k p pa
  else
    let w ← ectx
    emod fun s => dropGot s w p fun a => a.isBlock
    let base := pa &&& ~~~63#44
    let lines := min ((fld pa 3 3 + left + 7) / 8) (8 - fld pa 6 3)
    let ws ← engAsk p (.access (if lines = 1 then 1 else 2) base 0 (BitVec.ofNat 3 (lines - 1)) [])
    return ws.getD (fld pa 3 3) uninit

/-- The word at `pos` has been examined. -/
def remapNext (k : ClusterId) (p : CompId) (f : PercRun → PercRun) : EM Unit :=
  modRun k p fun r => { f r with pos := r.pos + 1, bytes := r.bytes + 8, put := none }

/-- Examine one word of the range: a replacement is decided, and made as the next piece of work. -/
def remapWord (k : ClusterId) (p : CompId) (all : Bool) (va : W64) (left : Nat) : EM Unit := do
  let x ← engXlate k p va false
  let st := raState x.rattr
  let w ← if st = 0 ∨ st = 4 then pure uninit else remapRead k p x.pa left
  if !staleFor (getPerc (← eget) k p).col w.tag then remapNext k p id
  else match ← remapNew k p all va x w with
    | some (new, heals) => do
      let y ← engXlate k p va true
      modRun k p fun r => { r with put := some { pa := y.pa, old := w, new := new, heals := heals } }
    | none => remapNext k p fun r => { r with unhealed := true }

/-- Make a replacement: one compare-and-swap on all 72 bits, card-checked (06 R172) and not tried again. -/
def remapPut (k : ClusterId) (p : CompId) (x : RemapPut) : EM Unit := do
  cardGuard p x.pa
  if ← engCas k p x.pa x.old x.new then
    remapNext k p fun r =>
      if x.heals then { r with count0 := r.count0 + 1 } else { r with count1 := r.count1 + 1 }
  else remapNext k p id

/-- The next piece of a `REMAP`: a word, or its replacement. A word left unhealed makes the result `UNHEALED`. -/
def workRemap (k : ClusterId) (p : CompId) (c : PercRun) : EM Progress := do
  let n := (cmdWord c 2).toNat / 8
  match c.put with
  | some x => do
    remapPut k p x
    return .more
  | none =>
    if n ≤ c.pos then return .ended
    remapWord k p (cmdOpt c 0) (va48 (cmdWord c 1 + BitVec.ofNat 64 (8 * c.pos))) (n - c.pos)
    charge k p 8
    return .more

/-- REMAP (R197). -/
def execRemap (k : ClusterId) (p : CompId) (s : State) : Host.Outcome State Fault Refusal :=
  .next (command k p 3 (workRemap k p) s)

/-! ## SCRUB (R198) -/

/-- The physical address of a line of the range. -/
def scrubPa (k : ClusterId) (p : CompId) (phys : Bool) (a : W64) : EM (BitVec 44) := do
  if phys then
    if fld a 44 20 ≠ 0 then stopE 0x08
    return a.setWidth 44
  else return (← engXlate k p a true).pa

/-- How many lines are written at once: of another device those of one aligned block (17 R407), here one. -/
def scrubLines (s : State) (pa : BitVec 44) (left : Nat) : Nat :=
  if paDev pa = s.devid then 1 else min left (8 - fld pa 6 3)

/-- The next lines of a `SCRUB`, whole and unread. -/
def workScrub (k : ClusterId) (p : CompId) (c : PercRun) : EM Progress := do
  let left := (cmdWord c 2).toNat / 64 - c.pos
  if left = 0 then return .ended
  let w := if cmdOpt c 0 then bytesW 0 else uninit
  let pa ← scrubPa k p (cmdOpt c 1) (cmdWord c 1 + BitVec.ofNat 64 (64 * c.pos))
  let n := scrubLines (← eget) pa left
  engWriteBlock k p pa (List.replicate (8 * n) w)
  modRun k p fun r => { r with pos := r.pos + n, bytes := r.bytes + 64 * n }
  charge k p (64 * n)
  return .more

/-- SCRUB (R198). -/
def execScrub (k : ClusterId) (p : CompId) (s : State) : Host.Outcome State Fault Refusal :=
  .next (command k p 4 (workScrub k p) s)

/-! ## CLEAN_LOG (R199) -/

/-- One entry of a remembered log. -/
def cleanEntry (k : ClusterId) (p : CompId) (a : W64) : EM Unit := do
  let e ← engRead k p (← engXlate k p a false).pa
  modRun k p fun r => { r with count0 := r.count0 + 1 }
  if fld e.payload 48 12 ≠ (getPerc (← eget) k p).sid.toNat then return
  let lx ← engXlate k p (BitVec.ofNat 64 (fld e.payload 0 48)) false
  let w ← engRead k p lx.pa
  if !isTarget w then return
  let tx ← engXlate k p (va48 w.payload) false
  if raGen tx.rattr < raGen lx.rattr then
    modRun k p fun r => { r with count1 := r.count1 + 1 }
    markWord k p w

/-- The next entry of a `CLEAN_LOG`. -/
def workCleanLog (k : ClusterId) (p : CompId) (c : PercRun) : EM Progress := do
  if ((cmdWord c 2).toNat - (cmdWord c 1).toNat + 7) / 8 ≤ c.pos then return .ended
  cleanEntry k p (va48 (cmdWord c 1 + BitVec.ofNat 64 (8 * c.pos)))
  setPlace k p 0 (c.pos + 1)
  charge k p 80
  return .more

/-- CLEAN_LOG (R199). -/
def execCleanLog (k : ClusterId) (p : CompId) (s : State) : Host.Outcome State Fault Refusal :=
  .next (command k p 5 (workCleanLog k p) s)

/-! ## SNAPSHOT_COPY (R202) -/

/-- Copy the next of a region's cards that has not been copied, of the `n` from card `i` on; the card after it, none where all have
been. -/
def nextCard (k : ClusterId) (p : CompId) (r : Region) : Nat → Nat → EM (Option Nat)
  | 0, _ => return none
  | n + 1, i => do
    if ← copyCard k p (r.base + BitVec.ofNat 44 (512 * i)) then return some (i + 1)
    nextCard k p r n (i + 1)

/-- The copy of a region is complete: it is pending no more (06 R172). -/
def regionCopied (s : State) (p : CompId) (pa : BitVec 44) : State :=
  modComp s p fun x => { x with snap := x.snap.map fun y => { y with copied := y.copied ++ [physRegion pa] } }

/-- The next piece of a `SNAPSHOT_COPY`: a card, or the end of the region. -/
def workSnapshotCopy (k : ClusterId) (p : CompId) (c : PercRun) : EM Progress := do
  let va := va48 (cmdWord c 1)
  let (r, _) ← commandRegion k p va
  match ← nextCard k p r (4096 - c.pos) c.pos with
  | some i => do
    modRun k p fun r => { r with count0 := r.count0 + 1 }
    setPlace k p 0 i
    charge k p 512
    return .more
  | none => do
    if cmdOpt c 0 then setLeafState k p va (fld (cmdWord c 2) 0 3)
    emod fun s => regionCopied s p r.base
    return .ended

/-- SNAPSHOT_COPY (R202). -/
def execSnapshotCopy (k : ClusterId) (p : CompId) (s : State) : Host.Outcome State Fault Refusal :=
  .next (command k p 6 (workSnapshotCopy k p) s)

/-! ## Completion (R180, R182) -/

/-- Results that are no error (18 Table 18.1 class 0x0A). -/
def plainResult (code : Byte) : Bool := code == 0x00 || code == 0x01 || code == 0x02 || code == 0x09

/-- A completed command leaves the engine: `HEAD`, the interrupt bits, `LASTERR` and the log. -/
def retireCommand (s : State) (k : ClusterId) (p : CompId) (hdr : W64) (code : Byte) : State :=
  let s := modPerc (dropCmdGot s k p) k p fun e => { e with
    head := BitVec.ofNat 12 ((e.head.toNat + 1) % 2 ^ e.log2n.toNat)
    run := none
    lasterr := if code = 0 then e.lasterr else code
    irq := bvSet (bvSet e.irq 0 (bit e.irq 0 || bit hdr 8)) 2 (bit e.irq 2 || code != 0) }
  if plainResult code then s else logErr s 0x0A 1 p.val k.val 0 (code.setWidth 64)

/-- The writes that complete a command: word 3, then word 0. -/
def completionWrites (k : ClusterId) (p : CompId) (a : BitVec 44) (hdr : W64) (code : Byte) (w3 : W64) : EM Unit := do
  tabWrite k p (a + 24) w3
  tabWrite k p a (setFld (setBit hdr 32 true) 40 8 code.toNat)

/-- The completion of a command. -/
def completeCommand (s : State) (k : ClusterId) (p : CompId) (hdr : W64) (code : Byte) (w3 : W64) : State :=
  match engRun (completionWrites k p (slotPa (getPerc s k p)) hdr code w3) (cmdUnit k) p s with
  | .done _ t => retireCommand t k p hdr code
  | .stop _ t => retireCommand t k p hdr code
  | .wait t => t

/-- PERCOLATOR_COMMAND_COMPLETE (R182): the command whose work has ended completes, and so does one whose operation is
unassigned (R183). -/
def execPercolatorCommandComplete (k : ClusterId) (p : CompId) (s : State) : Host.Outcome State Fault Refusal :=
  match (getPerc s k p).run with
  | some r => match r.result with
    | some (code, w3) => .next (completeCommand s k p (cmdWord r 0) code w3)
    | none => .next s
  | none =>
    if !mayStart s k p then .next s
    else match engRun (fetchSlot k p) (cmdUnit k) p s with
      | .wait t => .next t
      | .stop _ _ => .next s
      | .done ws t =>
        let h := (ws.headD uninit).payload
        if (ws.any fun w => w.tag == 0x08) ∨ (optMask (fld h 0 8)).isSome then .next s
        else .next (completeCommand t k p h 0x04 0)

/-! ## Doorbells (R180) -/

/-- A write of `TAIL`; a bit at or above `LOG2N` is a ring error. -/
def writeTail (s : State) (k : ClusterId) (p : CompId) (v : W64) : State :=
  let t := fld v 0 12
  let s := modPerc s k p fun e => { e with tail := BitVec.ofNat 12 t }
  if 2 ^ (getPerc s k p).log2n.toNat ≤ t then ringError s k p else s

/-- PRC_TAIL (R180). -/
def execPrcTail (k : ClusterId) (p : CompId) (v : W64) (s : State) : Host.Outcome State Fault Refusal :=
  .next (writeTail s k p v)

/-- The Weir action that advances `TAIL` by one: onto `HEAD` it is ignored and sets `RERR` (R180). -/
def advanceTail (s : State) (k : ClusterId) (p : CompId) : State :=
  let e := getPerc s k p
  let t := BitVec.ofNat 12 ((e.tail.toNat + 1) % 2 ^ e.log2n.toNat)
  if e.stopped then s
  else if t = e.head then modPerc s k p fun e => { e with rerr := true }
  else modPerc s k p fun e => { e with tail := t }

/-! ## Service requests (R189, R194, R203) -/

/-- A service uses a cycle of its engine for a compartment (R203). -/
def serviceCycle (s : State) (k : ClusterId) (p : CompId) : State := modPerc s k p fun e => { e with used := e.used + 1 }

/-- The Percolator priority of a core's requests (16 R388). -/
def corePriority (s : State) (c : CoreId) : Nat :=
  let k := getCore s c
  let cls := Fin.ofNat 8 (sliceClass s k.compart (k.mmu.space.setWidth 12))
  fld ((getComp s (compId k.compart)).slcClass.get cls) 20 2

/-- The request that is served next: the highest priority first, then the order of arrival. -/
def nextRequest {α : Type} (prio : α → Nat) (ok : α → Bool) (l : List α) : Option Nat :=
  let cand := l.zipIdx.filter fun r => ok r.1
  let best := (cand.map fun r => prio r.1).foldl max 0
  (cand.find? fun r => prio r.1 == best).map (·.2)

/-- The priority of a `Forward`; one that another device has passed on names no core here (log 54). -/
def fwdPriority (s : State) (r : FwdReq) : Nat := if r.origin.isSome then 0 else corePriority s r.core

/-- A request has its answer: the core here, or the device that passed it on. -/
def answerFwd (s : State) (k : ClusterId) (i : Nat) (r : FwdReq) (n : Option W64) : State :=
  let s := modEng s k fun e => { e with fwd := e.fwd.eraseIdx i }
  match r.origin with
  | none => { s with answers := s.answers ++ [(r.core, .fwd r.va n)] }
  | some o => sendMsg s o.dev r.comp (Config.msgBody 4 ([o.eng.val, o.no] ++ (n.map (·.toNat)).toList))

/-- The unit that serves a request. -/
def fwdUnit (k : ClusterId) (r : FwdReq) : EngCtx :=
  { eng := k, part := match r.origin with
    | none => .forward r.core
    | some o => .passed o.dev (16 * o.no + o.eng.val) }

/-- Serve a `Forward` request at position `i`. -/
def serveForward (s : State) (k : ClusterId) (i : Nat) (r : FwdReq) : State :=
  let p := compId r.comp
  match engRun (answerForward k p (va48 r.va) r.pa r.ptype.toNat) (fwdUnit k r) p (serviceCycle s k p) with
  | .done n t => answerFwd t k i r n
  | .stop _ t => answerFwd t k i r none
  | .wait t => modEng t k fun e => { e with fwd := e.fwd.set i { r with waiting := true } }

/-- FORWARD (R194): the next request; a target homed elsewhere is passed to its home and waits. -/
def execForward (k : ClusterId) (s : State) : Host.Outcome State Fault Refusal :=
  let q := (getEng s k).fwd
  match nextRequest (fwdPriority s) (fun r => !r.waiting) q with
  | none => .next s
  | some i => match q[i]? with
    | none => .next s
    | some r => .next (serveForward s k i r)

/-- FORWARD_COMPLETION_NOTICE (R194): the first waiting request whose claim is on this device is looked at again. -/
def execForwardCompletionNotice (k : ClusterId) (s : State) : Host.Outcome State Fault Refusal :=
  match (getEng s k).fwd.zipIdx.find? fun r => r.1.waiting && paDev r.1.pa == s.devid with
  | some (r, i) => .next (serveForward s k i r)
  | none => .next s

/-- Ask the home of a request's target again, where it has not answered. -/
def pollForward (s : State) (k : ClusterId) (r : FwdReq) : State :=
  match (getEng s k).got.find? fun g => g.comp == r.comp && g.unit == (fwdUnit k r).part && g.ans.isNone with
  | some g => sendAsk s (fwdUnit k r) (compId r.comp) g.no g.ask
  | none => s

/-- FORWARD_POLL (R194): the first waiting request asks again; one whose home or claimer has failed is refused. -/
def execForwardPoll (k : ClusterId) (s : State) : Host.Outcome State Fault Refusal :=
  match (getEng s k).fwd.zipIdx.find? fun r => r.1.waiting with
  | none => .next s
  | some (r, i) =>
    if paDev r.pa ≠ s.devid ∧ bit s.weir.faildev (paDev r.pa).toNat then
      .next (answerFwd (forget s (fwdUnit k r) (compId r.comp)) k i r none)
    else .next (serveForward (pollForward s k r) k i r)

/-- Mark a target by the engine's own translation, where it has one, else by that of the sender. -/
def markPushed (k : ClusterId) (p : CompId) (va : W64) (pa : BitVec 44) (pt : Nat) : EM Unit :=
  tryCatch (markVa k p 8 va pt) fun e => match e with
    | .code 0x05 => sendMark k p va pa pt
    | e => throw e

/-- Serve a mark request: an engine of this device has looked at the target's region, one of another device has not. -/
def markServed (k : ClusterId) (m : MarkReq) : EM Unit := do
  if m.dev = (← eget).devid then markIn k (compId m.comp) m.va m.pa m.ptype.toNat
  else markPushed k (compId m.comp) m.va m.pa m.ptype.toNat

/-- A mark request has been served: the oldest leaves the queue, and another device has its acknowledgement (R191). -/
def ackMark (s : State) (k : ClusterId) (m : MarkReq) : State :=
  let s := modEng s k fun e => { e with marks := e.marks.drop 1 }
  if m.dev = s.devid then s else sendMsg s m.dev m.comp (Config.msgBody 3 [m.sender.val])

/-- MARK_REQUEST (R188): the oldest target that another engine has sent. -/
def execMarkRequest (k : ClusterId) (s : State) : Host.Outcome State Fault Refusal :=
  match (getEng s k).marks with
  | [] => .next s
  | m :: _ => match engRun (markServed k m) { eng := k, part := .mark } (compId m.comp) s with
    | .done _ t => .next (ackMark t k m)
    | .stop _ t => .next (ackMark t k m)
    | .wait t => .next t

/-- Drain the oldest entry of a core's mark buffer. -/
def drainMark (s : State) (c : CoreId) : State :=
  let x := getCore s c
  let k := clusterOf c
  let p := compId x.compart
  let took (t : State) : State := serviceCycle (modCore t c fun x => { x with mark := x.mark.drop 1 }) k p
  match x.mark with
  | [] => s
  | m :: _ => match engRun (markPushed k p m.va m.pa m.ptype.toNat) { eng := k, part := .drain c } p s with
    | .done _ t => took t
    | .stop _ t => took t
    | .wait t => t

/-- Drain a core's mark buffer as far as it goes. -/
def drainMarks : Nat → State → CoreId → State
  | 0, s, _ => s
  | n + 1, s, c => drainMarks n (drainMark s c) c

/-- MARK_BUFFER_DRAIN (R189). -/
def execMarkBufferDrain (c : CoreId) (s : State) : Host.Outcome State Fault Refusal := .next (drainMark s c)

/-! ## Cards (06 R173, R202) -/

/-- Answer every request for a card. -/
def answerCards (s : State) (k : ClusterId) (card : Nat) (ok : Bool) : State :=
  let l := (getEng s k).cards.filter fun r => cardOf r.pa == card
  let s := modEng s k fun e => { e with cards := e.cards.filter fun r => cardOf r.pa != card }
  { s with answers := s.answers ++ l.map fun r => (r.core, Answer.card r.pa ok) }

def cardUnit (k : ClusterId) : EngCtx := { eng := k, part := .card }

/-- What the service finds of a card that a core asks for: a region that no single 2 MiB leaf maps is served by no engine (R187). -/
def cardAsked (k : ClusterId) (r : CardReq) : EM Bool :=
  if r.leaf then cardCopied k (compId r.comp) r.pa else stopE 0x0C

/-- CARD_REQUEST (06 R173): the next request is answered where its card has been copied, else its copy begins. -/
def execCardRequest (k : ClusterId) (s : State) : Host.Outcome State Fault Refusal :=
  let q := (getEng s k).cards
  match nextRequest (fun r => corePriority s r.core) (fun r => !r.copying) q with
  | none => .next s
  | some i => match q[i]? with
    | none => .next s
    | some r => match engRun (cardAsked k r) (cardUnit k) (compId r.comp) (serviceCycle s k (compId r.comp)) with
      | .done true t => .next (answerCards t k (cardOf r.pa) true)
      | .done false t => .next (modEng t k fun e => { e with cards := e.cards.set i { r with copying := true } })
      | .stop _ t => .next (answerCards t k (cardOf r.pa) false)
      | .wait t => .next t

/-- CARD_COPY_COMPLETE (R202): a card copy that has begun ends, and every writer of the card has its answer. -/
def execCardCopyComplete (k : ClusterId) (s : State) : Host.Outcome State Fault Refusal :=
  match (getEng s k).cards.find? (·.copying) with
  | none => .next s
  | some r =>
    let work : EM Unit := do
      if ← copyCard k (compId r.comp) r.pa then charge k (compId r.comp) 512
    match engRun work (cardUnit k) (compId r.comp) s with
    | .done _ t => .next (answerCards t k (cardOf r.pa) true)
    | .stop _ t => .next (answerCards t k (cardOf r.pa) false)
    | .wait t => .next t

/-! ## What engines of other devices say (R188, R191, R194, R197) -/

/-- A request that another device has passed on joins the queue of the engine that serves its target; one asked again is there already. -/
def passedForward (s : State) (comp : BitVec 4) (o : Origin) (va : W64) (pa : BitVec 44) (pt : Nat) : State :=
  let k := homeEngine pa
  if (getEng s k).fwd.any fun r => r.origin == some o then s
  else modEng s k fun e => { e with fwd := e.fwd ++
    [{ core := 0, comp := comp, va := va, pa := pa, ptype := BitVec.ofNat 5 pt, waiting := false, origin := some o }] }

/-- An engine has the answer to a question. -/
def gotAnswer (s : State) (k : ClusterId) (no : Nat) (code : Byte) (ws : List Word) : State :=
  modEng s k fun e => { e with got := e.got.map fun g => if g.no = no ∧ g.ans.isNone then { g with ans := some (code, ws) } else g }

/-- Whether a word lies outside every marked object: the answer goes back; false where it cannot be told, none while it waits. -/
def answerOutside (s : State) (comp : BitVec 4) (o : Origin) (va : W64) (pa : BitVec 44) : State :=
  let k := homeEngine pa
  let w : EngCtx := { eng := k, part := .passed o.dev (16 * o.no + o.eng.val) }
  let say (t : State) (b : Bool) : State := sendMsg t o.dev comp (Config.msgBody 6 [o.eng.val, o.no, b.toNat])
  match engRun (outsideHere k (compId comp) va pa) w (compId comp) s with
  | .done b t => say t b
  | .stop _ t => say t false
  | .wait t => t

/-- A message from the engine of another device: a mark request, its acknowledgement, a `Forward` or its answer, a question about
marked objects or its answer. -/
def engineMessage (s : State) (src comp : BitVec 4) (body : List W64) : State :=
  let va (n : Nat) : W64 := BitVec.ofNat 64 n
  let pa (n : Nat) : BitVec 44 := BitVec.ofNat 44 n
  let eng (n : Nat) : ClusterId := Fin.ofNat 16 n
  match Config.msgOf body with
  | (1, [k, v, a, pt]) =>
    modEng s (homeEngine (pa a)) fun e => { e with marks := e.marks ++
      [{ comp := comp, va := va v, pa := pa a, ptype := BitVec.ofNat 5 pt, sender := eng k, dev := src }] }
  | (2, [k, no, v, a, pt]) => passedForward s comp { dev := src, eng := eng k, no := no } (va v) (pa a) pt
  | (3, [k]) => modPerc s (eng k) (compId comp) fun e => { e with unacked := e.unacked - 1 }
  | (4, [k, no]) => gotAnswer s (eng k) no 0 []
  | (4, [k, no, n]) => gotAnswer s (eng k) no 0 [fix (va n)]
  | (5, [k, no, v, a]) => answerOutside s comp { dev := src, eng := eng k, no := no } (va v) (pa a)
  | (6, [k, no, b]) => gotAnswer s (eng k) no 0 [if b = 1 then trueW else falseW]
  | _ => s

/-! ## Stealing, rounds and windows (R190, R191, R203) -/

/-- The engine with the most cached entries of a compartment, the lowest-numbered of several. -/
def busiest (s : State) (p : CompId) : ClusterId :=
  allClusters.foldl (fun b k => if (getPerc s b p).stack.length < (getPerc s k p).stack.length then k else b) 0

/-- MARK_STACK_STEAL (R190): an engine whose stack is empty takes half the cached entries of the busiest, the latest ones. -/
def execMarkStackSteal (k : ClusterId) (p : CompId) (s : State) : Host.Outcome State Fault Refusal :=
  let b := busiest s p
  let n := (getPerc s b p).stack.length / 2
  if !stackEmpty (getPerc s k p) ∨ b = k then .next s
  else
    let got := (getPerc s b p).stack.take n
    let s := modPerc s b p fun e => { e with stack := e.stack.drop n }
    .next (modPerc s k p fun e => { e with stack := got })

/-- Whether an engine's `MARK` joins a round: nothing to scan, its cores' mark buffers empty, and every request it has sent
served (R191). -/
def roundReady (s : State) (k : ClusterId) (p : CompId) : Bool :=
  let e := getPerc s k p
  (match e.run with
    | some r => r.term && r.result.isNone
    | none => false)
    && stackEmpty e
    && (List.finRange 8).all (fun j => (getCore s (coreOf k j)).compart != compNo p || (getCore s (coreOf k j)).mark.isEmpty)
    && (allClusters.all fun x => (getEng s x).marks.all fun m => m.comp != compNo p || m.sender != k || m.dev != s.devid)
    && e.unacked == 0

/-- The group that a `MARK` names. -/
def roundGroup (s : State) (k : ClusterId) (p : CompId) : GroupId :=
  Fin.ofNat 64 (((getPerc s k p).run.map fun r => fld (cmdWord r 2) 32 6).getD 0)

/-- An engine joins the round with what it has marked since its last; a group that is not the compartment's, does not hold
the engine or has failed ends its `MARK`. -/
def joinRound (s : State) (p : CompId) (k : ClusterId) : State :=
  let g := roundGroup s k p
  let e := groupOf s g
  if !roundReady s k p then s
  else if !e.valid || e.compart != compNo p || !bit e.engmask k.val || e.failed then setResult s k p 0x06
  else if (memberOf s g (engineKey k)).st ≠ .idle then s
  else
    let w := fix (BitVec.ofNat 64 (getPerc s k p).markedSince.toNat)
    let s := modPerc s k p fun e => { e with markedSince := false }
    joinGroup s g (engineKey k) { kind := some (.reduce 3), senders := 0, word := w }

/-- TERMINATION_ROUND (R191). -/
def execTerminationRound (p : CompId) (s : State) : Host.Outcome State Fault Refusal :=
  .next (allClusters.foldl (fun s k => joinRound s p k) s)

/-- An engine member's operation has completed (R191, R225): a round of 0 ends its `MARK`, a round of 1 begins the next, and a
mismatch or a failed device ends it with an error. -/
def consumeRound (s : State) (g : GroupId) (k : ClusterId) : State :=
  let m := memberOf s g (engineKey k)
  let p := compId (groupOf s g).compart
  let waits : Bool := match (getPerc s k p).run with
    | some r => r.term && r.result.isNone && roundGroup s k p == g
    | none => false
  match m.st with
  | .done =>
    let s := setMember s g (engineKey k) Member.none
    if m.latch.payload == 0 && waits then
      setResult (modPerc s k p fun e => { e with termDone := true }) k p
        ((((getPerc s k p).run).map endCode).getD 0)
    else s
  | .mismatch =>
    let s := setMember s g (engineKey k) Member.none
    if waits then setResult s k p 0x06 else s
  | .failed => if waits then setResult s k p 0x06 else s
  | _ => s

/-- SCHEDULING_WINDOW (R203): a new window of 4,096 cluster cycles begins. -/
def execSchedulingWindow (k : ClusterId) (s : State) : Host.Outcome State Fault Refusal :=
  .next (modEng s k fun e => { e with window := e.window + 1, comp := e.comp.map fun c => { c with used := 0 } })

end Sys2Proof.Machine
end

