-- ==== Sys2Proof/Machine/PercPage.lean ====
section
/-! DEFINITION. The registers of a Percolator (07 Table 7.2) and of a slice page (16 Table 16.3), as reads and writes see them. -/

namespace Sys2Proof.Machine

/-! ## The Percolator page -/

def prcRingWord (e : Perc) : W64 := BitVec.ofNat 64 (e.en.toNat + 2 * e.log2n.toNat + e.ring.toNat)

def percRead (s : State) (k : ClusterId) (p : CompId) (off : Nat) : W64 :=
  let e := getPerc s k p
  match off with
  | 0x000 => prcRingWord e
  | 0x008 => e.head.setWidth 64
  | 0x010 => e.tail.setWidth 64
  | 0x018 => e.sid.setWidth 64
  | 0x020 => e.ptbase
  | 0x028 => e.rtab.setWidth 64
  | 0x030 => e.evacPtr
  | 0x038 => e.evacLim
  | 0x040 => e.mstkBase.setWidth 64
  | 0x048 => e.mstkLim.setWidth 64
  | 0x050 => BitVec.ofNat 64 (e.run.isSome.toNat + 2 * e.rerr.toNat + 4 * e.stopped.toNat + 256 * e.lasterr.toNat)
  | 0x058 => BitVec.ofNat 64 (e.irq.toNat + 256 * e.irqEn.toNat)
  | 0x060 => e.evacLow.setWidth 64
  | 0x068 => e.col.setWidth 64
  | 0x070 => e.late.setWidth 64
  | _ => 0

/-- A write of the page, with byte enables (11 R456). -/
def percWrite (s : State) (k : ClusterId) (p : CompId) (off : Nat) (be : Byte) (v : W64) : State :=
  let e := getPerc s k p
  let w1 := v &&& byteMask be
  let m (old : W64) : W64 := mergeBytes old v be
  match off with
  | 0x000 =>
    let v := m (prcRingWord e)
    let s := modPerc s k p fun e => { e with
      en := bit v 0, log2n := BitVec.ofNat 4 (fld v 1 4), ring := BitVec.ofNat 44 (fld v 12 32 * 4096) }
    if bit v 0 ∧ (fld v 1 4 < 4 ∨ 12 < fld v 1 4) then ringError s k p else s
  | 0x010 => writeTail s k p (m (e.tail.setWidth 64))
  | 0x018 => modPerc (engTlbDrop s k p) k p fun e => { e with sid := BitVec.ofNat 12 (fld (m (e.sid.setWidth 64)) 0 12) }
  | 0x020 => modPerc (engTlbDrop s k p) k p fun e => { e with ptbase := m e.ptbase &&& (0xFFFFFFFF001 : W64) }
  | 0x028 => modPerc s k p fun e => { e with rtab := BitVec.ofNat 44 (fld (m (e.rtab.setWidth 64)) 24 20 * 2 ^ 24) }
  | 0x030 => modPerc s k p fun e => { e with evacPtr := m e.evacPtr &&& (0xFFFFFFFFFFF0 : W64) }
  | 0x038 => modPerc s k p fun e => { e with evacLim := m e.evacLim &&& (0xFFFFFFFFFFF0 : W64) }
  | 0x040 => modPerc s k p fun e => { e with mstkBase := BitVec.ofNat 44 (fld (m (e.mstkBase.setWidth 64)) 6 38 * 64) }
  | 0x048 => modPerc s k p fun e => { e with mstkLim := BitVec.ofNat 44 (fld (m (e.mstkLim.setWidth 64)) 6 38 * 64) }
  | 0x050 => modPerc s k p fun e => { e with rerr := e.rerr && !bit w1 1 }
  | 0x058 => modPerc s k p fun e => { e with
      irq := e.irq &&& ~~~(w1.setWidth 4), irqEn := if bit be 1 then BitVec.ofNat 4 (fld v 8 4) else e.irqEn }
  | 0x060 => modPerc s k p fun e => { e with evacLow := (m (e.evacLow.setWidth 64)).setWidth 32 &&& ~~~15#32 }
  | 0x070 => modPerc s k p fun e => { e with late := (m (e.late.setWidth 64)).setWidth 32 }
  | _ => s

/-! ## The slice page -/

def sliceRead (s : State) (p : CompId) (off : Nat) : W64 :=
  let x := getComp s p
  if off < 0x40 then x.slcClass.get (Fin.ofNat 8 (off / 8))
  else if 0x800 ≤ off then smGet 0 x.slcMap ((off - 0x800) / 8)
  else 0

/-- The bits of `SLC_CLASS` that exist. -/
def slcClassMask : W64 := 0x3FFFFF

/-- The bits of `SLC_MAP` that exist. -/
def slcMapMask : W64 := 0x7777777777777777

/-- A write of the page: at user privilege it is ignored (16 R388). -/
def sliceWrite (s : State) (p : CompId) (user : Bool) (off : Nat) (be : Byte) (v : W64) : State :=
  let w := mergeBytes (sliceRead s p off) v be
  if user then s
  else if off < 0x40 then
    modComp s p fun x => { x with slcClass := x.slcClass.set (off / 8 % 8) (w &&& slcClassMask) (Nat.mod_lt _ (by decide)) }
  else if 0x800 ≤ off then
    modComp s p fun x => { x with slcMap := smPut 0 x.slcMap ((off - 0x800) / 8) (w &&& slcMapMask) }
  else s

end Sys2Proof.Machine
end

