-- ==== Sys2Proof/Machine/Timers.lean ====
section
/-! DEFINITION. Timers and event pins (14): the channels in the hub's tick, edges and captures, starts and staggers, and the channel
pages. A channel is evaluated through the ticks that have passed when something asks for it (log 12). -/

namespace Sys2Proof.Machine

/-! ## Pairs -/

/-- The low channel of the cascaded pair that a channel belongs to, if any. -/
def pairLow (s : State) (n : TimerId) : Option TimerId :=
  let lo : TimerId := Fin.ofNat 16 (n.val / 2 * 2)
  if (getTimer s lo).casc then some lo else none

def highOf (lo : TimerId) : TimerId := Fin.ofNat 16 (lo.val + 1)

def inPair (s : State) (n : TimerId) : Bool := (pairLow s n).isSome

/-! ## The hub's tick (R351) -/

/-- A channel and its partner evaluated through the end of each tick before `t`. -/
def throughTick (s : State) (n : TimerId) (t : W64) : State :=
  match pairLow s n with
  | none => modTimer s n fun x => runTicks (t - x.next).toNat x
  | some lo =>
    let r := runTicksPair (t - (getTimer s lo).next).toNat (getTimer s lo) (getTimer s (highOf lo))
    modTimer (modTimer s lo fun _ => r.1) (highOf lo) fun _ => r.2

/-- Bring a channel to the hub's tick, that tick left open for what takes effect in it. -/
def beforeTick (s : State) (n : TimerId) : State := throughTick s n (hubTick s)

/-! ## Starts, stops and staggers (R357 to R359) -/

/-- The channels of a mask that a compartment holds, ascending. -/
def heldIn (s : State) (p : CompId) (mask : BitVec 16) : List TimerId :=
  (compTimers s p).filter fun n => bit mask n.val

def startTimers (s : State) (p : CompId) (mask : BitVec 16) : State :=
  (heldIn s p mask).foldl (fun s n => modTimer (beforeTick s n) n fun t =>
    { t with count := 0, run := true, loaded := true, started := true }) s

def stopTimers (s : State) (p : CompId) (mask : BitVec 16) : State :=
  (heldIn s p mask).foldl (fun s n => modTimer (beforeTick s n) n fun t => { t with run := false }) s

def staggerTimers (s : State) (p : CompId) (mask : BitVec 16) : State :=
  let l := heldIn s p mask
  match l with
  | [] => s
  | r0 :: _ =>
    let z := getTimer s r0
    let per := effPeriod false z
    l.zipIdx.foldl (fun s n => modTimer (beforeTick s n.1) n.1 fun t =>
      { t with period := z.period, pre := z.pre, offset := BitVec.ofNat 32 (n.2 * per / l.length) }) s

/-- A timed action takes effect on the channels. -/
def timerAct (s : State) (a : TimerAct) : State :=
  if a.stagger then staggerTimers s a.comp a.mask else startTimers s a.comp a.mask

/-- The timed actions of the hub's tick take effect, after every register write of the tick (R351). -/
def settleActs (s : State) : State := s.timerActs.foldl timerAct { s with timerActs := [] }

/-- The channel as it stands at the end of the hub's tick, if nothing more takes effect in it. -/
def atEnd (s : State) (n : TimerId) : Timer :=
  let s := beforeTick (settleActs s) n
  match pairLow s n with
  | none => endAlone (getTimer s n)
  | some lo =>
    let r := endPair (getTimer s lo) (getTimer s (highOf lo))
    if lo = n then r.1 else r.2

/-- The level of a channel's pin in the hub's tick. -/
def pinNow (s : State) (n : TimerId) : Bool := pinLevel (inPair s n) (atEnd s n)

/-- TMR_GCMD_START (R357, R358). -/
def execTmrGcmdStart (p : CompId) (mask : BitVec 16) (s : State) : Host.Outcome State Fault Refusal :=
  .next (startTimers s p mask)

/-- TMR_GCMD_STOP (R358). -/
def execTmrGcmdStop (p : CompId) (mask : BitVec 16) (s : State) : Host.Outcome State Fault Refusal :=
  .next (stopTimers s p mask)

/-- TMR_GCMD_STAGGER (R359). -/
def execTmrGcmdStagger (p : CompId) (mask : BitVec 16) (s : State) : Host.Outcome State Fault Refusal :=
  .next (staggerTimers s p mask)

/-! ## As the hub's `TICK` passes -/

/-- Every channel is evaluated through the end of each tick before `t`. -/
def allThrough (s : State) (t : W64) : State :=
  (List.finRange 16).foldl (fun s n => if pairLow s n = some n ∨ !inPair s n then throughTick s n t else s) s

/-- The hub's `TICK` goes from its value to `t`: the actions of the tick that ends take effect, and where it does not go on by one,
every channel is evaluated through the tick that ends. -/
def passTick (s : State) (t : W64) : State :=
  let old := hubTick s
  if t = old then s
  else
    let s := if s.timerActs.isEmpty then s else settleActs s
    if t = old + 1 then s
    else
      let s := allThrough s (old + 1)
      { s with timers := s.timers.map fun x => { x with next := t, skip := t == old + 2 } }

/-- The island counters are loaded or stepped before `READY` (08 R212): the hub's tick ends, and an edge still to be captured belongs
to the tick that the hub steps to. -/
def setTicks (s : State) (v : Vector W64 34) : State :=
  let s := passTick s v[33]
  { s with
    timers := s.timers.map fun x => { x with edges := x.edges.map fun e => { e with stamp := v[33] } }
    weir := { s.weir with tick := v, corr := [] } }

/-- TIMER_ADVANCE (R350): the channel is evaluated through every tick that the hub's `TICK` has passed. -/
def execTimerAdvance (n : TimerId) (s : State) : Host.Outcome State Fault Refusal := .next (beforeTick s n)

/-! ## Captures and counts (R353 to R355) -/

/-- EVT_EDGE (R354, 08 R233): an edge on the pin of a channel, stamped up to 2 ticks after it arrives; it is captured at the end of
the stamp's tick. -/
def execEvtEdge (n : TimerId) (rising : Bool) (late : Fin 3) (s : State) : Host.Outcome State Fault Refusal :=
  let t := getTimer s n
  if t.omode ≠ 0 ∨ t.pin = rising then .next s
  else
    let stamp := hubTick s + BitVec.ofNat 64 late.val
    .next (modTimer (beforeTick s n) n fun t =>
      { t with pin := rising, edges := t.edges ++ [{ rising := rising, stamp := stamp }] })

/-- A read of a capture register: the value it holds, and the read, for the end of the tick. -/
def readCapture (s : State) (n : TimerId) (falling : Bool) : BitVec 32 × State :=
  let s := beforeTick s n
  let t := getTimer s n
  if falling then (t.capf, modTimer s n fun t => { t with readf := true })
  else (t.capr, modTimer s n fun t => { t with readr := true })

/-- A read of `TMR_COUNT` (R353): the count at the end of the tick; the high half of a cascaded pair is latched there. -/
def readCount (s : State) (n : TimerId) : BitVec 32 × State :=
  let s := beforeTick s n
  ((atEnd s n).count,
    if (getTimer s n).casc then modTimer s (highOf n) fun x => { x with latch := true } else s)

/-- TMR_COUNT_READ (R353). -/
def execTmrCountRead (n : TimerId) (s : State) : Host.Outcome State Fault Refusal := .next (readCount s n).2

/-- CAPTURE_READ (R355). -/
def execCaptureRead (n : TimerId) (falling : Bool) (s : State) : Host.Outcome State Fault Refusal :=
  .next (readCapture s n falling).2

/-! ## The channel page (Table 14.1) -/

/-- The compartment that holds a channel. -/
def timerOwner (s : State) (n : TimerId) : CompId :=
  (allComps.find? fun p => bit (getComp s p).res.timers n.val).getD 0

def ctlWord (t : Timer) : W64 :=
  BitVec.ofNat 64 (t.run.toNat + 2 * t.oneshot.toNat + 4 * t.pre.toNat + 64 * t.casc.toNat + 256 * t.omode.toNat
    + 1024 * t.level.toNat + 2048 * t.capen.toNat)

/-- A read of a channel's page. -/
def timerRead (s : State) (n : TimerId) (off : Nat) : W64 × State :=
  let t := atEnd s n
  match off with
  | 0x000 => (ctlWord t, s)
  | 0x008 => (t.period.setWidth 64, s)
  | 0x010 => (t.offset.setWidth 64, s)
  | 0x018 => (t.duty.setWidth 64, s)
  | 0x020 => let (v, s) := readCount s n; (v.setWidth 64, s)
  | 0x028 => ((if n.val % 2 = 1 then t.hshadow else 0).setWidth 64, s)
  | 0x030 => let (v, s) := readCapture s n false; (v.setWidth 64, s)
  | 0x038 => let (v, s) := readCapture s n true; (v.setWidth 64, s)
  | 0x040 => (BitVec.ofNat 64 (t.newr.toNat + 2 * t.newf.toNat + 4 * t.ovrr.toNat + 8 * t.ovrf.toNat
      + 16 * (outLevel (inPair s n) t).toNat + 32 * (pinLevel (inPair s n) t).toNat), s)
  | 0x048 => (BitVec.ofNat 64 (t.irq.toNat + 256 * t.en.toNat), s)
  | _ => (0, s)

/-- Whether `CASC` may be set on a channel: it is even, and one compartment holds it and the next (R353). -/
def cascOk (s : State) (n : TimerId) : Bool :=
  n.val % 2 == 0 && bit (getComp s (timerOwner s n)).res.timers (n.val + 1)

/-- A write of `TMR_CTL`; a pin that becomes an input has the level that the channel drove, until an edge. -/
def writeCtl (s : State) (n : TimerId) (be : Byte) (v : W64) : State :=
  let ok := cascOk s n
  let pair := inPair s n
  let s := if n.val % 2 = 0 then beforeTick s (highOf n) else s
  modTimer s n fun t =>
    let v := mergeBytes (ctlWord t) v be
    { t with
      run := bit v 0, oneshot := bit v 1, pre := BitVec.ofNat 4 (fld v 2 4), casc := bit v 6 && ok
      omode := BitVec.ofNat 2 (fld v 8 2), level := bit v 10, capen := bit v 11
      toggle := t.toggle && !(bit be 1), pin := pinLevel pair t }

/-- A write of a channel's page by a compartment, in the hub's tick. -/
def timerWrite (s : State) (n : TimerId) (p : CompId) (off : Nat) (be : Byte) (v : W64) : State :=
  let s := beforeTick s n
  let m32 (old : BitVec 32) : BitVec 32 := (mergeBytes (old.setWidth 64) v be).setWidth 32
  let w1 := v &&& byteMask be
  match off with
  | 0x000 => writeCtl s n be v
  | 0x008 => modTimer s n fun t => { t with period := m32 t.period }
  | 0x010 => modTimer s n fun t => { t with offset := m32 t.offset }
  | 0x018 => modTimer s n fun t => { t with duty := m32 t.duty }
  | 0x020 => modTimer s n fun t => { t with count := m32 t.count, loaded := true }
  | 0x040 => modTimer s n fun t => { t with ovrr := t.ovrr && !bit w1 2, ovrf := t.ovrf && !bit w1 3 }
  | 0x048 => modTimer s n fun t =>
    { t with irq := t.irq &&& ~~~(w1.setWidth 4), en := if bit be 1 then BitVec.ofNat 4 (fld v 8 4) else t.en }
  | 0x050 =>
    let mask : BitVec 16 := w1.setWidth 16
    match bit w1 16, bit w1 17, bit w1 18 with
    | true, false, false => startTimers s p mask
    | false, true, false => stopTimers s p mask
    | false, false, true => staggerTimers s p mask
    | _, _, _ => s
  | _ => s

end Sys2Proof.Machine
end

