-- ==== Sys2Proof/Machine/Time.lean ====
section
/-! DEFINITION. The passing of one tick of 1 ns, which is what the block does on an empty queue (log 5): every island
counter (08 R208 to R210), the core cycles of every cluster's clock (19 R438, R439; 03 R70) and the replacement LFSRs
that advance with them (12 R312). -/

namespace Sys2Proof.Machine

/-- The advance of island `i`: a correction after `READY` holds or skips one tick in 1,000 (08 R209, R210). -/
def tickIsland (now : Nat) (corr : Int) (t : W64) : W64 × Int :=
  if now % 1000 = 0 ∧ 0 < corr then (t + 2, corr - 1)
  else if now % 1000 = 0 ∧ corr < 0 then (t, corr + 1)
  else (t + 1, corr)

/-- Every island counter advances. -/
def tickWeir (now : Nat) (w : Weir) : Weir :=
  { w with
    tick := Vector.ofFn fun i => (tickIsland now (smGet 0 w.corr i.val) (w.tick.get i)).1
    corr := (List.range 34).foldl
      (fun m i => smPut 0 m i (tickIsland now (smGet 0 w.corr i) 0).2) w.corr }

/-- The core cycles that a clock completes in this tick: the clock runs in units of 50 MHz, 20 of them a cycle a ns. -/
def clockCycles (k : Clock) : Nat := (k.phase + k.freq) / 20

def tickClock (k : Clock) : Clock :=
  { k with phase := (k.phase + k.freq) % 20, half := k.half.xor (clockCycles k % 2 == 1) }

/-- The L2 cycles within `clockCycles`: the L2 clock is half the core clock (19 Table 19.4). -/
def l2Cycles (k : Clock) : Nat := (clockCycles k + k.half.toNat) / 2

def tickCluster (k : Cluster) : Cluster :=
  { k with l2 := { k.l2 with lfsr := lfsrAdvance (l2Cycles k.clk) k.l2.lfsr }, clk := tickClock k.clk }

/-- A core's cycles: `CYCLES` counts from the release (03 R70), the L1 LFSR always (12 R312). -/
def tickCore (n : Nat) (k : Core) : Core :=
  { k with
    cycles := if k.run = .held then k.cycles else k.cycles + BitVec.ofNat 64 n
    l1 := { k.l1 with lfsr := lfsrAdvance n k.l1.lfsr } }

/-- The 16 ns pulse on `WEIR_SYNC_OUT` ends (08 R212 step 3). -/
def endSync (now : Nat) (p : Pins) : Pins := if p.syncEnd ≤ now then { p with weirSyncOut := false } else p

/-- The hub's tick ends as its `TICK` goes on (14 R351, R358): the actions due for the timer channels act in it, then the channels
are evaluated. -/
def passHub (t : W64) (s : State) : State :=
  if t = hubTick s then s else passTick ((dueTimerActions s).foldl actTimer s) t

/-- One tick of 1 ns. -/
def idleTick (s : State) : State :=
  let s := { s with now := s.now + 1, pins := endSync (s.now + 1) s.pins }
  if clocksRun s then
    let t := (tickIsland s.now (smGet 0 s.weir.corr 33) (hubTick s)).1
    let s := passHub t s
    { s with
      weir := noteDue t (tickWeir s.now s.weir)
      cores := Vector.ofFn fun c => tickCore (clockCycles (getCl s (clusterOf c)).clk) (s.cores.get c)
      clusters := s.clusters.map tickCluster }
  else s

end Sys2Proof.Machine
end

