-- ==== Sys2Proof/Machine/Mailbox.lean ====
section
/-! DEFINITION. The host mailbox (15 R364 to R367): the registers and buffers of BAR0, the command header and its arguments. -/

namespace Sys2Proof.Machine

/-! ## The buffers (Table 15.2) -/

/-- Write bytes into the command buffer: a locked buffer discards them and sets `REJ` (R365). -/
def writeCmdBuf (s : State) (off : Nat) (b : List Byte) : State :=
  if s.mbx.busy then { s with mbx := { s.mbx with rej := true } }
  else { s with mbx := { s.mbx with cmd := putBytes s.mbx.cmd off (b.take (4096 - off)) } }

/-- The bytes of a command as the host writes them (Table 15.4). -/
def cmdBytes (opcode : Nat) (m : MbxCmd) : List Byte :=
  leBytes 2 opcode ++ leBytes 2 m.len.toNat ++ leBytes 4 m.seq.toNat ++ [m.compart, m.rsv9] ++ leBytes 2 m.rsv10.toNat
    ++ leBytes 4 m.rsv12.toNat ++ m.args.take 4080

/-! ## Header and arguments (Table 15.4) -/

def hdrN (s : State) (off n : Nat) : Nat := ofLe (getBytes s.mbx.cmd off n)

def cmdOpcode (s : State) : Nat := hdrN s 0 2
def cmdLen (s : State) : Nat := hdrN s 2 2
def cmdSeq (s : State) : Nat := hdrN s 4 4
def cmdComp (s : State) : Byte := smGet 0 s.mbx.cmd 8

/-- Whether the RSV bytes of the header are zero. -/
def hdrClean (s : State) : Bool := hdrN s 9 7 == 0

/-- An argument of `n` bytes at argument offset `off` (R366). -/
def argN (s : State) (off n : Nat) : Nat := hdrN s (16 + off) n

def argBytes (s : State) (off n : Nat) : List Byte := getBytes s.mbx.cmd (16 + off) n

/-- The argument length that a command defines (Table 15.6); none for an opcode that names no command. -/
def cmdArgLen (s : State) : Nat → Option Nat
  | 0x0001 => some 0
  | 0x0002 => some 0
  | 0x0010 => some 8
  | 0x0020 => some 80
  | 0x0021 => some 40
  | 0x0022 => some 16
  | 0x0023 => some 0
  | 0x0024 => some 0
  | 0x0025 => some 0
  | 0x0030 => some (16 + 40 * argN s 9 1)
  | 0x0031 => some 24
  | 0x0040 => some 2
  | 0x0041 => some 0
  | 0x0050 => some 0
  | 0x0060 => some 6
  | 0x0061 => some 4
  | 0x0070 => some (16 + argN s 8 4)
  | 0x0071 => some (16 + argN s 8 4)
  | 0x0080 => some 24
  | 0x00F0 => some 8
  | _ => none

/-- Commands that name a compartment. -/
def compCommand (op : Nat) : Bool := [0x20, 0x21, 0x22, 0x23, 0x24, 0x25, 0x31, 0x80].contains op

/-! ## Answers -/

def stOk : Nat := 0x00
def stBusy : Nat := 0x01
def stBadArg : Nat := 0x02
def stUnsupported : Nat := 0x03
def stNoResource : Nat := 0x04
def stState : Nat := 0x05
def stAuth : Nat := 0x06
def stTimeout : Nat := 0x07
def stHwError : Nat := 0x08
def stNotReady : Nat := 0x09

/-- Complete with a status alone. -/
def answer (s : State) (status : Nat) : State := respond s status 0 []

/-- The compartment that the executing command names. -/
def curComp (s : State) : CompId := Fin.ofNat 16 (cmdComp s).toNat

/-- Whether the Lockkeeper executes commands: its firmware runs, or its ROM in recovery (R362, R363, 19 R445). -/
def lkRuns (s : State) : Bool :=
  !s.lk.restarting && s.pins.resetN && (match s.lk.boot with
    | .off | .rom => false
    | _ => true)

/-! ## The registers (Table 15.3) -/

def mbxStatus (s : State) : W64 :=
  BitVec.ofNat 64 (s.mbx.busy.toNat + 2 * s.mbx.done.toNat + 4 * s.mbx.rej.toNat + 8 * s.pins.ready.toNat
    + 16 * s.mbx.recovery.toNat + 32 * s.mbx.evovf.toNat + 256 * s.mbx.hbeat.toNat)

/-- A register as the host reads it. -/
def mbxRead (s : State) (off : Nat) : W64 :=
  match off with
  | 0x0008 => mbxStatus s
  | 0x0010 => BitVec.ofNat 64 (s.mbx.irq.toNat + 256 * s.mbx.irqEn.toNat)
  | 0x0018 => s.mbx.evhead.setWidth 64
  | 0x0020 => BitVec.ofNat 64 (s.mbx.evtail.toNat + 2 ^ 16 * s.mbx.lost.toNat)
  | 0x0030 => BitVec.ofNat 64 (s.mbx.abRun.toNat + 2 ^ 16 * s.mbx.abDone.toNat + 2 ^ 32 * s.mbx.abForced.toNat)
  | _ => 0

/-- A write of `MBX_ABORT`: with the key, an abort of compartment `CID` starts, even while `BUSY` = 1 (R371). -/
def mbxAbort (s : State) (v : W64) : State :=
  if fld v 8 8 = 0xA5 then startAbort s (Fin.ofNat 16 (fld v 0 4)) false false else s

/-- A write of a register other than the doorbell. -/
def mbxWrite (s : State) (off : Nat) (be : Byte) (v : W64) : State :=
  let w := v &&& byteMask be
  match off with
  | 0x0008 => { s with mbx := { s.mbx with rej := s.mbx.rej && !bit w 2, evovf := s.mbx.evovf && !bit w 5 } }
  | 0x0010 => { s with mbx := { s.mbx with
      irq := s.mbx.irq &&& ~~~BitVec.ofNat 3 (fld w 0 3)
      irqEn := if bit be 1 then BitVec.ofNat 3 (fld v 8 3) else s.mbx.irqEn } }
  | 0x0018 => if bit be 0 then { s with mbx := { s.mbx with evhead := BitVec.ofNat 6 (fld v 0 6) } } else s
  | 0x0028 => mbxAbort s w
  | 0x0030 => { s with mbx := { s.mbx with
      abDone := s.mbx.abDone &&& ~~~BitVec.ofNat 16 (fld w 16 16)
      abForced := s.mbx.abForced &&& ~~~BitVec.ofNat 16 (fld w 32 16) } }
  | _ => s

/-- MBX_ABORT (R371). -/
def execMbxAbort (v : W64) (s : State) : Host.Outcome State Fault Refusal :=
  .next (if hostReaches s then mbxAbort s v else s)

end Sys2Proof.Machine
end

