-- ==== Sys2Proof/Machine/Release.lean ====
section
/-! DEFINITION. The release of a core (15 R369, R370, R374; 03 R86), and the notice page (15 Table 15.13). -/

namespace Sys2Proof.Machine

/-- `STATUS` at release (03 R72, R86). -/
def releaseStatus (modes : BitVec 3) : W64 :=
  setBit (setBit 0x201 7 (bit modes 0)) 8 (bit modes 1)

/-- The Lockkeeper releases a core: `BOOTEPC` for the lowest-numbered core at the first start, else `APEPC`. -/
def releaseCore (p : CompId) (first : Bool) (s : State) (c : CoreId) : State :=
  let x := getComp s p
  let epc := va48 (if first && (compCores s p).head? == some c then x.bootepc else x.apepc) &&& ~~~3#64
  let st := releaseStatus x.res.modes
  modCore s c fun k => { k with
    compart := compNo p, pc := epc, exc := { k.exc with epc := epc }, st := { newest := st, force := st, shadow := [] }
    run := .running, lock := none, lockHeld := false
    pend := { k.pend with stop := ((x.quiesce.map (·.stopped)).getD false) } }

/-- The Lockkeeper carries out a release that `LK_REQ` asks for (R374): in `RUNNING` alone, as `COMPARTMENT_START` does (R370). -/
def doRelease (s : State) (p : CompId) (c : CoreId) : State :=
  let result (s : State) (r : BitVec 3) : State := modComp s p fun x => { x with notice := { x.notice with
    reqCore := BitVec.ofNat 7 c.val, reqBusy := false, reqResult := r } }
  if !bit (getComp s p).res.cores c.val then result s 2
  else if !(getCore s c).lockHeld ∨ (getComp s p).st ≠ .running then result s 1
  else result (releaseCore p false s c) 0

/-- A write of `LK_REQ.RELEASE`: ignored while one runs; one that finds the Lockkeeper restarting waits for it. -/
def askRelease (s : State) (p : CompId) (c : CoreId) : State :=
  if (getComp s p).notice.reqBusy then s
  else if lkRuns s then doRelease s p c
  else modComp s p fun x => { x with notice := { x.notice with reqCore := BitVec.ofNat 7 c.val, reqBusy := true } }

/-- RELEASE (R374). -/
def execRelease (p : CompId) (c : CoreId) (s : State) : Host.Outcome State Fault Refusal := .next (askRelease s p c)

/-! ## The notice page (Table 15.13) -/

/-- The cores of a compartment that are locked up and held. -/
def lockedCores (s : State) (p : CompId) : Nat :=
  ((compCores s p).map fun c => if (getCore s c).lockHeld then 2 ^ c.val else 0).foldl (· + ·) 0

def noticeRead (s : State) (p : CompId) (off : Nat) : W64 :=
  let n := (getComp s p).notice
  match off with
  | 0x000 => BitVec.ofNat 64 (n.bits.toNat + 256 * n.en.toNat)
  | 0x008 => BitVec.ofNat 64 (lockedCores s p)
  | 0x010 => BitVec.ofNat 64 (lockedCores s p / 2 ^ 64)
  | 0x020 => BitVec.ofNat 64 (n.reqBusy.toNat + 2 * n.reqResult.toNat)
  | _ => 0

/-- A write of the page, with byte enables (11 R456). -/
def noticeWrite (s : State) (p : CompId) (off : Nat) (be : Byte) (v : W64) : State :=
  let w := v &&& byteMask be
  match off with
  | 0x000 => modComp s p fun x => { x with notice := { x.notice with
      bits := x.notice.bits &&& ~~~BitVec.ofNat 4 (fld w 0 4)
      en := if bit be 1 then BitVec.ofNat 4 (fld v 8 4) else x.notice.en } }
  | 0x018 => if bit w 8 then askRelease s p (Fin.ofNat 128 (fld w 0 7)) else s
  | _ => s

end Sys2Proof.Machine
end

