-- ==== Sys2Proof/Machine/Mmio.lean ====
section
/-! DEFINITION. The control and MMIO window (11 Table 11.1): which unit an offset names, who reaches it (07 R178), and what a
core or the Lockkeeper reads and writes there. -/

namespace Sys2Proof.Machine

/-! ## The pages -/

/-- A register of a page, by the offset in its page. -/
inductive Page where
  | perc (k : ClusterId) (p : CompId)
  | group (g : GroupId)
  | port (p : CompId)
  | weirStat
  | mnt (k : ClusterId) (p : CompId)
  | l2 (k : ClusterId)
  | timer (n : TimerId)
  | notice (p : CompId)
  | slice (p : CompId)
  | chan (n : ChanId)
  | queue (p : CompId)
deriving DecidableEq, Repr

/-- The page at an MMIO offset, if a unit assigns it (07 R178, 08 Tables 8.3 and 8.5 and R228, 12 R319 and R321, 14 R349, 15 R374,
16 R388, R391 and R396). -/
def pageAt (off : Nat) : Option Page :=
  let n := off / 0x1000
  if 0x100 ≤ n ∧ n < 0x200 then some (.perc (Fin.ofNat 16 (n / 16)) (Fin.ofNat 16 n))
  else if 0x200000 ≤ off ∧ off < 0x200800 then some (.group (Fin.ofNat 64 ((off - 0x200000) / 32)))
  else if 0x210 ≤ n ∧ n < 0x220 then some (.port (Fin.ofNat 16 n))
  else if 0x220000 ≤ off ∧ off < 0x220008 then some .weirStat
  else if 0x300 ≤ n ∧ n < 0x400 then some (.mnt (Fin.ofNat 16 (n / 16)) (Fin.ofNat 16 n))
  else if 0x400 ≤ n ∧ n < 0x410 then some (.l2 (Fin.ofNat 16 n))
  else if 0x500 ≤ n ∧ n < 0x510 then some (.timer (Fin.ofNat 16 n))
  else if 0x600 ≤ n ∧ n < 0x610 then some (.notice (Fin.ofNat 16 n))
  else if 0x700 ≤ n ∧ n < 0x710 then some (.slice (Fin.ofNat 16 n))
  else if 0x800 ≤ n ∧ n < 0x840 then some (.chan (Fin.ofNat 64 n))
  else if 0x900 ≤ n ∧ n < 0x910 then some (.queue (Fin.ofNat 16 n))
  else none

/-- Whether a unit assigns an MMIO offset (11 R289). -/
def mmioAssigned (_s : State) (off : Nat) : Bool := (pageAt off).isSome

/-- The compartment whose cores reach a page: none for a page that every core may read or that no core reaches; `some 0` for one
that nobody holds. -/
def pageOwner (s : State) (g : Page) : Option CompId :=
  match g with
  | .perc _ p | .port p | .mnt _ p | .notice p | .slice p | .queue p => some p
  | .group g => some (compId (groupOf s g).compart)
  | .timer n => some (timerOwner s n)
  | .chan n => some (chanOwner s n)
  | .weirStat | .l2 _ => none

/-- `WEIR_STAT` (08 Table 8.3). -/
def weirStat (s : State) : W64 :=
  let w := s.weir
  BitVec.ofNat 64 (w.lock.toNat + 2 * w.cal.toNat + 4 * w.root.toNat + 16 * w.rdev.toNat + 256 * w.live.toNat
    + 2 ^ 24 * w.faildev.toNat)

/-! ## Reads -/

/-- The register at an offset of a page, as one that reaches the page reads it. -/
def pageRead (s : State) (g : Page) (off : Nat) : W64 × State :=
  match g with
  | .perc k p => (percRead s k p off, s)
  | .group g => (groupWord (groupOf s g) (off / 8 % 4), s)
  | .port p => (actPortRead s p off, s)
  | .weirStat => (weirStat s, s)
  | .mnt k p => (mntRead s k p off, s)
  | .l2 k => (l2CtlRead s k off, s)
  | .timer n => timerRead s n off
  | .notice p => (noticeRead s p off, s)
  | .slice p => (sliceRead s p off, s)
  | .chan n => (cvRegRead s n off, s)
  | .queue p => (if off < 0x800 then qpRead s p (Fin.ofNat 8 (off / 0x100)) (off % 0x100) else 0, s)

/-- Whether a core reaches a page (R178): its compartment holds it. -/
def coreReaches (s : State) (c : CoreId) (g : Page) : Bool :=
  match pageOwner s g with
  | some p => compNo p == (getCore s c).compart && p != 0
  | none => match g with
    | .weirStat => true
    | _ => false

/-- What a core reads from a device register: zero from a page that it does not reach. -/
def mmioRead (c : CoreId) (off : Nat) : DM W64 := fun s =>
  match pageAt off with
  | some g => if coreReaches s c g then pageRead s g (off % 0x1000) else (0, s)
  | none => (0, s)

/-! ## Writes -/

/-- A write of a register of a page by compartment `p`, or the Lockkeeper where `lk` holds, with byte enables (11 R456); the group
table and `WEIR_STAT` are read-only to both here, and the L2 control page is the Lockkeeper's alone. -/
def pageWrite (s : State) (g : Page) (lk user : Bool) (off : Nat) (be : Byte) (v : W64) : State :=
  match g with
  | .perc k p => percWrite s k p off be v
  | .group _ | .weirStat => s
  | .port p => actPortWrite s p off be v
  | .mnt k p => mntWrite s k p off be v
  | .l2 k => if lk then l2CtlWrite s k off be v else s
  | .timer n => timerWrite s n (timerOwner s n) off be v
  | .notice p => noticeWrite s p off be v
  | .slice p => sliceWrite s p user off be v
  | .chan n => cvRegWrite s n (!user) off be v
  | .queue p =>
    if off < 0x800 then qpCoreWrite s p (Fin.ofNat 8 (off / 0x100)) (off % 0x100) be v
    else if off = 0x800 then hostIrq s p (v &&& byteMask be)
    else s

/-- Whether the attempt of a core to write a page that it does not reach is logged (R178, 12 R319): action ports, the group table
and `WEIR_STAT` have no such rule (08 R219, R228). -/
def logsAttempt (g : Page) : Bool :=
  match g with
  | .port _ | .group _ | .weirStat => false
  | .perc _ _ | .mnt _ _ | .l2 _ | .timer _ | .notice _ | .slice _ | .chan _ | .queue _ => true

/-- What a core's write of a device register does, at user privilege or not (07 R178; 18 Table 18.1 class 0x0C). -/
def mmioWrite (s : State) (c : CoreId) (user : Bool) (off : Nat) (be : Byte) (v : W64) : State :=
  match pageAt off with
  | none => s
  | some g =>
    if coreReaches s c g then pageWrite s g false user (off % 0x1000) be v
    else if logsAttempt g then logErr s 0x0C 1 (getCore s c).compart.toNat c.val 0 0
    else s

/-- What a write of a device register by the Lockkeeper does. -/
def lkWrite (s : State) (off : Nat) (be : Byte) (v : W64) : State :=
  match pageAt off with
  | none => s
  | some g => pageWrite s g true false (off % 0x1000) be v

end Sys2Proof.Machine
end

