-- ==== Sys2Proof/Machine/Access.lean ====
section
/-! DEFINITION. A core's accesses to memory: the checks of R289, the store queue and its forwarding (10 R270, R273), the
line-miss buffers (12 R330), remote accesses (17 R410 to R413), card checks (06 R172, R173) and fetch (04 R87). -/

namespace Sys2Proof.Machine

/-! ## Where an access is performed (11 R289, 12 R327) -/

/-- The physical address of the word that holds a byte. -/
def wordPa (pa : BitVec 44) : BitVec 44 := pa &&& ~~~7#44

def isRemote (s : State) (pa : BitVec 44) : Bool := paDev pa != s.devid

/-- Whether a local access of a core is performed at all. -/
def localOk (s : State) (comp : BitVec 4) (pa : BitVec 44) : Bool :=
  match classify s pa with
  | .dram o => installed s o && fenceOk s comp o
  | .mmio o => mmioAssigned s o
  | .carafe k o => carafeOk s k comp o
  | .unassigned => false
  | .remote _ => true

/-- The bus error of an access that is not performed (R289). -/
def checkAccess (c : CoreId) (va : W64) (kind : AKind) (x : Xlat) : CM Unit := do
  if !localOk (← sget) (← cget c).compart x.pa then busError c kind va

/-- Translate an access and check that it is performed. -/
def xlateData (c : CoreId) (va : W64) (kind : AKind) (user : Bool) : CM Xlat := do
  let x ← translate c va kind user
  checkAccess c (va48 va) kind x
  return x

/-! ## The store queue (10 R273) -/

/-- Split writes into runs that lie in one line, in order. -/
def byLine : List WordWrite → List (List WordWrite)
  | [] => []
  | w :: r => match byLine r with
    | (x :: g) :: rest => if lineOf x.pa = lineOf w.pa then (w :: x :: g) :: rest else [w] :: (x :: g) :: rest
    | rest => [w] :: rest

/-- Perform the writes of a store queue entry. A fence that has closed since the check lets nothing through (16 R385). -/
def performWrites (s : State) (c : CoreId) (mt : MemType) (user : Bool) (ws : List WordWrite) : State :=
  let ws := ws.filter fun w => localOk s (getCore s c).compart w.pa
  match mt with
  | .cached => (byLine ws).foldl (fun s g => l2StoreBy (some c) s (clusterOf c) (coreWays s c) g) s
  | .uncached => dramApply s ws
  | .device => ws.foldl (fun s w => mmioWrite s c user (paOff w.pa - 0xF000000000) w.mask w.w.payload) s
  | .carafe => ws.foldl (fun s w => match classify s w.pa with
      | .carafe k o => carafeStore s k o w
      | _ => s) s

/-- Writes that a core performs at once, without its queue: they update the copies that its own L1D holds too (12 R309, R310). -/
def performNow (s : State) (c : CoreId) (mt : MemType) (ws : List WordWrite) : State :=
  performWrites (if mt = .cached then modL1 s c fun l => dStore l ws else s) c mt false ws

/-- The oldest entry of a core's store queue drains. -/
def drainOne (s : State) (c : CoreId) : State :=
  match (getCore s c).sq with
  | [] => s
  | e :: r => performWrites (modCore s c fun k => { k with sq := r }) c e.mt e.user e.writes

def drainN : Nat → State → CoreId → State
  | 0, s, _ => s
  | n + 1, s, c => drainN n (drainOne s c) c

/-- The whole queue drains, oldest first. -/
def drainAll (s : State) (c : CoreId) : State := drainN (getCore s c).sq.length s c

/-- Put an entry into the queue, and into the L1D copies that the core holds (R273); a store that finds the queue full waits for the
oldest entry to drain. -/
def enqueue (s : State) (c : CoreId) (e : SqEntry) : State :=
  let s := if 8 ≤ (getCore s c).sq.length then drainOne s c else s
  modCore s c fun k => { k with sq := k.sq ++ [e], l1 := if e.mt = .cached then dStore k.l1 e.writes else k.l1 }

/-- The last write that an entry holds to a word. -/
def entryWrite (e : SqEntry) (pa : BitVec 44) : Option WordWrite :=
  (e.writes.filter fun w => w.pa == pa).getLast?

/-- What the queue says of a word: nothing, its whole word, or that so many entries must drain first (10 R270). -/
inductive SqHit where
  | miss
  | word (w : Word)
  | drain (n : Nat)
deriving DecidableEq, Repr

def sqLookup (sq : List SqEntry) (pa : BitVec 44) : SqHit :=
  match (sq.zipIdx.filter fun e => (entryWrite e.1 pa).isSome).getLast? with
  | none => .miss
  | some (e, i) => match entryWrite e pa with
    | some w => if w.tagged then .word w.w else .drain (i + 1)
    | none => .miss

/-- The queued stores to a word go first, for a read that takes nothing from the queue (11 R456). -/
def settleAll (c : CoreId) (pa : BitVec 44) : State → State := fun s =>
  match ((getCore s c).sq.zipIdx.filter fun e => (entryWrite e.1 pa).isSome).getLast? with
  | some (_, i) => drainN (i + 1) s c
  | none => s

/-- Drain what a word needs before it can be read from memory. -/
def settle (c : CoreId) (pa : BitVec 44) : DM (Option Word) := fun s =>
  match sqLookup (getCore s c).sq pa with
  | .miss => (none, s)
  | .word w => (some w, s)
  | .drain n => (none, drainN n s c)

/-! ## Line misses (12 R330) -/

/-- Carry out a line miss: the fill that its kind asks for. -/
def doFill (c : CoreId) (m : Miss) : State → State := fun s =>
  let det := stDET (getCore s c)
  match m.kind with
  | .fetch =>
    match classify s (BitVec.ofNat 44 (m.line * 64)) with
    | .carafe k o =>
      if det then s
      else
        let s := (List.range 8).foldl (fun s i => carafeCheck s k (o + 8 * i)) s
        modL1 s c fun l => iFill l (newILine m.line ((List.range 8).map fun i => carafeRead s k (o + 8 * i)))
    | _ => (coreFill c m.line true (!det) s).2
  | .load => (coreFill c m.line false (!det) s).2
  | .pref h =>
    if det ∨ (l2Of s (clusterOf c)).st ≠ .on then s
    else
      let (ws, s) := l2Fill (clusterOf c) (coreWays s c) m.line (h == 2) (if h == 3 then .mark else .keep) s
      if (h == 0 ∨ h == 3) ∧ (l2Get? s (clusterOf c) m.line).isSome then
        modL1 (setPresence s c m.line false) c fun l => dFill l (newILine m.line (withQueue (getCore s c) m.line ws))
      else s

/-- Record a miss in a line-miss buffer; a full set of buffers completes its oldest first. -/
def addMiss (c : CoreId) (m : Miss) : State → State := fun s =>
  let k := getCore s c
  if k.l1.miss.contains m then s
  else match k.l1.miss with
    | old :: rest =>
      if 8 ≤ k.l1.miss.length then
        modL1 (doFill c old (modL1 s c fun l => { l with miss := rest })) c fun l => { l with miss := l.miss ++ [m] }
      else modL1 s c fun l => { l with miss := l.miss ++ [m] }
    | [] => modL1 s c fun l => { l with miss := [m] }

/-- A cached word as a load reads it: from L1D or the victim buffer, else from L2 or memory, with the miss recorded (12 R309, R310). In
deterministic mode no L1 is read, and the miss fills L2 alone (10 R280). -/
def cachedRead (c : CoreId) (pa : BitVec 44) : DM Word := fun s =>
  let line := lineOf pa
  let (hit, s) := if stDET (getCore s c) then (none, s) else dRead c line s
  match hit with
  | some x => (x.words.getD (fld pa 3 3) uninit, s)
  | none => wordRead pa (addMiss c ⟨line, .load⟩ s)

/-! ## Remote accesses of a core (17 R410 to R413) -/

/-- The answer to a remote access that its instruction has had already. A read is kept under its word address, a write
under that address + 1, a compare-and-swap under + 2. -/
def remoteAnswer (k : Core) (key : BitVec 44) : Option (Option (List Word)) :=
  (k.replay.remote.find? fun r => r.1 == key).map (·.2)

/-- A remote access: the answer where it has come, else the request and the wait for it. -/
def remoteAccess (c : CoreId) (va : W64) (key : BitVec 44) (r : Core → RemoteReq) : CM (List Word) := do
  let k ← cget c
  match remoteAnswer k key with
  | some (some ws) => return ws
  | some none => busError c .load va
  | none =>
    match ← liftD (issueRemote (r k)) with
    | .busError => busError c .load va
    | .noCredit => waitFor .credit
    | .sent tid => waitFor (.remote tid)

def remoteReadWord (c : CoreId) (va : W64) (pa : BitVec 44) : CM Word := do
  let ws ← remoteAccess c va pa fun k =>
    { user := .core c, comp := k.compart, typ := 0x0, pa := pa, bytemask := 0, wmask := 0, nline := 0, bodytag := false,
      cls := stDET k, body := [] }
  return ws.headD uninit

def remoteWriteWord (c : CoreId) (va : W64) (w : WordWrite) : CM Unit := do
  let _ ← remoteAccess c va (w.pa + 1) fun k =>
    { user := .core c, comp := k.compart, typ := 0x3, pa := w.pa, bytemask := w.mask, wmask := 0, nline := 0,
      bodytag := w.tagged, cls := stDET k, body := [w.w] }

/-! ## Reading a word -/

/-- A local word as the core sees it, once no queued store holds it. -/
def localRead (c : CoreId) (pa : BitVec 44) (mt : MemType) : DM Word := fun s =>
  match mt, classify s pa with
  | .cached, _ => cachedRead c pa s
  | .uncached, .dram o => dramRead false o s
  | .carafe, .carafe k o => carafeLoad k o s
  | _, _ => (uninit, s)

/-- A device register as a tagged load reads it: its 64 bits as `BYTES`, after the core's own stores to it (11 R456). -/
def deviceRead (c : CoreId) (pa : BitVec 44) : DM Word := fun s =>
  let s := settleAll c pa s
  match classify s pa with
  | .mmio o => let (v, s) := mmioRead c o s; (bytesW v, s)
  | _ => (uninit, s)

/-- The word at a translated address, as the core sees it (R104): its own queued stores first. -/
def readWord (c : CoreId) (va : W64) (x : Xlat) : CM Word := do
  let pa := wordPa x.pa
  if isRemote (← sget) pa then remoteReadWord c va pa
  else if x.mt = .device then liftD (deviceRead c pa)
  else
    match ← liftD (settle c pa) with
    | some w => return w
    | none => liftD (localRead c pa x.mt)

/-- `POISON` read by a load (02 R44). -/
def poisonCheck (c : CoreId) (w : Word) (va : W64) : CM Unit :=
  if w.tag = 0x08 then raise c 0x16 0 (va &&& ~~~7#64) w.payload else pure ()

/-- The word that a barriered load reads, read once however often its instruction waits (06 R160). -/
def latchRead (c : CoreId) (va : W64) (x : Xlat) : CM Word := do
  match ((← cget c).replay.words.find? fun r => r.1 == va).map (·.2) with
  | some w => return w
  | none => do
    let w ← readWord c va x
    cmod c fun k => { k with replay := { k.replay with words := k.replay.words ++ [(va, w)] } }
    return w

/-! ## Card checks (06 R172, R173) -/

/-- The engine that serves a card: cluster (physical region mod 16) (R173). -/
def cardEngine (pa : BitVec 44) : ClusterId := Fin.ofNat 16 (physRegion pa)

/-- Enter a card in a core's filter of 64. -/
def cardEnter (k : Core) (card : Nat) : Core :=
  if k.cards.contains card then k
  else { k with cards := (if 64 ≤ k.cards.length then k.cards.drop 1 else k.cards) ++ [card] }

/-- The check of a write to a local word by a core (R173): pass, fail with vector 0x13 subcode 0x05, or wait. -/
def cardCheck (c : CoreId) (ea : W64) (x : Xlat) : CM Unit := do
  let k ← cget c
  let s ← sget
  if isRemote s x.pa || !regionPending s k.compart x.rattr x.pa then return
  let card := cardOf x.pa
  if k.cards.contains card then return
  match (k.replay.cards.find? fun r => r.1 == card).map (·.2) with
  | some true => cmod c fun k => cardEnter k card
  | some false => raise c 0x13 0x05 ea (BitVec.ofNat 64 (fld ea 0 48 + x.rattr.toNat * 2 ^ 56))
  | none => do
    enterRom c 0x0180 (va48 ea).toNat fun m => { m with ea := va48 ea }
    let r : CardReq := { core := c, comp := k.compart, pa := x.pa, leaf := x.level == 1, copying := false }
    smod fun s => modEng s (cardEngine x.pa) fun e => { e with cards := e.cards ++ [r] }
    waitFor (.card x.pa)

/-! ## Stores -/

/-- One word of a store that has passed its checks: its virtual address, its translation and the write. -/
structure Store where
  va : W64
  x : Xlat
  w : WordWrite
deriving DecidableEq, Repr

/-- The write of a whole tagged word. -/
def taggedStore (va : W64) (x : Xlat) (w : Word) : Store :=
  { va := va, x := x, w := { pa := wordPa x.pa, mask := 0xFF, w := w, tagged := true } }

/-- The write of bytes of one word by a raw store (02 R52). -/
def rawStoreOf (va : W64) (x : Xlat) (mask : Byte) (v : W64) : Store :=
  { va := va, x := x, w := { pa := wordPa x.pa, mask := mask, w := ⟨0x06, v⟩, tagged := false } }

/-- The writes of a store's local words by queue entry (R273): those of one memory type and one line, or with `one` all of one type. -/
def entryRuns (one : Bool) : List (MemType × WordWrite) → List (MemType × List WordWrite)
  | [] => []
  | (m, w) :: r => match entryRuns one r with
    | (m', x :: g) :: rest =>
      if m' = m ∧ (one ∨ lineOf x.pa = lineOf w.pa) then (m, w :: x :: g) :: rest else (m, [w]) :: (m', x :: g) :: rest
    | rest => (m, [w]) :: rest

/-- Perform stores whose checks have passed: remote words each with its acknowledgement, the local words as store queue entries; `one`
is the store of a `VST`, which is one entry whatever lines it touches (R273). -/
def putStores (c : CoreId) (pc : W64) (one : Bool) (l : List Store) : CM Unit := do
  let s ← sget
  let rec remotes : List Store → CM Unit
    | [] => pure ()
    | r :: rest => do
      remoteWriteWord c r.va r.w
      remotes rest
  remotes (l.filter fun r => isRemote s r.w.pa)
  let locals := l.filter fun r => !isRemote s r.w.pa
  smod fun s => (entryRuns one (locals.map fun r => (r.x.mt, r.w))).foldl (fun s e =>
    enqueue s c { mt := e.1, user := !isSys (getCore s c), writes := e.2, pc := pc, split := none, full := coversLine e.2 }) s

/-! ## Fetch (04 R87, 10 R280) -/

/-- An instruction word from memory, no L1I copy being there. -/
def fetchMem (x : Xlat) (pa : BitVec 44) : DM Word := fun s =>
  match x.mt, classify s pa with
  | .carafe, .carafe k o => carafeLoad k o s
  | .uncached, .dram o => dramRead false o s
  | _, _ => wordRead pa s

/-- A line as the fetch buffer of deterministic mode takes it; the L2 is filled as in normal mode (R280). -/
def fetchLine (c : CoreId) (x : Xlat) (line : Nat) : DM (List Word) := fun s =>
  let r := (List.range 8).foldl (fun (r : List Word × State) i =>
    let (w, s) := fetchMem x (BitVec.ofNat 44 (line * 64 + 8 * i)) r.2
    (r.1 ++ [w], s)) ([], s)
  let s := modL1 r.2 c fun l => { l with fbuf := (l.fbuf.drop (l.fbuf.length - 1)) ++ [newILine line r.1] }
  (r.1, if x.mt = .cached then addMiss c ⟨line, .fetch⟩ s else s)

/-- The word of an instruction address as fetch sees it: L1I or the fetch buffer first (04 R116). An L1I line with bad parity is
invalidated and fetched again (12 Table 12.4). -/
def fetchRead (c : CoreId) (x : Xlat) : DM Word := fun s =>
  let pa := wordPa x.pa
  let line := lineOf pa
  let k := getCore s c
  let miss (s : State) : Word × State :=
    let (w, s) := fetchMem x pa s
    (w, if x.mt = .uncached then s else addMiss c ⟨line, .fetch⟩ s)
  if stDET k then
    match k.l1.fbuf.find? (fun l => l.line == line) with
    | some l => (l.words.getD (fld pa 3 3) uninit, s)
    | none =>
      let (ws, s) := fetchLine c x line s
      (ws.getD (fld pa 3 3) uninit, s)
  else
    match (iIdx? k.l1 line).bind (smGet? k.l1.icache) with
    | some l =>
      if l.isBad then
        miss (logParity (modL1 s c (iDrop · line)) (clusterOf c) k.compart (BitVec.ofNat 64 (line * 64)))
      else (l.words.getD (fld pa 3 3) uninit, s)
    | none => miss s

/-- The word at an instruction address as it stands now, with nothing of the state changed; none where its fetch would fault. -/
def peekWord (c : CoreId) (va : W64) (s : State) : Option Word :=
  match (translate c va .fetch (!isSys (getCore s c))).run s with
  | .ok x t => if localOk t (getCore t c).compart x.pa then some (fetchRead c x t).1 else none
  | .error _ _ => none

/-- The fetch checks of an instruction word (09 R262 row 1): translation, bus error, `POISON` and `UNINIT`. The word that
memory holds is not compared with the instruction that the command delivers. Directly behind a store the word is its old form, which
the storing instruction has kept (04 R116). -/
def fetchCheck (c : CoreId) (va : W64) : CM Unit := do
  let va := va48 va
  let k ← cget c
  let x ← translate c va .fetch (!isSys k)
  checkAccess c va .fetch x
  let w ← liftD (fetchRead c x)
  let w := match k.ahead with
    | some (a, old) => if a = va then old else w
    | none => w
  if w.tag = 0x08 then raise c 0x16 0 (va &&& ~~~7#64) w.payload
  if w.tag = 0x07 then tagFaultAt c 0x01 w.tag 3 va

/-- Keep the word of the next instruction as it stands before this instruction's stores (04 R116). -/
def keepAhead (c : CoreId) (va : W64) : CM Unit := fun s =>
  .ok () (modCore s c fun k => { k with ahead := (peekWord c va s).map fun w => (va48 va, w) })

end Sys2Proof.Machine
end

