-- ==== Sys2Proof/Machine/Barrier.lean ====
section
/-! DEFINITION. The barriers of a core (06): stale words, healing, `Forward` and the mark buffer as the core sees them,
heal writes, register healing, and the store barrier with its remembered log. -/

namespace Sys2Proof.Machine

/-- `Stale` under the core's `GOODCOL` (R158). -/
def stale (k : Core) (w : Word) : Bool := staleFor k.heap.goodcol w.tag

/-- A barrier fault (R162). -/
def barrierFault {α : Type} (c : CoreId) (sub : Byte) (ea : W64) (w : Word) (ra : Byte) : CM α :=
  raise c 0x13 sub ea (BitVec.ofNat 64 (fld w.payload 0 48 + w.tag.toNat * 2 ^ 48 + ra.toNat * 2 ^ 56))

/-- `Forward` (R159): the answer where it has come, else a request to the cluster's Percolator and the wait. None: refused. -/
def forward (c : CoreId) (w : Word) (pa : BitVec 44) : CM (Option W64) := do
  let k ← cget c
  match (k.replay.fwd.find? fun r => r.1 == w.payload).map (·.2) with
  | some n => return n
  | none => do
    let r : FwdReq := { core := c, comp := k.compart, va := w.payload, pa := pa,
                        ptype := BitVec.ofNat 5 (ptype w.tag), waiting := false, origin := none }
    smod fun s => modEng s (clusterOf c) fun e => { e with fwd := e.fwd ++ [r] }
    waitFor (.forward w.payload)

/-- `MarkPush` (R159): the core waits while the buffer's 16 entries are full. A mark that the instruction pushed before it waited is not
pushed again. -/
def markPush (c : CoreId) (w : Word) (pa : BitVec 44) : CM Unit := do
  let k ← cget c
  let e : MarkEntry := { va := va48 w.payload, pa := pa, ptype := BitVec.ofNat 5 (ptype w.tag) }
  if k.replay.seen < k.replay.marks then
    cmod c fun k => { k with replay := { k.replay with seen := k.replay.seen + 1 } }
  else
    if 16 ≤ k.mark.length then waitFor .markRoom
    cmod c fun k => { k with
      mark := k.mark ++ [e], replay := { k.replay with marks := k.replay.marks + 1, seen := k.replay.seen + 1 } }

/-- `Heal` (R158) of a stale word, from location `ea` (0: a register, which reports position `pos`). -/
def heal (c : CoreId) (w : Word) (ea : W64) (pos : Nat) : CM Word := do
  if !wellFormed w then tagFaultAt c 0x03 w.tag pos ea
  match ← liftD (barrierXlat c w.payload) with
  | none => barrierFault c 0x04 ea w 0
  | some (x, _) => do
    let n ← match raState x.rattr with
      | 0 => barrierFault c 0x02 ea w x.rattr
      | 3 | 4 => do
        match ← forward c w x.pa with
        | some n => pure n
        | none => barrierFault c 0x01 ea w x.rattr
      | 1 | 2 | 5 => do
        markPush c w x.pa
        pure w.payload
      | _ => barrierFault c 0x03 ea w x.rattr
    return ⟨ptrTag (← cget c).heap.goodcol (ptype w.tag), n⟩

/-- A local word as an atomic operation reads it: a cached line is obtained in M or E first, whether or not it will be written
(12 R314). -/
def ownedRead (c : CoreId) (x : Xlat) : DM Word := fun s =>
  let pa := wordPa x.pa
  match x.mt, classify s pa with
  | .cached, .dram _ =>
    let (ws, s) := l2Fill (clusterOf c) (coreWays s c) (lineOf pa) true .demand s
    (ws.getD (fld pa 3 3) uninit, s)
  | .uncached, .dram o => dramRead false o s
  | .carafe, .carafe k o => carafeLoad k o s
  | _, _ => (uninit, s)

/-- An atomic compare and write of a word of local memory (R160): whether it wrote, and the word it found. The core's queued stores to
the word go first. -/
def localCas (c : CoreId) (x : Xlat) (test : Word → Bool) (new : Word) : DM (Bool × Word) := fun s =>
  let (old, s) := ownedRead c x (settleAll c (wordPa x.pa) s)
  if test old then ((true, old), performNow s c x.mt [wholeWrite (wordPa x.pa) new]) else ((false, old), s)

/-- `HealCAS` (R160): not attempted on a page without W or D, nor on a device page; a bus error raises nothing. Whether it wrote:
another device's answer is not waited for (a free value). DESIGN CHOICE (log 62): the card check comes before the compare. -/
def healCas (c : CoreId) (ea : W64) (w h : Word) : CM Bool := do
  match ← liftD (barrierXlat c ea) with
  | none => return false
  | some (x, pte) => do
    if !pteW pte || !pteD pte || x.mt == .device then return false
    let s ← sget
    let k ← cget c
    if isRemote s x.pa then
      let key := wordPa x.pa + 3
      if (remoteAnswer k key).isSome then return bit (Config.microLatch (← liftD fresh) 49).payload 0
      match ← liftD (issueRemote { user := .heal c, comp := k.compart, typ := 0x6, pa := wordPa x.pa, bytemask := 0xFF,
                                   wmask := 0, nline := 0, bodytag := true, cls := stDET k, body := [w, h] }) with
      | .noCredit => waitFor .credit
      | _ => do
        cmod c fun k => { k with replay := { k.replay with remote := k.replay.remote ++ [(key, some [])] } }
        return bit (Config.microLatch (← liftD fresh) 49).payload 0
    else if localOk s k.compart x.pa then
      cardCheck c ea x
      return (← liftD (localCas c x (· == w) h)).1
    else return false

/-- `LoadBarrier` (R158). -/
def loadBarrier (c : CoreId) (w : Word) (ea : W64) : CM Word := do
  if !stale (← cget c) w then return w
  let h ← heal c w ea 3
  let _ ← healCas c ea w h
  return h

/-- The slow path of the pipeline's own loads starts in microcode (13 Table 13.1). -/
def enterBarrier (c : CoreId) (w : Word) (ea : W64) : CM Unit := do
  if stale (← cget c) w then enterRom c 0x0100 (va48 ea).toNat fun m => { m with mdr := w, ea := va48 ea, stale := true }

/-- A register has been healed: it holds the new word from then on, what it held is kept until the instruction ends (R161), and the
marks of the heal are done with. -/
def healed (k : Core) (r : Reg) (w h : Word) (marks : Nat) : Core :=
  { gwrite k r h with replay := { k.replay with healed := k.replay.healed ++ [(ipl k, r, w)], marks := marks, seen := marks } }

/-- Register healing (R163). -/
def healReg (c : CoreId) (r : Reg) (pos : Nat) : CM Word := do
  let w ← reg c r
  if !stale (← cget c) w then return w
  enterRom c 0x0140 r.val id
  let marks := (← cget c).replay.marks
  let h ← heal c w 0 pos
  cmod c fun k => healed k r w h marks
  return h

/-- A barriered load of the word at a translated address. -/
def loadThrough (c : CoreId) (va : W64) (x : Xlat) : CM Word := do
  let w ← latchRead c va x
  poisonCheck c w va
  enterBarrier c w va
  loadBarrier c w va

/-- The same by a routine that is microcode itself, which the sequencer does not leave. -/
def loadWithin (c : CoreId) (va : W64) (x : Xlat) : CM Word := do
  let w ← latchRead c va x
  poisonCheck c w va
  loadBarrier c w va

/-! ## The store barrier (R168 to R170) -/

/-- A remembered-log entry (Table 6.6). -/
def logWord (k : Core) (ea : W64) : Word :=
  bytesW (BitVec.ofNat 64 (fld ea 0 48 + fld k.mmu.space 0 12 * 2 ^ 48))

/-- Whether the store barrier logs a store of `v` to a page with field `ra` (R168). -/
def mustLog (c : CoreId) (v : Word) (ra : Byte) : CM Bool := do
  if !isPtr v.tag || ptype v.tag == 0x08 || (0x0A ≤ ptype v.tag && ptype v.tag ≤ 0x0F) || colourOf v.tag == 0 then
    return false
  if raNobar ra then return false
  if fld v.payload 48 16 ≠ 0 then return true
  match ← liftD (barrierXlat c v.payload) with
  | none => return true
  | some (x, _) => return decide (raGen x.rattr < raGen ra)

/-- The store barrier's decision and checks, with `n` entries already planned: the entry to append, if any. Where `skips`, a repeat
of one of the last four may be omitted (R170). Nothing is written. -/
def planLogAs (skips : Bool) (c : CoreId) (v : Word) (ea : W64) (x : Xlat) (n : Nat) : CM (Option Store) := do
  if (← cget c).replay.done then return none
  if !(← mustLog c v x.rattr) then return none
  let k ← cget c
  let e := logWord k ea
  let skip ← if skips && k.recent.contains e.payload then do
      let i ← liftD fresh
      pure (Config.omitRepeat i)
    else pure false
  if skip then return none
  let p := k.heap.rlogPtr + BitVec.ofNat 64 (8 * n)
  if p.toNat + 8 > k.heap.rlogLim.toNat then raise c 0x10 0x01 k.heap.rlogPtr (va48 ea)
  let y ← xlateData c p .store false
  cardCheck c p y
  return some (taggedStore p y e)

def planLog (c : CoreId) (v : Word) (ea : W64) (x : Xlat) (n : Nat) : CM (Option Store) := planLogAs true c v ea x n

/-- The port of a store to another device that has not been answered; none where there is no route. -/
def storePort (s : State) (r : Store) : Option PortId := (firstHop s (paDev r.w.pa) r.w.pa).map (·.1)

/-- Whether the stores of an instruction can be issued: every remote one of them finds a credit, which it holds from then on, before
anything is written (17 R411, R412). -/
def creditCheck (c : CoreId) (l : List Store) : CM Unit := do
  let s ← sget
  let k ← cget c
  let todo := l.filter fun r => isRemote s r.w.pa && (remoteAnswer k (r.w.pa + 1)).isNone
  let none? (r : Store) : Bool := match storePort s r with
    | some x => creditsHeld s k.compart x == 0
    | none => true
  match todo.find? none? with
  | some r => busError c .store r.va
  | none =>
    let ports := (todo.filterMap (storePort s)).eraseDups
    let free (x : PortId) : Bool := holdsCredit s (.core c) x || creditsUsed s k.compart x < creditsHeld s k.compart x
    if ports.all free then cmod c fun k => { k with replay := { k.replay with ports := (k.replay.ports ++ ports).eraseDups } }
    else waitFor .credit

/-- Entries have been appended to the remembered log (R169, R170). -/
def logged (k : Core) (es : List W64) : Core :=
  { k with
    heap := { k.heap with rlogPtr := k.heap.rlogPtr + BitVec.ofNat 64 (8 * es.length) }
    recent := (k.recent ++ es).drop (k.recent.length + es.length - 4) }

/-- The stores of an instruction are under way: a repeat of it appends nothing. -/
def setDone (k : Core) : Core := { k with replay := { k.replay with done := true } }

/-- Append planned log entries, then perform the stores they log; a repeat of a waiting instruction appends nothing. Entries in this
device's memory are performed before a store that goes to another device, which nothing else orders behind them (R169). -/
def commitStores (c : CoreId) (pc : W64) (one : Bool) (logs data : List Store) : CM Unit := do
  creditCheck c (logs ++ data)
  if !(← cget c).replay.done then
    putStores c pc false logs
    cmod c fun k => setDone (logged k (logs.map (·.w.w.payload)))
  let s ← sget
  if !logs.isEmpty && data.any fun r => isRemote s r.w.pa then smod fun s => drainAll s c
  putStores c pc one data

/-- A tagged store of one word with all of its checks (04 R96, R97; 06 R168, R172), at user privilege or not. -/
def storeWordAs (c : CoreId) (ea : W64) (v : Word) (barrier user : Bool) : CM Unit := do
  let k ← cget c
  let x ← xlateData c ea .store user
  let lg ← if barrier then planLog c v ea x 0 else pure none
  cardCheck c ea x
  commitStores c k.pc false lg.toList [taggedStore ea x v]

/-- A tagged store at the core's own privilege. -/
def storeWord (c : CoreId) (ea : W64) (v : Word) (barrier : Bool) : CM Unit := do
  storeWordAs c ea v barrier (!isSys (← cget c))

end Sys2Proof.Machine
end

