-- ==== Sys2Proof/Machine/BlockParts.lean ====
section
/-! DEFINITION. The parts of an iteration of a block instruction that microcode shares (04 R113, 13 R337): elements, room to a line or a
bound, planned stores, and the advance of count and indices. -/

namespace Sys2Proof.Machine

/-- An object of a block instruction: its address, how far element 0 lies from it, and its bound. -/
structure BObj where
  base : W64
  off : Nat
  bound : Nat
deriving DecidableEq, Repr

/-- The address of element `x`. -/
def elemAddr (o : BObj) (x : Nat) (byte : Bool) : W64 :=
  va48 (o.base + BitVec.ofNat 64 (o.off + (if byte then x else 8 * x)))

/-- The elements from an address to the end of its line. -/
def lineRoom (a : W64) (byte : Bool) : Nat := if byte then 64 - fld a 0 6 else max 1 ((64 - fld a 0 6) / 8)

/-- How many elements of an object an iteration may take from index `x` (R113, 13 R337). -/
def objRoom (o : BObj) (x : Nat) (byte : Bool) : Nat := min (lineRoom (elemAddr o x byte) byte) (max 1 (o.bound - x))

/-- The translation of an element `i` words after the one that a stream was opened at. -/
def shiftXlat (x : Xlat) (i : Nat) : Xlat := { x with pa := x.pa + BitVec.ofNat 44 (8 * i) }

/-- Plan the stores of words from an address on, each with its store barrier: the log entries and the stores. -/
def planWords (c : CoreId) (a : W64) (x : Xlat) : Nat → List Word → List Store → CM (List Store × List Store)
  | _, [], logs => pure (logs, [])
  | i, w :: r, logs => do
    let ea := va48 (a + BitVec.ofNat 64 (8 * i))
    let y := shiftXlat x i
    let lg ← planLog c w ea y logs.length
    let (ls, ss) ← planWords c a x (i + 1) r (logs ++ lg.toList)
    return (ls, taggedStore ea y w :: ss)

/-- gc and gb after an iteration has consumed `used` elements. DESIGN CHOICE (log 63): an index beyond 2^32 − 1 wraps in its own 32 bits. -/
def blockAdvance (c : CoreId) (gc gb : Reg) (used : Nat) : CM Unit := do
  let n ← reg c gc
  let g ← reg c gb
  setReg c gc ⟨n.tag, n.payload - BitVec.ofNat 64 used⟩
  let i := (fld g.payload 0 32 + used) % 2 ^ 32
  let j := (fld g.payload 32 32 + used) % 2 ^ 32
  setReg c gb ⟨g.tag, BitVec.ofNat 64 (i + j * 2 ^ 32)⟩

/-- What the check phase of an iteration decides: how many elements it consumes, whether it stops on a hit, and the log
entries and stores that it will write. -/
structure IterPlan where
  used : Nat
  hit : Bool
  logs : List Store
  data : List Store

/-- The stores of an iteration; whether a bus error struck once writing had begun, with its report (R102, R115). -/
def blockWrite (c : CoreId) (p : IterPlan) : CM (Option Report) := do
  let k ← cget c
  tryCatch (do
    commitStores c k.pc false p.logs p.data
    pure none)
    fun x => match x with
      | .exc e => do
        let ans := (p.logs ++ p.data).filterMap fun r => remoteAnswer k (r.w.pa + 1)
        if ans.isEmpty then throw x
        else return some { vec := 0x05, sub := 0x02, eaddr := e.eaddr,
                           einfo := va48 k.pc + (if ans.any (·.isSome) then 0x1000000000000 else 0) }
      | x => throw x

/-- What a core keeps when an iteration of a pair has ended (04 R113). -/
def endIteration (k : Core) : Core :=
  { k with replay := nextIteration k.replay, micro := { k.micro with saved := none } }

/-- A bounds exception (R148, R149). -/
def boundsFault {α : Type} (c : CoreId) (sub : Byte) (obj : W64) (bound idx : Nat) : CM α :=
  raise c 0x0C sub obj (BitVec.ofNat 64 (bound % 2 ^ 32 + idx % 2 ^ 32 * 2 ^ 32))

end Sys2Proof.Machine
end

