-- ==== Sys2Proof/Machine/Exceptions.lean ====
section
/-! DEFINITION. Exceptions and interrupts of a core (09): long operations and their reports, the sources of interrupts,
entry, lockup and the recovery stub, return and chaining, and what happens at an instruction boundary. -/

namespace Sys2Proof.Machine

/-! ## Long operations (10 R274, R275; 09 R253) -/

/-- A long operation delivers its result, its flags, or its report. -/
def completeOp (k : Core) (o : LongOp) : Core :=
  let k := { k with nfl := k.nfl ||| o.flags.setWidth 64 }
  match o.zdiv with
  | some pc => { k with pend := { k.pend with
      reports := k.pend.reports ++ [{ vec := 0x0D, sub := 0x02, eaddr := 0, einfo := va48 pc }] } }
  | none => match o.dest with
    | .gpr b r => setRegOf k b r ⟨o.tag, o.val.setWidth 64⟩
    | .vreg r => { k with v := k.v.set r.val o.val r.isLt }

/-- The long operations that satisfy a test complete, oldest first. -/
def completeWhere (p : LongOp → Bool) (k : Core) : Core :=
  (k.longs.filter p).foldl completeOp { k with longs := k.longs.filter fun o => !p o }

def completeAll (k : Core) : Core := completeWhere (fun _ => true) k

/-! ## STATUS takes effect -/

/-- What follows a change of the `STATUS` in force: a change of `DET` clears the L1s and the predictor and reseeds the TLB
LFSR (10 R281). -/
def putForce (k : Core) (v : W64) : Core :=
  let k' := { k with st := { k.st with force := v } }
  if bit v 8 = stDET k then k'
  else { k' with l1 := l1Clear k'.l1, pred := Predictor.reset, tlb := { k'.tlb with lfsr := 0x1D0F } }

/-- `STATUS` set atomically, any shadow discarded (03 R73, 09 R250). -/
def setStatus (k : Core) (v : W64) : Core :=
  let k := putForce k v
  { k with st := { newest := v, force := v, shadow := [] } }

/-! ## Interrupt sources (09 Table 9.6) -/

/-- Whether a source is pending for a core. -/
def srcPending (s : State) (c : CoreId) (v : Nat) : Bool :=
  let k := getCore s c
  let p := compId k.compart
  if k.compart = 0 then false
  else if v < 0x40 then false
  else if v < 0x44 then bit k.irq.alm (v - 0x40)
  else if v < 0x47 then bit k.irq.swi (v - 0x44)
  else if v = 0x47 then noticePending (getComp s p).notice
  else if v < 0x50 then
    let q := (getComp s p).vf.qp.get (Fin.ofNat 8 (v - 0x48))
    q.en && q.sqirq && q.sqtail != q.sqhead
  else if v < 0x60 then
    let e := getPerc s (Fin.ofNat 16 (v - 0x50)) p
    (e.irq &&& e.irqEn) != 0
  else if v < 0x70 then (getMnt s (Fin.ofNat 16 (v - 0x60)) p).irqPend
  else if v < 0x80 then
    let t := atEnd s (Fin.ofNat 16 (v - 0x70))
    bit (getComp s p).res.timers (v - 0x70) && (t.irq &&& t.en) != 0
  else if v < 0xC0 then
    let h := getChan s (Fin.ofNat 64 (v - 0x80))
    bit (getComp s p).res.culvert (v - 0x80) && (h.irq &&& h.irqen) != 0
  else if v < 0x100 then bit k.irq.group (v - 0xC0)
  else false

/-- The pending source that R249 chooses among those routed above `floor`: highest level, then lowest vector. -/
def topIrq (s : State) (c : CoreId) (floor : Nat) : Option (Nat × Nat) :=
  (getCore s c).irq.level.foldl (fun (best : Option (Nat × Nat)) e =>
    let l := e.2.toNat
    if floor < l ∧ srcPending s c e.1 then
      match best with
      | some (_, bl) => if bl < l then some (e.1, l) else best
      | none => some (e.1, l)
    else best) none

/-- The interrupt that the core takes at a boundary (R249). -/
def admitted (s : State) (c : CoreId) : Option (Nat × Nat) :=
  if stIE (getCore s c) then topIrq s c (ipl (getCore s c)).val else none

/-- What entry clears of an edge source (Table 9.6). -/
def clearEdge (k : Core) (v : Nat) : Core :=
  if 0x40 ≤ v ∧ v < 0x44 then { k with irq := { k.irq with alm := bvSet k.irq.alm (v - 0x40) false } }
  else if 0x44 ≤ v ∧ v < 0x47 then { k with irq := { k.irq with swi := bvSet k.irq.swi (v - 0x44) false } }
  else if 0xC0 ≤ v then { k with irq := { k.irq with group := bvSet k.irq.group (v - 0xC0) false } }
  else k

/-! ## Lockup and the recovery stub (R263 to R265) -/

/-- The core locks up: issue stops, the registers stay as they were. -/
def lockup {α : Type} (c : CoreId) (e : ExcArgs) (cause : Byte) : CM α := do
  cmod c fun k => { k with
    run := .locked, wait := none, replay := Replay.reset
    lock := some { vec := e.vec, sub := e.sub, cause := cause, epc := k.exc.epc, eaddr := k.exc.eaddr,
                   einfo := k.exc.einfo } }
  fun s => .error .ended s

/-- The recovery stub writes its report and stops the core. -/
def recoveryStub {α : Type} (c : CoreId) (e : ExcArgs) : CM α := do
  enterRom c 0x3F00 0 id
  cmod c fun k => { k with
    run := .stub, wait := none, replay := Replay.reset
    lock := some { vec := e.vec, sub := e.sub, cause := 0x06, epc := e.epc, eaddr := e.eaddr, einfo := e.einfo } }
  fun s => .error .ended s

/-- Run a step of entry whose faults lock the core up. -/
def orLockup {α : Type} (c : CoreId) (e : ExcArgs) (cause : Byte) (m : CM α) : CM α :=
  tryCatch m fun x => match x with
    | .exc _ => lockup c e cause
    | x => throw x

/-! ## Entry (R244, R245) -/

/-- The words 0 and 1 of a descriptor, read at system privilege without a barrier. -/
def readDescriptor (c : CoreId) (v : Byte) : CM (Word × Word) := do
  let base := (← cget c).mmu.dtbase &&& ~~~(0x1FFF : W64)
  let word (a : W64) : CM Word := do
    let x ← xlateData c a .load false
    let w ← readWord c a x
    poisonCheck c w a
    return w
  let d0 ← word (base + BitVec.ofNat 64 (32 * v.toNat))
  let d1 ← word (base + BitVec.ofNat 64 (32 * v.toNat + 8))
  return (d0, d1)

/-- R241. -/
def descriptorOk (d0 d1 : Word) : Bool :=
  d0.tag == 0x06 && d1.tag == 0x06 && bit d0.payload 0 && fld d0.payload 5 2 != 3 && fld d0.payload 9 55 == 0
    && fld d1.payload 0 2 == 0 && fld d1.payload 48 16 == 0

/-- `ECAUSE` (Table 9.1). -/
def causeWord (vec sub : Byte) (impr inrep shadow chain : Bool) : W64 :=
  BitVec.ofNat 64 (vec.toNat + 256 * sub.toNat + 2 ^ 16 * impr.toNat + 2 ^ 17 * inrep.toNat + 2 ^ 18 * shadow.toNat
    + 2 ^ 19 * chain.toNat)

/-- The handler's `STATUS` from an interrupted one (R244, 03 R82). -/
def handlerStatus (st : W64) (d0 : W64) (level : Nat) : W64 :=
  let v := setFld (setBit st 0 (bit d0 4)) 1 3 level
  let v := setBit (setBit v 4 (bit d0 8)) 10 (bit d0 7)
  let v := if bit d0 7 then setBit v 9 false else v
  setBit (setBit v 17 false) 18 false

/-- Translate and check the words of a frame, then store them (R245). -/
def writeFrame (c : CoreId) (user : Bool) (ws : List (W64 × Word)) : CM Unit := do
  let rec plan : List (W64 × Word) → CM (List Store)
    | [] => pure []
    | (a, w) :: r => do
      let a := va48 a
      let x ← xlateData c a .store user
      cardCheck c a x
      return taggedStore a x w :: (← plan r)
  let l ← plan ws
  putStores c (← cget c).pc false l

/-- `Enter` (R244). -/
def enterBody (c : CoreId) (e : ExcArgs) : CM Unit := do
  let k ← cget c
  if !bit k.mmu.dtbase 0 then
    if e.vec = 0x02 ∨ e.vec = 0x04 ∨ e.vec = 0x05 then recoveryStub c e
    lockup c e 0x05
  enterRom c 0x0040 0 id
  let (d0, d1) ← orLockup c e 0x02 (readDescriptor c e.vec)
  if !descriptorOk d0 d1 then lockup c e 0x01
  let k ← cget c
  let cur := ipl k
  let level : Nat :=
    if 0x40 ≤ e.vec.toNat then (smGet 0 k.irq.level e.vec.toNat).toNat else max (fld d0.payload 1 3) cur.val
  let lv : Fin 8 := Fin.ofNat 8 level
  let stk := fld d0.payload 5 2
  let here := regOf k cur 31
  let b := if stk = 0 then here
    else if stk = 1 then (if lv = cur then here else k.mmu.lsp.get lv)
    else (if isSys k then here else k.mmu.ssp)
  if b.tag = 0x07 ∨ b.tag = 0x08 ∨ isReserved b.tag then lockup c e 0x04
  let nul := bit d0.payload 7
  let f := (b.payload - 48) &&& ~~~(15 : W64)
  let sp := if nul then f - 1040 else f
  let old := regOf k lv 31
  let shown := statusShown k
  let cause := causeWord e.vec e.sub e.impr e.inrep (!k.st.shadow.isEmpty) false
  let marker := if nul then [(f - 8, bytesW 0)] else []
  orLockup c e 0x03 (writeFrame c (!bit d0.payload 4)
    ([(f, bytesW (va48 e.epc)), (f + 8, bytesW shown),
      (f + 16, bytesW (setFld cause 56 8 old.tag.toNat)), (f + 24, bytesW e.eaddr), (f + 32, bytesW e.einfo),
      (f + 40, bytesW old.payload)] ++ marker))
  cmod c fun k =>
    let k := setRegOf k lv 31 ⟨b.tag, sp⟩
    let k := setStatus k (handlerStatus k.st.newest d0.payload level)
    let k := clearEdge k e.vec.toNat
    { k with
      exc := { epc := va48 e.epc &&& ~~~(3 : W64), ecause := cause, eaddr := e.eaddr, einfo := e.einfo }
      pc := d1.payload, run := .running }

/-- An exception at an instruction boundary: `EPC` names the next instruction. -/
def boundaryArgs (k : Core) (vec sub : Byte) (eaddr einfo : W64) (impr : Bool) : ExcArgs :=
  { vec := vec, sub := sub, epc := k.pc, eaddr := eaddr, einfo := einfo, impr := impr, inrep := false }

/-! ## Return (R250, R251) -/

/-- Read a word for `RETX` or for the numeric save area. -/
def readFrameWord (c : CoreId) (a : W64) : CM Word := do
  let a := va48 a
  if fld a 0 3 ≠ 0 then raise c 0x04 0 a 0
  let x ← xlateData c a .load (!isSys (← cget c))
  let w ← readWord c a x
  poisonCheck c w a
  return w

def readFrameWords (c : CoreId) (a : W64) : Nat → CM (List W64)
  | 0 => pure []
  | n + 1 => do
    let l ← readFrameWords c a n
    let w ← readFrameWord c (a + BitVec.ofNat 64 (8 * n))
    return l ++ [w.payload]

/-- Lanes of a vector register, lowest first (03 Table 3.8). -/
def lane (v : BitVec 256) (l : Nat) : W64 := (v >>> (64 * l)).setWidth 64

def ofLanes (l : List W64) : BitVec 256 :=
  BitVec.ofNat 256 ((l.getD 0 0).toNat + (l.getD 1 0).toNat * 2 ^ 64 + (l.getD 2 0).toNat * 2 ^ 128
    + (l.getD 3 0).toNat * 2 ^ 192)

/-- Load v0 to v31 and `NFL` from the words of a save area (R83). -/
def reloadNumeric (k : Core) (ws : List W64) : Core :=
  { k with
    v := Vector.ofFn fun r : Fin 32 => ofLanes ((ws.drop (4 * r.val)).take 4)
    nfl := ws.getD 128 0 &&& 0x1F }

/-- `RETX` (R250): a plain return, or a chain into the next interrupt (R251). DEDUCED (log 60): g31 takes the tag byte of the frame whatever
it is, against 02 R47 and R49. DESIGN CHOICE (log 60): a marker word whose payload is neither 0 nor 1 counts as empty. -/
def retxBody (c : CoreId) : CM Unit := do
  enterRom c 0x0060 0 id
  let k ← cget c
  let g31 := gread k 31
  let nul := stNUL k
  let a := if nul then g31.payload + 1040 else g31.payload
  let ws ← readFrameWords c a 6
  let w (i : Nat) : W64 := ws.getD i 0
  let s' := w 1 &&& 0x3FFFF
  let marker ← if nul then readFrameWord c (a - 8) else pure (bytesW 0)
  let filled := nul && marker.payload == 1
  if filled then enterRom c 0x01E0 0 id
  let area ← if filled then readFrameWords c (a - 1040) 129 else pure []
  let st ← sget
  let top := if bit s' 4 then topIrq st c (fld s' 1 3) else none
  let d ← match top with
    | none => pure none
    | some (v, l) =>
      tryCatch (do
        let (d0, d1) ← readDescriptor c (BitVec.ofNat 8 v)
        if descriptorOk d0 d1 && bit d0.payload 7 == nul then pure (some (v, l, d0.payload, d1.payload))
        else pure none)
        fun x => match x with
          | .exc _ => pure none
          | x => throw x
  let reload (k : Core) : Core := if area.isEmpty then k else reloadNumeric k area
  let back : Word := ⟨BitVec.ofNat 8 (fld (w 2) 56 8), w 5⟩
  match d with
  | some (v, l, d0, d1) => do
    let lv : Fin 8 := Fin.ofNat 8 l
    let old := regOf (setRegOf k (ipl k) 31 back) lv 31
    let cause := causeWord (BitVec.ofNat 8 v) 0 false false false true
    let e : ExcArgs := boundaryArgs k (BitVec.ofNat 8 v) 0 0 0 false
    let clear := if area.isEmpty then [] else [(a - 8, bytesW 0)]
    orLockup c e 0x03 (writeFrame c (!bit d0 4)
      ([(a + 16, bytesW (setFld cause 56 8 old.tag.toNat)), (a + 24, bytesW 0), (a + 32, bytesW 0),
        (a + 40, bytesW old.payload)] ++ clear))
    cmod c fun k =>
      let k := reload k
      let k := setRegOf (setRegOf k (ipl k) 31 back) lv 31 ⟨g31.tag, if nul then a - 1040 else a⟩
      let k := setStatus k (handlerStatus s' d0 l)
      let k := clearEdge k v
      { k with exc := { epc := va48 (w 0) &&& ~~~(3 : W64), ecause := cause, eaddr := 0, einfo := 0 }, pc := d1 }
  | none =>
    cmod c fun k =>
      let k := reload k
      let k := setRegOf k (ipl k) 31 back
      let k := setStatus k s'
      { k with pc := va48 (w 0) &&& ~~~(3 : W64) }

end Sys2Proof.Machine
end

