-- ==== Sys2Proof/Machine/CtlRegs.lean ====
section
/-! DEFINITION. The control registers of a core as `MFC`, `MTC` and microcode reach them (03 Tables 3.3 to 3.7). -/

namespace Sys2Proof.Machine

/-! ## Control registers (03 Tables 3.3 to 3.7) -/

/-- The bank that `MFC` and `MTC` of the dispatch registers reach (03 R78). -/
def dspBank (k : Core) : Fin 8 := if k.bw.dspw && isSys k then Fin.ofNat 8 k.bw.bank.toNat else ipl k

/-- `BANKWIN` as it reads (Table 3.7). -/
def bankwinWord (k : Core) : W64 :=
  BitVec.ofNat 64 (k.bw.bank.toNat + 8 * k.bw.dspw.toNat + 16 * (bankOf k (Fin.ofNat 8 k.bw.bank.toNat)).dbusy.toNat)

/-- `IPEND` as it reads (09 Table 9.9). -/
def ipendWord (s : State) (c : CoreId) : W64 :=
  let k := getCore s c
  let top := match topIrq s c 0 with
    | some (v, l) => v + 256 * l
    | none => 0
  BitVec.ofNat 64 (top + 2 ^ 16 * k.irq.swi.toNat + 2 ^ 24 * k.irq.alm.toNat)

/-- `IROUTE` as it reads (09 Table 9.8). -/
def irouteWord (k : Core) : W64 :=
  BitVec.ofNat 64 (k.irq.src.toNat + 256 * (smGet 0 k.irq.level k.irq.src.toNat).toNat)

/-- What `MFC` of a control register delivers (03 R67). -/
def ctlRead (s : State) (c : CoreId) (n : Nat) : Word :=
  let k := getCore s c
  let b := bankOf k (dspBank k)
  let u (v : W64) : Word := fix v
  match n with
  | 0x000 => u (statusShown k)
  | 0x001 => u k.exc.epc
  | 0x002 => u k.exc.ecause
  | 0x003 => u k.exc.eaddr
  | 0x004 => u k.exc.einfo
  | 0x005 => u k.mmu.dtbase
  | 0x006 => k.mmu.ssp
  | 0x010 => u (bankwinWord k)
  | 0x011 => u (ipendWord s c)
  | 0x012 => u (irouteWord k)
  | 0x020 => u k.mmu.space
  | 0x021 => u (k.compart.setWidth 64)
  | 0x022 => u k.mmu.ptbase
  | 0x030 => u (k.heap.goodcol.setWidth 64)
  | 0x031 => u k.heap.allocPtr
  | 0x032 => u k.heap.allocLim
  | 0x033 => u k.heap.rlogPtr
  | 0x034 => u k.heap.rlogLim
  | 0x040 => u k.heap.dispatchBase
  | 0x041 => u k.heap.tclassBase
  | 0x042 => b.dspA
  | 0x043 => b.dspB
  | 0x044 => u b.dspOp
  | 0x045 => u b.dretPc
  | 0x050 => u (tickOf s (clusterOf c))
  | 0x051 => u (k.alarm.get 0)
  | 0x052 => u (k.alarm.get 1)
  | 0x053 => u (k.alarm.get 2)
  | 0x054 => u (k.alarm.get 3)
  | 0x060 => u k.cycles
  | 0x061 => u k.instret
  | 0x080 => u (BitVec.ofNat 64 (sliceClass s k.compart (k.mmu.space.setWidth 12)))
  | n => if 0x008 ≤ n ∧ n ≤ 0x00F then k.mmu.lsp.get (Fin.ofNat 8 (n - 8)) else fixZero

/-- The registers that user mode may read (Table 3.3). -/
def userReadable : List Nat :=
  [0x000, 0x021, 0x030, 0x031, 0x032, 0x040, 0x041, 0x042, 0x043, 0x044, 0x045, 0x050, 0x060, 0x061, 0x080]

/-- The tagged registers (R67). -/
def ctlTagged (n : Nat) : Bool := n == 0x006 || (0x008 ≤ n && n ≤ 0x00F) || n == 0x042 || n == 0x043

/-- `STATUS` as an `MTC` leaves it (R71): every RW field in system mode, the user fields in user mode. -/
def statusWrite (k : Core) (v : W64) : W64 :=
  let m : W64 := if isSys k then 0x3FFF0 else 0x1B860
  (k.st.newest &&& ~~~m) ||| (v &&& m)

/-- The bits of an address register that hold its address (Table 3.4). -/
def keep (v m : W64) : W64 := v &&& m

/-- A write of `BANKWIN` (R78). -/
def bankwinWrite (k : Core) (v : W64) : Core :=
  let b : Fin 8 := Fin.ofNat 8 (fld v 0 3)
  let k := { k with bw := { bank := BitVec.ofNat 3 (fld v 0 3), dspw := bit v 3 } }
  if bit v 5 == bit v 6 then k else modBank k b fun x => { x with dbusy := bit v 5 }

/-- A write of `IPEND` (09 Table 9.9): `SWI` bits are set, then `SWCLR` bits clear theirs, `ALM` bits clear theirs. -/
def ipendWrite (k : Core) (v : W64) : Core :=
  { k with irq := { k.irq with
      swi := (k.irq.swi ||| BitVec.ofNat 3 (fld v 16 3)) &&& ~~~BitVec.ofNat 3 (fld v 20 3)
      alm := k.irq.alm &&& ~~~BitVec.ofNat 4 (fld v 24 4) } }

/-- A write of `IROUTE` (09 R248). -/
def irouteWrite (k : Core) (v : W64) : Core :=
  let src := fld v 0 8
  let k := { k with irq := { k.irq with src := BitVec.ofNat 8 src } }
  if bit v 15 ∧ 0x40 ≤ src then
    { k with irq := { k.irq with level := smPut 0 k.irq.level src (BitVec.ofNat 3 (fld v 8 3)) } }
  else k

/-- What an `MTC` to a register other than `STATUS` does (R67 to R69). -/
def ctlWrite (k : Core) (n : Nat) (w : Word) : Core :=
  let v := w.payload
  let b := dspBank k
  match n with
  | 0x001 => { k with exc := { k.exc with epc := keep v 0xFFFFFFFFFFFC } }
  | 0x002 => { k with exc := { k.exc with ecause := keep v 0xFFFFF } }
  | 0x003 => { k with exc := { k.exc with eaddr := v } }
  | 0x004 => { k with exc := { k.exc with einfo := v } }
  | 0x005 => { k with mmu := { k.mmu with dtbase := keep v 0xFFFFFFFFE001 } }
  | 0x006 => { k with mmu := { k.mmu with ssp := w } }
  | 0x010 => bankwinWrite k v
  | 0x011 => ipendWrite k v
  | 0x012 => irouteWrite k v
  | 0x020 => { k with mmu := { k.mmu with space := keep v 0xFFF } }
  | 0x022 => { k with mmu := { k.mmu with ptbase := keep v 0xFFFFFFFF001 } }
  | 0x030 => if fld v 0 2 = 0 then k else { k with heap := { k.heap with goodcol := BitVec.ofNat 2 (fld v 0 2) } }
  | 0x031 => { k with heap := { k.heap with allocPtr := keep v 0xFFFFFFFFFFF0 } }
  | 0x032 => { k with heap := { k.heap with allocLim := keep v 0xFFFFFFFFFFF0 } }
  | 0x033 => { k with heap := { k.heap with rlogPtr := keep v 0xFFFFFFFFFFF8 } }
  | 0x034 => { k with heap := { k.heap with rlogLim := keep v 0xFFFFFFFFFFF8 } }
  | 0x040 => { k with heap := { k.heap with dispatchBase := keep v 0xFFFFFFFFFFC0 } }
  | 0x041 => { k with heap := { k.heap with tclassBase := keep v 0xFFFFFFFFFFC0 } }
  | 0x042 => modBank k b fun x => { x with dspA := w }
  | 0x043 => modBank k b fun x => { x with dspB := w }
  | 0x044 => modBank k b fun x => { x with dspOp := keep v 0x1F1F }
  | 0x045 => modBank k b fun x => { x with dretPc := keep v 0xFFFFFFFFFFFC }
  | 0x051 => { k with alarm := k.alarm.set 0 (keep v 0x7FFFFFFFFFFFFFFF) }
  | 0x052 => { k with alarm := k.alarm.set 1 (keep v 0x7FFFFFFFFFFFFFFF) }
  | 0x053 => { k with alarm := k.alarm.set 2 (keep v 0x7FFFFFFFFFFFFFFF) }
  | 0x054 => { k with alarm := k.alarm.set 3 (keep v 0x7FFFFFFFFFFFFFFF) }
  | 0x060 => { k with cycles := v }
  | 0x061 => { k with instret := v }
  | n => if 0x008 ≤ n ∧ n ≤ 0x00F then { k with mmu := { k.mmu with lsp := k.mmu.lsp.set ((n - 8) % 8) w } } else k

end Sys2Proof.Machine
end

