-- ==== Sys2Proof/Machine/RawAccess.lean ====
section
/-! DEFINITION. Raw loads and stores, and the atomic compare and write, at an address (04 R96, R99 to R103). -/

namespace Sys2Proof.Machine

/-- The effective address of a tagged access, 8-byte aligned (R96). -/
def alignedEa (c : CoreId) (a : W64) : CM W64 := do
  let ea := va48 a
  if fld ea 0 3 ≠ 0 then raise c 0x04 0 ea 0
  return ea

/-- The `n` bytes from byte `o` of two words, lower first (02 R31). -/
def bytesAt (lo hi : W64) (o n : Nat) : Nat := (lo.toNat + hi.toNat * 2 ^ 64) >>> (8 * o) % 2 ^ (8 * n)

/-- Whether an access of `n` bytes leaves its word (R101). -/
def splits (ea : W64) (n : Nat) : Bool := decide (8 < fld ea 0 3 + n)

/-- The address of the upper word of a split access. -/
def upperWord (ea : W64) : W64 := va48 ((ea &&& ~~~(7 : W64)) + 8)

/-- The checks of a memory word that a raw load reads. -/
def rawLoadCheck (c : CoreId) (w : Word) (ea : W64) : CM Unit := do
  poisonCheck c w ea
  if w.tag = 0x07 then tagFaultAt c 0x01 w.tag 3 ea
  if isReserved w.tag then tagFaultAt c 0x02 w.tag 3 ea

/-- The bytes that a raw load of `n` bytes at an address delivers (R99, R101). -/
def rawLoadAt (c : CoreId) (ea : W64) (n : Nat) : CM Nat := do
  let user := !isSys (← cget c)
  let x ← xlateData c ea .load user
  let up := upperWord ea
  let y ← if splits ea n then some <$> xlateData c up .load user else pure none
  let lo ← readWord c ea x
  let hi ← match y with
    | some y => readWord c up y
    | none => pure (bytesW 0)
  if ea.toNat % n ≠ 0 ∧ (lo.tag ≠ 0x06 ∨ hi.tag ≠ 0x06) then raise c 0x04 0 ea 0
  rawLoadCheck c lo ea
  rawLoadCheck c hi up
  return bytesAt lo.payload hi.payload (fld ea 0 3) n

/-- The word that the checks of a raw store meet. A device register counts as `BYTES` and is not read (11 R456). -/
def targetWord (c : CoreId) (va : W64) (x : Xlat) : CM Word := do
  let pa := wordPa x.pa
  let s ← sget
  if isRemote s pa then remoteReadWord c va pa
  else if x.mt == .device then return bytesW 0
  else
    match ← liftD (settle c pa) with
    | some w => return w
    | none =>
      match x.mt, classify (← sget) pa with
      | .uncached, .dram o => liftD (dramRead false o)
      | .carafe, .carafe k o => liftD (carafeLoad k o)
      | _, _ => liftD (wordRead pa)

/-- The checks of a raw store's target word (02 R45, R52, Table 2.9); `whole` marks an aligned store of 8 bytes. DESIGN CHOICE (log 59): in
user mode a word with a reserved pointer type falls under the row of reserved codes. -/
def rawTarget (c : CoreId) (va : W64) (w : Word) (whole : Bool) : CM Unit := do
  if isPtr w.tag && !isReserved w.tag && !isSys (← cget c) then tagFaultAt c 0x05 w.tag 3 va
  if !whole then poisonCheck c w va
  if isReserved w.tag then tagFaultAt c 0x02 w.tag 3 va

/-- The byte enables of `n` bytes from byte `o` of a word, cut to the word. -/
def enables (o n : Nat) : Byte := BitVec.ofNat 8 ((2 ^ n - 1) <<< o)

/-- The second half of a split store reaches the bus after the first has written, and fails (R102). -/
def splitReport (k : Core) (pc va : W64) : Core :=
  { k with pend := { k.pend with
      reports := k.pend.reports ++ [{ vec := 0x05, sub := 0x02, eaddr := va, einfo := va48 pc + 2 ^ 48 }] } }

/-- The two halves of a split store, whose checks have passed (R101, R102): one entry where both lie here in memory of one type, else
the lower half first. `su` is the upper half. -/
def putSplit (c : CoreId) (pc : W64) (user : Bool) (st su : Store) : CM Unit := do
  let s ← sget
  let entry (ws : List WordWrite) : SqEntry := { mt := su.x.mt, user := user, writes := ws, pc := pc, split := some su.va, full := false }
  if !isRemote s st.w.pa && !isRemote s su.w.pa && st.x.mt == su.x.mt then smod fun s => enqueue s c (entry [st.w, su.w])
  else
    creditCheck c [st, su]
    if !(← cget c).replay.done then
      putStores c pc false [st]
      cmod c setDone
    if !isRemote (← sget) su.w.pa then smod fun s => enqueue s c (entry [su.w])
    else tryCatch (putStores c pc false [su]) fun e => match e with
      | .exc _ => cmod c fun k' => splitReport k' pc su.va
      | e => throw e

/-- A raw store of the `n` low bytes of a value at an address (R100, R101). An aligned one to another device is judged there
(17 R413). -/
def rawStoreAt (c : CoreId) (ea : W64) (d : W64) (n : Nat) : CM Unit := do
  let k ← cget c
  let user := !isSys k
  let o := fld ea 0 3
  let up := upperWord ea
  let split := splits ea n
  let kind : AKind := if split then .rmw else .store
  let x ← xlateData c ea kind user
  let y ← if split then some <$> xlateData c up kind user else pure none
  let v := d <<< (8 * o)
  let st := rawStoreOf ea x (enables o n) v
  if isRemote (← sget) x.pa && ea.toNat % n == 0 then commitStores c k.pc false [] [st]
  else
    let t ← targetWord c ea x
    let tu ← match y with
      | some y => targetWord c up y
      | none => pure (bytesW 0)
    let plain (w : Word) : Bool := w.tag == 0x06 || w.tag == 0x07
    if ea.toNat % n ≠ 0 ∧ !(plain t && plain tu) then raise c 0x04 0 ea 0
    rawTarget c ea t (n == 8 && o == 0)
    cardCheck c ea x
    match y with
    | none => commitStores c k.pc false [] [st]
    | some y => do
      rawTarget c up tu false
      cardCheck c up y
      putSplit c k.pc user st (rawStoreOf up y (enables 0 (o + n - 8)) (d >>> (8 * (8 - o))))

/-! ## The wait of a fence (04 R106, R107) -/

/-- The writes of a core that other devices have still to acknowledge. -/
def unacked (s : State) (c : CoreId) : Bool :=
  s.xitex.outstanding.any fun r => r.2.user == .sq c || r.2.user == .heal c

/-- The wait of `FENCE.S`: the queue drains, then every remote write is acknowledged. -/
def fenceWait (c : CoreId) : CM Unit := do
  smod fun s => drainAll s c
  if unacked (← sget) c then waitFor .ack

/-! ## The atomic compare and write (R103) -/

/-- The store barrier's part where it is asked for. -/
def planIf (bar skips : Bool) (c : CoreId) (v : Word) (ea : W64) (x : Xlat) : CM (Option Store) :=
  if bar then planLogAs skips c v ea x 0 else pure none

/-- A compare-and-swap at the home of a word has failed: the word is looked at again. -/
def casAgain (pa : BitVec 44) (k : Core) : Core :=
  { k with replay := { k.replay with
      remote := k.replay.remote.filter fun r => r.1 != pa && r.1 != pa + 2
      done := false } }

/-- `CASW` on a word of another device: the word is read, and replaced by a compare-and-swap at its home. Where another write has come
between, the word is looked at again (R103: the two are one step). The log entry is written before the compare-and-swap is sent and
counts once that has succeeded (06 R169, R170). -/
def casRemote (c : CoreId) (ea : W64) (e new : Word) (bar : Bool) (x : Xlat) : CM Bool := do
  let pa := wordPa x.pa
  match remoteAnswer (← cget c) (pa + 2) with
  | some none => busError c .rmw ea
  | some (some ws) =>
    if ws.headD falseW == trueW then
      cmod c fun k => if k.replay.done then logged k [(logWord k ea).payload] else k
      return true
    cmod c (casAgain pa)
  | none => pure ()
  let old ← remoteReadWord c ea pa
  poisonCheck c old ea
  if !same old e then return false
  let lg ← planIf bar false c new ea x
  creditCheck c (lg.toList ++ [taggedStore ea x new])
  match lg with
  | some l => do
    putStores c (← cget c).pc false [l]
    smod fun s => drainAll s c
    cmod c setDone
  | none => pure ()
  let k ← cget c
  match ← liftD (issueRemote { user := .core c, comp := k.compart, typ := 0x6, pa := pa, bytemask := 0xFF, wmask := 0, nline := 0,
                               bodytag := true, cls := stDET k, body := [old, new] }) with
  | .busError => busError c .rmw ea
  | .noCredit => waitFor .credit
  | .sent tid => waitFor (.remote tid)

/-- `CASW` at an aligned address, with the store barrier or not: whether it wrote. -/
def casAt (c : CoreId) (ea : W64) (e new : Word) (bar : Bool) : CM Bool := do
  let k ← cget c
  let x ← xlateData c ea .rmw (!isSys k)
  if x.mt == .device then busError c .rmw ea
  fenceWait c
  if isRemote (← sget) x.pa then casRemote c ea e new bar x
  else
    let old ← liftD (ownedRead c x)
    poisonCheck c old ea
    if same old e then
      let lg ← planIf bar true c new ea x
      cardCheck c ea x
      commitStores c k.pc false lg.toList [taggedStore ea x new]
      smod fun s => drainAll s c
      return true
    else return false

end Sys2Proof.Machine
end

