-- ==== Sys2Proof/Machine/Microseq.lean ====
section
/-! DEFINITION. The microcode sequencer (13 R331 to R341): one microword at a time, from patch RAM and from the ROM words that the spec
lists. It runs where a patch-match entry redirects a routine; a ROM routine that none redirects has its meaning from the chapter
that owns it. -/

namespace Sys2Proof.Machine

/-! ## The control stores (R331, R335; Tables 13.13, 13.14) -/

/-- A microword with values at the low bits of fields; the others are zero. -/
def mword (fs : List (Nat × Nat)) : BitVec 160 := BitVec.ofNat 160 (fs.foldl (fun a f => a + f.2 * 2 ^ f.1) 0)

/-- A jump of `0x0108` to `0x010F`, on `STATE`. -/
def stateJump (st : Nat) : Nat := ([0x128, 0x110, 0x110, 0x111, 0x111, 0x110, 0x12C, 0x12C] : List Nat).getD st 0

/-- The ROM words of Tables 13.13 and 13.14; `code` is the variant for a `CODE` word. -/
def romListed (code : Bool) (a : Nat) : Option (BitVec 160) :=
  match a with
  | 0x0100 => some (mword [(28, 3), (34, 4), (40, 5), (51, 23), (102, if code then 3 else 7)])
  | 0x0101 => some (mword [(28, 3), (56, 0x0A)])
  | 0x0102 => some (mword [(28, 8), (34, 6), (40, 6)])
  | 0x0103 => some (mword [(0, 2), (4, 0x120), (18, 1), (24, 1)])
  | 0x0104 => some (mword [(18, 0x10), (25, 1), (28, 0x0A), (34, 4), (51, 16), (102, 47)])
  | 0x0105 => some (mword [(0, 2), (4, 0x124), (18, 0x0A), (28, 8), (34, 4), (40, 5), (102, 7)])
  | 0x0106 => some (mword [(0, 11), (4, 0x108)])
  | 0x0110 => some (mword [(0, 1), (4, 0x114), (18, 0x17), (24, 1), (25, 1), (28, 3), (34, 3), (46, 2), (138, 2), (147, 4)])
  | 0x0111 => some (mword [(28, 3), (138, 1)])
  | 0x0112 => some (mword [(18, 0x12), (25, 1), (28, 0x0D), (40, 1), (147, 4)])
  | 0x0113 => some (mword [(0, 2), (4, 0x130), (18, 0x16), (28, 6), (34, 3), (46, 2)])
  | 0x0114 => some (mword [])
  | 0x0115 => some (mword [(28, 3), (34, 7), (56, 9), (61, 3)])
  | 0x0116 => some (mword [(0, 7), (18, 0x10), (25, 1), (79, 0x20), (86, 2)])
  | 0x0400 => some (mword [(28, 1), (46, 6), (65, 0x23)])
  | 0x0401 => some (mword [(28, 1), (56, 0x0C), (65, 0x20)])
  | 0x0402 => some (mword [(0, 2), (4, 0x404), (18, 8), (34, 0x10), (40, 0x0C), (147, 5)])
  | 0x0403 => some (mword [(0, 1), (4, 0x402), (34, 2), (56, 0x0B), (61, 3), (63, 2), (72, 0x21), (147, 6)])
  | 0x0404 => some (mword [(0, 7)])
  | a => if 0x0108 ≤ a ∧ a ≤ 0x010F then some (mword [(0, 1), (4, stateJump (a - 0x108))]) else none

/-- The word at a micro-PC. A ROM word that the spec does not list is a free value, and so is a word above the patch RAM (log 20). -/
def microWordAt (k : Core) (m : MicroRun) : BitVec 160 :=
  if 2 ^ 14 ≤ m.upc then
    if m.upc < 2 ^ 14 + 2048 then smGet 0 k.micro.patch (m.upc - 2 ^ 14) else Config.romWord m.upc
  else (romListed (isPtr m.mdr.tag && ptype m.mdr.tag == 0x09) m.upc).getD (Config.romWord m.upc)

/-! ## What a microprogram can end in -/

/-- The end of a microprogram: `END`, a transfer into the original first word of its own routine, an event that a word with `IWIN`
lets in, or a micro-stack fault at a micro-PC (`low`: the stack was empty). -/
inductive MicroEnd where
  | done
  | original
  | window
  | stack (upc : Nat) (low : Bool)
deriving DecidableEq, Repr

/-- The instruction that a microprogram runs for; none within an entry. -/
structure MicroCtx where
  word : BitVec 32
  gc : Reg
  byte : Bool
  rep : Bool
deriving DecidableEq, Repr

def mget (c : CoreId) : CM MicroRun := fun s =>
  .ok ((getCore s c).micro.run.getD (microStart 0 0 0 0)) s

def mmod (c : CoreId) (f : MicroRun → MicroRun) : CM Unit := cmod c fun k =>
  { k with micro := { k.micro with run := k.micro.run.map f } }

/-! ## Registers and operands (Tables 13.6, 13.7) -/

/-- The general register of the current bank that an address of Table 13.7 names. -/
def mregIn (x : MicroCtx) (a : Nat) : Option Reg :=
  if a < 0x20 then some (Fin.ofNat 32 a)
  else if a = 0x20 then some (Fin.ofNat 32 (fld x.word 21 5))
  else if a = 0x21 then some (Fin.ofNat 32 (fld x.word 16 5))
  else if a = 0x22 then some (Fin.ofNat 32 (fld x.word 11 5))
  else if a = 0x23 then some x.gc
  else none

def mregRead (k : Core) (x : MicroCtx) (m : MicroRun) (a : Nat) : Word :=
  match mregIn x a with
  | some r => gread k r
  | none => if 0x60 ≤ a then regOf k (Fin.ofNat 8 m.bl.toNat) (Fin.ofNat 32 (a - 0x60)) else m.u.get (Fin.ofNat 8 (a - 0x40))

def mregWrite (c : CoreId) (x : MicroCtx) (m : MicroRun) (a : Nat) (w : Word) : CM Unit :=
  match mregIn x a with
  | some r => setReg c r w
  | none =>
    if 0x60 ≤ a then cmod c fun k => setRegOf k (Fin.ofNat 8 m.bl.toNat) (Fin.ofNat 32 (a - 0x60)) w
    else mmod c fun m => { m with u := m.u.set ((a - 0x40) % 8) w }

/-- The elements left before a bound: at least 1 (R337). -/
def boundLeft (bound : W64) (x : Nat) : Word := fix (BitVec.ofNat 64 (max 1 (bound.toNat - x)))

/-- An operand by its selector; `port` tells the two register ports apart. -/
def moperand (k : Core) (x : MicroCtx) (m : MicroRun) (w : BitVec 160) (sel : Nat) : Word :=
  let gb := (mregRead k x m 0x22).payload
  match sel with
  | 0x01 => mregRead k x m (fld w 65 7)
  | 0x02 => mregRead k x m (fld w 72 7)
  | 0x03 => m.mdr
  | 0x04 => fix (sext 32 (fld w 102 32))
  | 0x05 => m.crd
  | 0x06 => m.alr
  | 0x07 => m.tgr
  | 0x08 => m.sfr
  | 0x09 => fix m.ea
  | 0x0A => m.xdr
  | 0x0B => m.lgr
  | 0x0C => m.rem
  | 0x0D => m.prr
  | 0x0E => m.wrr
  | 0x0F => fix (va48 k.pc)
  | 0x10 => boundLeft m.bndd (fld gb 32 32)
  | 0x11 => boundLeft m.bnds (fld gb 0 32)
  | _ => fixZero

/-! ## Conditions (Table 13.5) -/

/-- Whether the Percolator has answered the last request. -/
def percReady (k : Core) (m : MicroRun) : Bool :=
  (match m.fwd with
    | some w => k.replay.fwd.any fun r => r.1 == w.payload
    | none => true)
  && (match m.card with
    | some pa => k.replay.cards.any fun r => r.1 == cardOf pa
    | none => true)

def microCond (k : Core) (x : MicroCtx) (m : MicroRun) (v : Nat) : Bool :=
  match v with
  | 0x00 => true
  | 0x01 => m.zero
  | 0x02 => m.neg
  | 0x03 => m.carry
  | 0x04 => m.ovf
  | 0x05 => m.tageq
  | 0x06 => m.stale
  | 0x07 => m.same
  | 0x08 => decide ((mregRead k x m 0x23).payload.toInt ≤ 0)
  | 0x09 => m.first
  | 0x0A => m.xfail
  | 0x10 => !m.late.any (·.mem)
  | 0x11 => !m.late.any (·.div)
  | 0x12 => percReady k m
  | 0x13 => true
  | 0x15 => m.casok
  | 0x16 => m.percref
  | 0x17 => decide (16 ≤ k.mark.length)
  | 0x18 => (bankOf k (ipl k)).dbusy
  | _ => stNILCAR k

/-- The condition of a word, `CPOL` applied (R336). -/
def condHolds (k : Core) (x : MicroCtx) (m : MicroRun) (w : BitVec 160) : Bool :=
  (microCond k x m (fld w 18 6)).xor (bit w 24)

/-! ## Results on their way (R341, Table 13.12) -/

/-- A write of a control register by microcode: no privilege check, and `STATUS` with no mode shadow (R337). -/
def microCtl (k : Core) (n : Nat) (w : Word) : Core :=
  if n = 0x000 then setStatus k (w.payload &&& 0x3FFFF) else ctlWrite k n w

/-- Deliver one result. -/
def deliverLate (c : CoreId) (l : Late) : CM Unit :=
  match l with
  | .tgr w => mmod c fun m => { m with tgr := w }
  | .tageq b => mmod c fun m => { m with tageq := b }
  | .lgr lo hi => mmod c fun m => { m with lgr := lo, rem := hi }
  | .mdr w st => mmod c fun m => { m with mdr := w, stale := st.getD m.stale }
  | .xdr w f => mmod c fun m => { m with xdr := w, xfail := f }
  | .ctl n w =>
    if n = 0xF00 then mmod c fun m => { m with bl := BitVec.ofNat 3 (fld w.payload 0 3) }
    else if n = 0xF01 then pure ()
    else cmod c fun k => microCtl k n w

/-- `n` microcycles pass for the results on their way. -/
def ageLate (c : CoreId) (n : Nat) : CM Unit := do
  let m ← mget c
  let aged := m.late.map fun r => { r with left := r.left - n }
  mmod c fun m => { m with late := aged.filter fun r => r.left != 0 }
  (aged.filter fun r => r.left == 0).forM fun r => deliverLate c r.what

def isCtl : Late → Bool
  | .ctl _ _ => true
  | _ => false

/-- The control register writes still on their way reach their registers as the microprogram ends (Table 13.12: they are for the core
too). -/
def deliverCtl (c : CoreId) : CM Unit := do
  let m ← mget c
  mmod c fun m => { m with late := m.late.filter fun r => !isCtl r.what }
  (m.late.filter fun r => isCtl r.what).forM fun r => deliverLate c r.what

/-- Let microcycles pass until a test holds or nothing is on its way; at most `n` results arrive one after the other. -/
def ageUntil (c : CoreId) (p : Core → MicroRun → Bool) : Nat → CM Unit
  | 0 => pure ()
  | n + 1 => do
    let k ← cget c
    let m ← mget c
    if p k m then return
    match (m.late.map (·.left)).min? with
    | none => pure ()
    | some d => do
      ageLate c d
      ageUntil c p n

/-- Deliver the Percolator's answers: the new address and the refusal of a `Forward`, the end of a card request. -/
def takePerc (c : CoreId) : CM Unit := do
  let k ← cget c
  let m ← mget c
  match m.fwd with
  | none => pure ()
  | some w => match (k.replay.fwd.find? fun r => r.1 == w.payload).map (·.2) with
    | none => pure ()
    | some a => do
      let n ← liftD fresh
      mmod c fun m => { m with
        prr := match a with
          | some a => fix a
          | none => Config.microLatch n 5
        percref := a.isNone, fwd := none }
  match m.card with
  | none => pure ()
  | some pa => match (k.replay.cards.find? fun r => r.1 == cardOf pa).map (·.2) with
    | none => pure ()
    | some good => do
      let n ← liftD fresh
      mmod c fun m => { m with prr := Config.microLatch n 5, card := none }
      if good then cmod c fun k => cardEnter k (cardOf pa)

/-- What a core waits for while a word holds. -/
def holdFor (m : MicroRun) (w : BitVec 160) : WaitFor :=
  if fld w 18 6 = 0x12 ∧ !bit w 24 then
    match m.fwd, m.card with
    | some t, _ => .forward t.payload
    | none, some pa => .card pa
    | none, none => .micro
  else if fld w 18 6 = 0x17 ∧ bit w 24 then .markRoom
  else .micro

/-- A word holds until its condition holds (R336); with `ABANDON` the wait may be abandoned (R340). -/
def hold (c : CoreId) (x : MicroCtx) (w : BitVec 160) : CM Unit := do
  let m ← mget c
  takePerc c
  ageUntil c (fun k m => condHolds k x m w) m.late.length
  let k ← cget c
  let m ← mget c
  if condHolds k x m w then mmod c fun m => { m with abandon := false }
  else do
    mmod c fun m => { m with abandon := fld w 147 4 == 4 && bit w 25 && !m.acted }
    waitFor (holdFor m w)

/-! ## Memory and engines (Table 13.10) -/

/-- The object in a register for an element's address (R113). -/
def elemObj (w : Word) : BObj :=
  { base := w.payload, off := if isHeaded w.tag then 8 else 0, bound := 0 }

/-- A result of memory with its delay: 4 words on a hit, else a free number of them (Table 13.12). -/
def lateMem (c : CoreId) (hit : Bool) (l : Late) : CM Unit := do
  let n ← liftD fresh
  mmod c fun m => { m with late := m.late ++ [{ left := if hit then 4 else 4 + Config.choice n, mem := true, div := false,
                                                what := l }] }

/-- Whether a load of an address hits the L1D, and a translation the first TLB. -/
def hitsL1 (k : Core) (pa : BitVec 44) : Bool := (dIdx? k.l1 (lineOf pa)).isSome

def hitsTlb (k : Core) (va : W64) : Bool :=
  !bit k.mmu.ptbase 0 || k.tlb.dtlb.any fun e => tlbMatch e.2 k.compart (coreSpace k false) (va48 va)

/-- `LDT` and `LDS`. -/
def microLoad (c : CoreId) (m : MicroRun) (user barrier : Bool) : CM Unit := do
  let ea ← alignedEa c m.ea
  let x ← xlateData c ea .load user
  let hit := hitsL1 (← cget c) x.pa
  let w ← readWord c ea x
  poisonCheck c w ea
  let k ← cget c
  lateMem c hit (.mdr w (if barrier then some (stale k w) else none))

/-- Whether the iteration of a repeat pair counts as having begun writing when this word writes: its own `ICOMMIT`, or an earlier
word's. -/
def iterBegun (x : MicroCtx) (m : MicroRun) (w : BitVec 160) : Bool := x.rep && (fld w 147 4 == 6 || m.begun.isSome)

/-- `BSTW`: the words of one store-queue entry are checked, then written, and `EA` advances. An entry holds a line, so no more words
than the line has left are written (log 20). Where the iteration has begun writing, a bus error is answered as its report. -/
def microBstw (c : CoreId) (x : MicroCtx) (m : MicroRun) (v : Word) (barrier begun : Bool) : CM (Option Report) := do
  let ea ← alignedEa c m.ea
  let k ← cget c
  let n := min m.alr.payload.toNat (lineRoom ea false)
  let y ← xlateData c ea .store (!isSys k)
  let j := fld (mregRead k x m 0x22).payload 32 32
  if 0 < n ∧ m.bndd.toNat < j + n then
    boundsFault c 0x02 (mregRead k x m 0x20).payload m.bndd.toNat (max j m.bndd.toNat)
  let ws := List.replicate n v
  let (logs, data) ←
    if barrier then planWords c ea y 0 ws []
    else pure ([], ws.zipIdx.map fun e => taggedStore (va48 (ea + BitVec.ofNat 64 (8 * e.2))) (shiftXlat y e.2) e.1)
  cardCheck c ea y
  let r ←
    if begun then blockWrite c { used := n, hit := false, logs := logs, data := data }
    else do
      commitStores c k.pc false logs data
      pure none
  mmod c fun m => { m with ea := va48 (ea + BitVec.ofNat 64 (8 * n)) }
  return r

/-- The bytes of an access by `MSIZE` (04 Table 4.11). -/
def msize (w : BitVec 160) : Nat := 2 ^ fld w 61 2

/-- The memory operation of a word; the report of a bus error in an iteration that has begun writing. -/
def microMem (c : CoreId) (x : MicroCtx) (m : MicroRun) (w : BitVec 160) (a b : Word) : CM (Option Report) := do
  let k ← cget c
  let user := !isSys k
  let bar := fld w 63 2
  if fld w 56 5 = 0x0B then return ← microBstw c x m b (bar == 2) (iterBegun x m w)
  match fld w 56 5 with
  | 0x01 => mmod c fun m => { m with ea := va48 (a.payload + sext 32 (fld w 102 32)) }
  | 0x02 => microLoad c m user (bar == 1)
  | 0x03 => microLoad c m false (bar == 1)
  | 0x04 => storeWordAs c (← alignedEa c m.ea) b (bar == 2) user
  | 0x05 => storeWordAs c (← alignedEa c m.ea) b (bar == 2) false
  | 0x06 => do
    let n := msize w
    let hit := match (probeXlat c m.ea user (← sget)).1 with
      | some y => hitsL1 k y.pa
      | none => false
    let v ← rawLoadAt c m.ea n
    lateMem c hit (.mdr (fix (if Config.microSext then sext (8 * n) v else BitVec.ofNat 64 v)) none)
  | 0x07 => rawStoreAt c m.ea b.payload (msize w)
  | 0x08 => do
    let won ← casAt c (← alignedEa c m.ea) a b (bar == 2)
    mmod c fun m => { m with casok := won }
  | 0x09 => do
    let won ← healCas c m.ea a b
    mmod c fun m => { m with casok := won }
  | 0x0A => do
    let hit := hitsTlb k a.payload
    match ← liftD (barrierXlat c a.payload) with
    | some (y, _) => lateMem c hit (.xdr (fix (BitVec.ofNat 64 (y.pa.toNat + y.rattr.toNat * 2 ^ 44))) false)
    | none => lateMem c hit (.xdr (Config.microLatch (← liftD fresh) 7) true)
  | 0x0C => do
    let gb := (mregRead k x m 0x22).payload
    mmod c fun m => { m with ea := elemAddr (elemObj a) (if bit w 102 then fld gb 0 32 else fld gb 32 32) x.byte }
  | _ => pure ()
  return none

/-- `PERC` requests: `Forward`, and a card request for `EA`; `MarkPush` waits for room and comes before the access. -/
def microPerc (c : CoreId) (m : MicroRun) (w : BitVec 160) (a : Word) : CM Unit := do
  match fld w 138 3 with
  | 1 => do
    let k ← cget c
    let r : FwdReq := { core := c, comp := k.compart, va := a.payload, pa := m.xdr.payload.setWidth 44,
                        ptype := BitVec.ofNat 5 (ptype a.tag), waiting := false, origin := none }
    smod fun s => modEng s (clusterOf c) fun e => { e with fwd := e.fwd ++ [r] }
    mmod c fun m => { m with fwd := some a }
  | 3 => do
    match ← liftD (barrierXlat c m.ea) with
    | none => pure ()
    | some (y, _) => do
      let r : CardReq := { core := c, comp := (← cget c).compart, pa := y.pa, leaf := y.level == 1, copying := false }
      smod fun s => modEng s (cardEngine y.pa) fun e => { e with cards := e.cards ++ [r] }
      mmod c fun m => { m with card := some y.pa }
  | _ => pure ()

/-! ## The datapath (Tables 13.8, 13.9) -/

/-- The ALU's result with its flags: zero, negative, carry or borrow, signed overflow. -/
structure MAlu where
  res : W64
  carry : Bool
  ovf : Bool
deriving DecidableEq, Repr

def maluSum (a b : W64) : MAlu :=
  { res := a + b, carry := decide (2 ^ 64 ≤ a.toNat + b.toNat), ovf := decide ((a + b).toInt ≠ a.toInt + b.toInt) }

def maluDiff (a b : W64) : MAlu :=
  { res := a - b, carry := decide (a.toNat < b.toNat), ovf := decide ((a - b).toInt ≠ a.toInt - b.toInt) }

/-- The element count of the iteration (`KCALC`). -/
def kcalc (gc ea : W64) (b : W64) : W64 :=
  BitVec.ofInt 64 (min gc.toInt (min (lineRoom ea false) b.toNat : Nat))

def malu (op : Nat) (gc ea a b : W64) : Option MAlu :=
  let plain (r : W64) : Option MAlu := some { res := r, carry := false, ovf := false }
  match op with
  | 0x01 => plain a
  | 0x02 => plain b
  | 0x03 => some (maluSum a b)
  | 0x04 => some (maluDiff a b)
  | 0x05 => plain (a &&& b)
  | 0x06 => plain (a ||| b)
  | 0x07 => plain (a ^^^ b)
  | 0x08 => plain (a &&& ~~~b)
  | 0x09 => some (maluSum a 8)
  | 0x0B => some (maluDiff a b)
  | 0x0C => plain (kcalc gc ea b)
  | 0x0D => plain (if a.toNat ≤ b.toNat then a else b)
  | _ => none

/-- Set the ALU's latches and flags. -/
def microAlu (c : CoreId) (x : MicroCtx) (k : Core) (m : MicroRun) (op : Nat) (a b : Word) : CM Unit := do
  if op = 0x0A then mmod c fun m => { m with same := same a b }
  match malu op (mregRead k x m 0x23).payload m.ea a.payload b.payload with
  | none => pure ()
  | some r =>
    mmod c fun m => { m with
      zero := r.res == 0, neg := bit r.res 63, carry := r.carry, ovf := r.ovf
      alr := if op = 0x0B then m.alr else ⟨if op = 0x02 then b.tag else a.tag, r.res⟩
      count := if op = 0x0C then r.res.toInt.toNat else m.count }

/-- `HC` of a word (Table 13.9). -/
def hcClass (t : Byte) : Nat :=
  if t = 0x00 then 0
  else if t = 0x01 then 1
  else if isReserved t || t == 0x07 || t == 0x08 then 3
  else if !isPtr t then 2
  else if ptype t = 0x00 then 4
  else if 1 ≤ ptype t ∧ ptype t ≤ 6 then 5
  else if ptype t = 0x08 then 7
  else 6

def late2 (c : CoreId) (l : Late) : CM Unit :=
  mmod c fun m => { m with late := m.late ++ [{ left := 2, mem := false, div := false, what := l }] }

/-- The position that a consumed register reports: its place in the instruction (02 R53). -/
def consumePos (w : BitVec 160) : Nat :=
  match (if fld w 28 6 = 2 then fld w 72 7 else fld w 65 7) with
  | 0x20 => 5
  | 0x22 => 1
  | 0x23 => 6
  | _ => 0

def microTag (c : CoreId) (k : Core) (w : BitVec 160) (a b : Word) : CM Unit := do
  let t : Byte := BitVec.ofNat 8 (fld w 102 8)
  match fld w 46 5 with
  | 0x01 => late2 c (.tgr ⟨t, a.payload⟩)
  | 0x02 => late2 c (.tgr ⟨ptrTag k.heap.goodcol (ptype b.tag), a.payload⟩)
  | 0x03 => late2 c (.tageq (a.tag == t))
  | 0x04 => late2 c (.tageq (isPtr a.tag && ptype a.tag == fld w 102 5))
  | 0x05 => late2 c (.tgr (fix (BitVec.ofNat 64 (8 * hcClass a.tag + hcClass b.tag))))
  | 0x06 => consume c a (consumePos w)
  | _ => pure ()

/-- The shifter's amount. -/
def shiftAmount (v : Nat) (b : W64) : Nat := if v = 0 then fld b 0 6 else ([0, 1, 3, 4, 6, 9, 21, 48] : List Nat).getD v 0

def microShift (c : CoreId) (w : BitVec 160) (a b : Word) : CM Unit := do
  let n := shiftAmount (fld w 51 3) b.payload
  let r : Option W64 := match fld w 54 2 with
    | 1 => some (a.payload <<< n)
    | 2 => some (a.payload >>> n)
    | 3 => some (a.payload.sshiftRight n)
    | _ => none
  match r with
  | some v => mmod c fun m => { m with sfr := ⟨a.tag, v⟩ }
  | none => pure ()

/-- `LONG`: a result of which the spec states no value or tag is free (log 3). -/
def microLong (c : CoreId) (w : BitVec 160) (a b : Word) : CM Unit := do
  let op := fld w 134 4
  if op = 0 ∨ 5 < op then return
  let n ← liftD fresh
  let open' (i : Nat) (v : Option W64) : Word := ⟨(Config.microLatch n (50 + i)).tag, v.getD (Config.microLatch n (50 + i)).payload⟩
  let p := a.payload
  let q := b.payload
  let fits := q != 0 && !(p == 0x8000000000000000 && q == 0xFFFFFFFFFFFFFFFF)
  let (lo, hi) : Word × Word := match op with
    | 1 => (open' 0 (if fits then some (BitVec.ofInt 64 (p.toInt.tdiv q.toInt)) else none),
            open' 1 (if q = 0 then none else some (BitVec.ofInt 64 (p.toInt.tmod q.toInt))))
    | 2 => (open' 0 (if q = 0 then none else some (p / q)), open' 1 (if q = 0 then none else some (p % q)))
    | 3 => (open' 0 (some (p * q)), open' 1 none)
    | 4 => (open' 0 (some (BitVec.ofInt 64 (p.toInt * q.toInt / 2 ^ 64))), open' 1 none)
    | _ => (open' 0 (some (BitVec.ofNat 64 (p.toNat * q.toNat / 2 ^ 64))), open' 1 none)
  mmod c fun m => { m with late := m.late ++ [{ left := if op ≤ 2 then 3 + Config.choice n else 3, mem := false
                                                div := decide (op ≤ 2), what := .lgr lo hi }] }

/-! ## Control (Table 13.11) -/

/-- What `CREG` reads. -/
def microCtlRead (s : State) (c : CoreId) (x : MicroCtx) (m : MicroRun) (n : Nat) : Word :=
  if n = 0xF00 then fix (m.bl.setWidth 64)
  else if n = 0xF01 then fix (x.word.setWidth 64)
  else ctlRead s c n

def microCrw (c : CoreId) (x : MicroCtx) (m : MicroRun) (w : BitVec 160) : CM Unit := do
  let n := fld w 88 12
  match fld w 100 2 with
  | 1 => do
    let v := microCtlRead (← sget) c x m n
    mmod c fun m => { m with crd := v }
  | 2 => late2 c (.ctl n m.alr)
  | 3 => late2 c (.ctl n m.tgr)
  | _ => pure ()

/-- `STATUS.NUA` := 1 with no mode shadow (03 R81): in the value in force and in every value that is still to come into force. A
system `MTC` in whose shadow the fill falls may have written `NUA` = 0; the spec does not say which stands. DESIGN CHOICE (log 54):
the fill does. -/
def setNua (k : Core) : Core :=
  { k with st := { force := setBit k.st.force 9 true, newest := setBit k.st.newest 9 true
                   shadow := k.st.shadow.map fun e => (e.1, setBit e.2 9 true) } }

def microStat (c : CoreId) (x : MicroCtx) (m : MicroRun) (w : BitVec 160) : CM Unit := do
  match fld w 147 4 with
  | 1 => cmod c fun k => modBank k (ipl k) fun b => { b with dbusy := true }
  | 2 => cmod c fun k => modBank k (ipl k) fun b => { b with dbusy := false }
  | 3 => cmod c setNua
  | 5 => mmod c fun m => { m with begun := none }
  | 6 => do
    let gb : Reg := Fin.ofNat 32 (fld x.word 11 5)
    let before := (← reg c x.gc, ← reg c gb)
    blockAdvance c x.gc gb m.count
    mmod c fun m => { m with first := false, begun := some before }
    cmod c fun k => { k with micro := { k.micro with saved := some (savedOf k) } }
  | 8 => cmod c fun k => { k with cards := [] }
  | 9 => cmod c fun k => { k with heap := { k.heap with goodcol := nextCol k.heap.goodcol } }
  | _ => pure ()

/-- Whether a timed action is due on a core that it stops: a phase flip, or a snapshot stop that has not begun (09 Table 9.10). -/
def stopDue (k : Core) : Bool := k.pend.flip.isSome || (k.pend.snap && k.pend.snapTick.isNone)

/-- Whether an interrupt or a timed action is to be taken between iterations (R340). -/
def windowDue (s : State) (c : CoreId) : Bool :=
  let k := getCore s c
  stopDue k || k.pend.mc.isSome || !k.pend.reports.isEmpty || (admitted s c).isSome

/-- The trace of a word (R338). -/
def microTrace (c : CoreId) (m : MicroRun) (w : BitVec 160) : CM Unit := do
  if fld w 151 2 = 1 then
    let n ← liftD fresh
    if Config.traceOn n then
      smod fun s => { s with lk := { s.lk with
        trace := s.lk.trace ++ [(BitVec.ofNat 15 m.upc, tickOf s (clusterOf c))] } }

/-! ## The next address (Table 13.4, R334, R336) -/

/-- A micro-PC by its store and address, a fetch of the ROM redirected. -/
def sameStore (k : Core) (m : MicroRun) (a : Nat) : Nat :=
  if 2 ^ 14 ≤ m.upc then patchPc a else romFetch k (a % 2 ^ 14)

/-- The other store: never redirected. -/
def crossStore (m : MicroRun) (a : Nat) : Nat := if 2 ^ 14 ≤ m.upc then a % 2 ^ 14 else patchPc a

/-- Go on at a micro-PC; a push of an address comes first. None: a micro-stack fault. -/
def goMicro (c : CoreId) (push : Option Nat) (upc : Nat) : CM (Option MicroEnd) := do
  let k ← cget c
  match push with
  | some a =>
    if 8 ≤ k.micro.stack.length then return some (.stack ((← mget c).upc) false)
    cmod c fun k => { k with micro := { k.micro with stack := BitVec.ofNat 15 a :: k.micro.stack } }
  | none => pure ()
  mmod c fun m => { m with upc := upc, acted := false }
  return none

/-- The store bit and the address + 1 of a micro-PC. -/
def nextPc (m : MicroRun) : Nat := if 2 ^ 14 ≤ m.upc then patchPc (m.upc + 1) else (m.upc + 1) % 2 ^ 14

/-- The micro-PC that follows in sequence, redirected where the ROM is. -/
def seqPc (k : Core) (m : MicroRun) : Nat := sameStore k m (nextPc m)

/-- Leave a word: `m` holds the latches that it saw, `t` whether its condition held. -/
def leaveWord (c : CoreId) (m : MicroRun) (w : BitVec 160) (t : Bool) : CM (Option MicroEnd) := do
  let k ← cget c
  let a := fld w 4 14
  let seq := seqPc k m
  match fld w 0 4 with
  | 1 => goMicro c none (sameStore k m a)
  | 2 => goMicro c none (if t then sameStore k m a else seq)
  | 3 => goMicro c (some (nextPc m)) (sameStore k m a)
  | 4 => match k.micro.stack with
    | [] => return some (.stack m.upc true)
    | p :: r => do
      cmod c fun k => { k with micro := { k.micro with stack := r } }
      goMicro c none (if p.toNat < 2 ^ 14 then romFetch k p.toNat else p.toNat)
  | 5 => goMicro c none (sameStore k m (a + fld m.tgr.payload 0 6))
  | 7 => do
    deliverCtl c
    return some .done
  | 8 => goMicro c none (crossStore m a)
  | 9 => goMicro c none (if t then crossStore m a else seq)
  | 10 => goMicro c (some (nextPc m)) (crossStore m a)
  | 11 => goMicro c none (sameStore k m (a + fld m.alr.payload 0 3))
  | _ => match fld w 26 2 with
    | 1 => goMicro c (some (if 2 ^ 14 ≤ m.upc then patchPc a else a)) seq
    | 2 => match k.micro.stack with
      | [] => return some (.stack m.upc true)
      | _ :: r => do
        cmod c fun k => { k with micro := { k.micro with stack := r } }
        goMicro c none seq
    | _ => goMicro c none seq

/-! ## A word (R336 to R341) -/

/-- What a word keeps of the answers that it has had: those to requests of an earlier word stand until they are waited for. -/
def keepAnswers (m : MicroRun) (r : Replay) : Replay :=
  { Replay.reset with
    rom := r.rom, healed := r.healed
    fwd := match m.fwd with
      | some w => r.fwd.filter fun e => e.1 == w.payload
      | none => []
    cards := match m.card with
      | some pa => r.cards.filter fun e => e.1 == cardOf pa
      | none => [] }

/-- Whether the pair's count is used up. -/
def lastIteration (k : Core) (x : MicroCtx) : Bool := decide ((gread k x.gc).payload.toInt ≤ 0)

/-- gc and gb as they stood before the iteration that has begun writing. -/
def undoIteration (c : CoreId) (x : MicroCtx) (before : Word × Word) : CM Unit := do
  setReg c x.gc before.1
  setReg c (Fin.ofNat 32 (fld x.word 11 5)) before.2

/-- A bus error in an iteration that has begun writing is pending as a report (09 R256): after the last iteration the pair is done; after
another one, gc and gb are those of the iteration before, and the report is taken there. -/
def reportIteration (c : CoreId) (x : MicroCtx) (r : Report) : CM (Option MicroEnd) := do
  deliverCtl c
  cmod c fun k => { k with pend := { k.pend with reports := k.pend.reports ++ [r] } }
  if lastIteration (← cget c) x then return some .done
  match (← mget c).begun with
  | some before => undoIteration c x before
  | none => pure ()
  return some .window

/-- An exception of a repeat pair's microprogram (09 R256): one in the last iteration, which has begun writing, is the next
instruction's; any other leaves gc and gb as they stood after the iteration before. -/
def microExc {α : Type} (c : CoreId) (x : MicroCtx) (e : ExcArgs) : CM α := do
  let k ← cget c
  if !x.rep then throw (.exc e)
  match (← mget c).begun with
  | none => throw (.exc { e with inrep := true })
  | some before =>
    if lastIteration k x then throw (.exc { e with inrep := false, epc := va48 (k.pc + 8) })
    undoIteration c x before
    throw (.exc { e with inrep := true })

/-- The fields of a word act together, on the latches as the word finds them. -/
def actWord (c : CoreId) (x : MicroCtx) (w : BitVec 160) : CM (Option MicroEnd) := do
  let k ← cget c
  let m ← mget c
  let t := condHolds k x m w
  let a := moperand k x m w (fld w 28 6)
  let b := moperand k x m w (fld w 34 6)
  if fld w 141 6 ≠ 0 then
    deliverCtl c
    raise c (BitVec.ofNat 8 (fld w 141 6)) (BitVec.ofNat 8 (fld w 102 8)) m.ea m.alr.payload
  microTag c k w a b
  if fld w 138 3 = 2 then markPush c a (m.xdr.payload.setWidth 44)
  let report ← microMem c x m w a b
  microPerc c m w a
  microAlu c x k m (fld w 40 6) a b
  microShift c w a b
  microLong c w a b
  let src := match fld w 86 2 with
    | 1 => some m.alr
    | 2 => some m.tgr
    | 3 => some m.mdr
    | _ => none
  match src with
  | some v => mregWrite c x m (fld w 79 7) v
  | none => pure ()
  microCrw c x m w
  microStat c x m w
  microTrace c m w
  ageLate c 1
  let n ← mget c
  cmod c fun k => { k with replay := keepAnswers n k.replay }
  match report with
  | some r => reportIteration c x r
  | none =>
    if fld w 0 4 = 6 then
      mmod c fun m => { m with acted := true }
      return none
    else leaveWord c m w t

/-- The faults that the listed words of `0x0100` jump to (Table 13.13, 06 R162). -/
def barrierTail (c : CoreId) (m : MicroRun) : CM Unit := do
  let ra : Byte := BitVec.ofNat 8 (fld m.xdr.payload 44 8)
  match m.upc with
  | 0x0120 => tagFaultAt c 0x03 m.mdr.tag 3 m.ea
  | 0x0124 => barrierFault c 0x04 m.ea m.mdr 0
  | 0x0128 => barrierFault c 0x02 m.ea m.mdr ra
  | 0x012C => barrierFault c 0x03 m.ea m.mdr ra
  | 0x0130 => barrierFault c 0x01 m.ea m.mdr ra
  | _ => pure ()

/-- One word: none where the microprogram goes on. -/
def microWord (c : CoreId) (x : MicroCtx) : CM (Option MicroEnd) := do
  let k ← cget c
  let m ← mget c
  if m.entry = 0x0100 then barrierTail c m
  if m.upc = m.entry ∧ (romListed false m.upc).isNone ∧ (patchOf k m.entry).isSome then
    deliverCtl c
    return some .original
  let w := microWordAt k m
  if m.acted then
    hold c x w
    leaveWord c (← mget c) w true
  else
    if bit w 25 then hold c x w
    if fld w 147 4 = 5 ∧ !m.first ∧ windowDue (← sget) c then
      deliverCtl c
      return some .window
    takePerc c
    actWord c x w

/-- One word, with its exceptions as the instruction reports them. -/
def microStep (c : CoreId) (x : MicroCtx) : CM (Option MicroEnd) :=
  tryCatch (microWord c x) fun e => match e with
    | .exc e => microExc c x e
    | e => throw e

/-- The sequencer runs: at most `n` words in one command, after which the core goes on when time passes. -/
def microLoop (c : CoreId) (x : MicroCtx) : Nat → CM MicroEnd
  | 0 => waitFor .micro
  | n + 1 => do
    match ← microStep c x with
    | some e => return e
    | none => microLoop c x n

/-- The words that one command runs before time passes. -/
def microFuel : Nat := 65536

def runMicro (c : CoreId) (x : MicroCtx) : CM MicroEnd := microLoop c x microFuel

end Sys2Proof.Machine
end

