-- ==== Sys2Proof/Machine/Entry.lean ====
section
/-! DEFINITION. Taking an exception (09 R244, R245, R263), by the ROM's routine or by a patched one, and what happens at an
instruction boundary (09 R261). -/

namespace Sys2Proof.Machine

/-! ## A microprogram ends -/

/-- The sequencer is idle: the run and the micro-stack are gone (13 R339). -/
def idleMicro (k : Core) : Core := { k with micro := { k.micro with run := none, stack := [] } }

/-- The sequencer is idle, and what a micro-stack fault would put back is forgotten. -/
def endMicro (k : Core) : Core := { k with micro := { k.micro with run := none, stack := [], saved := none } }

def clearMicro (s : State) (c : CoreId) : State := modCore s c endMicro

/-- The log entry of a machine check of one core (18 Table 18.3). -/
def logMc (s : State) (c : CoreId) (cls : Nat) (r : McReport) : State :=
  logErr s cls 1 (getCore s c).compart.toNat c.val 0 (mcInfo r.sub.toNat r.einfo.toNat)

/-- The report of a micro-stack fault (18 Table 18.2). -/
def stackReport (upc : Nat) (low : Bool) : McReport := ⟨0x01, 0, BitVec.ofNat 64 (upc + 2 ^ 16 * low.toNat)⟩

/-- A micro-stack or control store fault while the core enters an exception locks it up (09 R263, 13 R339, R348). -/
def lockInEntry (s : State) (c : CoreId) (v : Byte) : State :=
  modCore s c fun k => { k with
    run := .locked, wait := none, replay := Replay.reset, micro := (endMicro k).micro
    lock := some { vec := v, sub := 0, cause := Config.microStackLockCause, epc := k.exc.epc, eaddr := k.exc.eaddr,
                   einfo := k.exc.einfo } }

/-- The context of a microprogram that runs for no instruction: its operand registers are free (log 3). -/
def entryCtx (k : Core) : MicroCtx :=
  let iw := (k.micro.run.map (·.iw)).getD 0
  { word := iw, gc := Fin.ofNat 32 (fld iw 0 5), byte := false, rep := false }

/-! ## Entry -/

/-- The end of an entry: the core runs on, where the ROM's routine or a free value says (13 R335: no microword writes the PC). -/
def entered (c : CoreId) (s : State) : State := modCore s c fun k => { k with wait := none, replay := Replay.reset }

/-- A patched routine stands for its own from now on, for the use that it was entered for. -/
def passRom (c : CoreId) (s : State) : State :=
  modCore s c fun k =>
    let a := (k.micro.run.map fun m => (m.entry, m.key)).getD (0, 0)
    { idleMicro k with replay := { k.replay with rom := k.replay.rom ++ [a] } }

/-- Carry an entry on until it is done, waits or locks the core up; `n` bounds the routines that it enters. -/
def entryRun (c : CoreId) (e : ExcArgs) : Nat → State → State
  | 0, s => s
  | n + 1, s =>
    let wait (w : WaitFor) (s : State) : State :=
      modCore s c fun k => { k with wait := some { what := w, resume := .entry e } }
    let micro (s : State) : State :=
      match (runMicro c (entryCtx (getCore s c))).run s with
      | .ok .done s =>
        let (i, s) := fresh s
        modCore (entered c (clearMicro s c)) c fun k => { k with pc := Config.microPc i, run := .running }
      | .ok .original s => entryRun c e n (passRom c s)
      | .ok .window s => entered c (clearMicro s c)
      | .ok (.stack upc low) s => lockInEntry (logMc s c 0x06 (stackReport upc low)) c e.vec
      | .error (.exc _) s => lockInEntry s c e.vec
      | .error (.wait w) s => wait w s
      | .error _ s => s
    if (getCore s c).micro.run.isSome then micro s
    else match (enterBody c e).run s with
      | .ok _ s => entered c s
      | .error (.wait w) s => wait w s
      | .error .micro s => micro s
      | .error _ s => s

/-- Carry an entry on, from its start or from where it waited. -/
def runEntry (c : CoreId) (e : ExcArgs) (s : State) : State := entryRun c e 32 s

/-- Taking an exception: whatever the core waited for is abandoned, and entry starts. -/
def takeException (c : CoreId) (e : ExcArgs) (s : State) : State :=
  runEntry c e (modCore (clearMicro s c) c fun k => { k with wait := none, replay := Replay.reset })

/-! ## The boundary (R261, Table 9.10) -/

/-- Row 1 (06 R166 step 2, 07 R200 steps 2 and 3): issue stops for the phase flip, or for the snapshot stop, in which long operations
complete; the rows after it follow as issue resumes. -/
def stopCore (c : CoreId) (s : State) : State :=
  let t := tickOf s (clusterOf c)
  modCore s c fun k =>
    let k := { k with wait := none, replay := Replay.reset }
    if k.pend.flip.isSome then { k with run := .flipStop }
    else completeAll { k with run := .snapStop, pend := { k.pend with snapTick := some t } }

/-- Take the first applicable event of rows 1 to 5, long operations having completed; none where no row applies. -/
def boundaryEvent (c : CoreId) (inrep : Bool) (s : State) : Option State :=
  let k := getCore s c
  let due := k.pend.mc.isSome || !k.pend.reports.isEmpty || k.pend.step.isSome || (admitted s c).isSome
  if k.run = .running ∧ stopDue k then some (stopCore c s)
  else if !due then none
  else
    let s := modCore s c completeAll
    let k := getCore s c
    match k.pend.mc with
    | some m =>
      let s := modCore s c fun k => { k with pend := { k.pend with mc := none } }
      some (takeException c { boundaryArgs k 0x00 m.sub m.eaddr m.einfo false with inrep := inrep } s)
    | none => match k.pend.reports with
      | r :: rest =>
        let s := modCore s c fun k => { k with pend := { k.pend with reports := rest } }
        some (takeException c { boundaryArgs k r.vec r.sub r.eaddr r.einfo true with inrep := inrep } s)
      | [] => match k.pend.step with
        | some a =>
          let s := modCore s c fun k => { k with pend := { k.pend with step := none } }
          some (takeException c (boundaryArgs k 0x18 0 0 (va48 a) false) s)
        | none => match admitted s c with
          | some (v, _) =>
            some (takeException c { boundaryArgs k (BitVec.ofNat 8 v) 0 0 0 false with inrep := inrep } s)
          | none => none

end Sys2Proof.Machine
end

