-- ==== Sys2Proof/Machine/Issue.lean ====
section
/-! DEFINITION. How a core takes an instruction: the scoreboard (10 R274), the boundary before it (09 R261), fetch and
decode (09 R262), its own operation, and retirement (03 R70, R73, 09 R259). -/

namespace Sys2Proof.Machine

/-! ## The scoreboard (10 R274) -/

/-- The general and the numeric registers that a word names, read or written, and whether it waits for every numeric
operation (10 Table 10.3). -/
def wordRegs (w : BitVec 32) : List Nat × List Nat × Bool :=
  let op := w.toNat / 2 ^ 26
  let f := w.toNat / 2 ^ 21 % 32
  let g := w.toNat / 2 ^ 16 % 32
  let h := w.toNat / 2 ^ 11 % 32
  let fn := w.toNat % 2 ^ 11
  if op = 0x00 ∨ op = 0x05 ∨ (0x09 ≤ op ∧ op ≤ 0x0C) then ([f, g], [], false)
  else if op = 0x03 then ([f], [], false)
  else if op = 0x0F ∨ op = 0x11 then ([g], [], false)
  else if op = 0x10 then (if f ≤ 1 ∨ f = 6 ∨ f = 7 then [g, h] else [g], [], false)
  else if op = 0x12 then ([], [], false)
  else if op = 0x13 then ([30], [], false)
  else if op = 0x14 then (if fn = 1 then [g, 30] else [g], [], false)
  else if op = 0x1C then
    if fn = 0x05 ∨ fn = 0x0A ∨ fn = 0x0B then ([], [f, g], false)
    else if fn < 0x20 then ([], [f, g, h], false)
    else if fn < 0x30 then ([g, h], [f], false)
    else if fn = 0x31 ∨ fn = 0x32 then ([f], [g], false)
    else if fn = 0x30 ∨ fn = 0x33 then ([g], [f], false)
    else ([f, g], [], true)
  else ([f, g, h], [], false)

/-- Whether `MFB` or `MTB` names a register through the bank window (03 R77). -/
def windowReg (k : Core) (i : Instr) (b : Fin 8) (r : Reg) : Bool :=
  match i with
  | .mfb _ _ x => x == r && Fin.ofNat 8 k.bw.bank.toNat == b
  | .mtb _ x _ => x == r && Fin.ofNat 8 k.bw.bank.toNat == b
  | _ => false

/-- Whether an instruction needs the divider (10 R275): the raw divisions, and the generic ones of fixnums. -/
def needsDivider (k : Core) (i : Instr) : Bool :=
  let fixnum (r : Reg) : Bool := (gread k r).tag == 0x00
  let second (b : GSrc) : Bool := match b with
    | .reg r => fixnum r
    | .imm _ => true
  match i with
  | .div _ _ _ _ => true
  | .divu _ _ _ _ => true
  | .rem _ _ _ _ => true
  | .remu _ _ _ _ => true
  | .gdiv _ _ a b => fixnum a && second b
  | .gquo _ _ a b => fixnum a && second b
  | .grem _ _ a b => fixnum a && second b
  | _ => false

/-- Whether an instruction waits for a long operation: it reads or writes the operation's destination, needs the divider it
holds (09 R253), or waits for every numeric operation. `DRET` also writes the destination of its dispatch, and a numeric instruction before the lazy fill reads g31. -/
def conflicts (k : Core) (rep : Option Reg) (i : Instr) (o : LongOp) : Bool :=
  let w := (encodeCore i).getD 0
  let (gs, vs, allNum) := wordRegs w
  let gs := match rep with
    | some r => r.val :: gs
    | none => gs
  let gs := match i with
    | .dret _ _ => fld (bankOf k (ipl k)).dspOp 0 5 :: gs
    | _ => gs
  let lazy := w.toNat / 2 ^ 26 == 0x1C && !bit k.st.force 9
  let gs := if lazy then 31 :: gs else gs
  (allNum && o.numeric) || (lazy && o.numeric) || (o.divider && !o.numeric && needsDivider k i) || match o.dest with
    | .gpr b r => r != 0 && (gs.contains r.val || windowReg k i b r)
    | .vreg r => vs.contains r.val

/-- Instructions that wait for every long operation: `RETX` (09 R250), and every instruction in deterministic or precise
mode (10 R280, 09 R254), where none is in flight. -/
def waitsForAll (k : Core) : Instr → Bool
  | .retx _ => true
  | _ => stDET k || stPRECISE k

/-! ## Admission -/

/-- What a core does with an instruction that is delivered to it. -/
inductive Admit where
  | ready (s : State)
  | other (s : State)

/-- The prefix of a repeat pair. -/
def repOf : Instr → Option Reg
  | .lwalk _ r _ _ _ => r
  | .movw _ r _ _ _ => r
  | .fillw _ r _ _ _ => r
  | .scanw _ r _ _ _ => r
  | .cmpw _ r _ _ _ => r
  | .movb _ r _ _ _ => r
  | _ => none

/-- Admit an instruction: only a running core that waits for nothing and is not to stop takes one, the long operations it depends on
complete first, and an event of Table 9.10 that is due at this boundary is taken in its place. -/
def admission (c : CoreId) (i : Instr) (s : State) : Admit :=
  let k := getCore s c
  if k.run ≠ .running ∨ k.wait.isSome ∨ k.pend.stop then .other s
  else
    let s := modCore s c fun k =>
      completeWhere (fun o => waitsForAll k i || conflicts k (repOf i) i o) k
    match boundaryEvent c false s with
    | some t => .other t
    | none => .ready s

/-! ## Retirement -/

/-- How an instruction ends: where execution continues (none: the next instruction), how much it adds to `INSTRET`,
whether a single step counts it, and the `STATUS` value that an `MTC` writes. -/
structure Flow where
  next : Option W64 := none
  count : Nat := 1
  stepped : Bool := true
  status : Option W64 := none
deriving DecidableEq, Repr

/-- An instruction that goes on to the next. -/
def thenNext (m : CM Unit) : CM Flow := do
  m
  return {}

/-- An instruction that transfers control. -/
def goTo (a : W64) : CM Flow := return { next := some (va48 a) }

/-- The length of an instruction: a repeat pair is two words. -/
def instrLen (i : Instr) : W64 := if (repOf i).isSome then 8 else 4

/-- One instruction passes in every mode shadow; a write whose three followers have run takes effect (R73, R76). -/
def ageShadow (k : Core) : Core :=
  let aged := k.st.shadow.map fun e => (e.1 - 1, e.2)
  let k := { k with st := { k.st with shadow := aged.filter fun e => e.1 != 0 } }
  (aged.filter fun e => e.1 == 0).foldl (fun k e => putForce k e.2) k

/-- Retirement: the PC, `INSTRET`, the mode shadow, and the single step (09 R259) that follows, which ends a halt (R260). In
deterministic mode an instruction's stores are performed before the next one begins (10 R280). -/
def retire (c : CoreId) (i : Instr) (f : Flow) (s : State) : State :=
  let k := getCore s c
  let step := f.stepped && stSSTEP k
  let det := stDET k
  let s := modCore s c fun k =>
    let k := ageShadow { endMicro k with
      pc := f.next.getD (va48 (k.pc + instrLen i))
      instret := k.instret + BitVec.ofNat 64 f.count
      replay := Replay.reset }
    let k := match f.status with
      | some v => { k with st := { k.st with newest := v, shadow := k.st.shadow ++ [(3, v)] } }
      | none => k
    if step then { k with run := if k.run = .halted then .running else k.run, pend := { k.pend with step := some (getCore s c).pc } } else k
  let s := if det then drainAll s c else s
  if step ∧ (getCore s c).pend.mc.isNone ∧ (getCore s c).pend.reports.isEmpty then
    match boundaryEvent c false s with
    | some t => t
    | none => s
  else s

/-- An instruction raises an exception: every long operation completes first, and a machine check or a report that is
pending then is taken in its place, with `EPC` at the instruction (09 R246, R261). -/
def raiseAt (c : CoreId) (e : ExcArgs) (s : State) : State :=
  let s := modCore (clearMicro s c) c completeAll
  if (getCore s c).pend.mc.isSome || !(getCore s c).pend.reports.isEmpty then
    (boundaryEvent c e.inrep s).getD s
  else takeException c e s

/-- The context of a microprogram that runs for an instruction. -/
def instrCtx (i : Instr) : MicroCtx :=
  { word := (encodeCore i).getD 0, gc := (repOf i).getD 0
    byte := match i with
      | .movb _ _ _ _ _ => true
      | _ => false
    rep := (repOf i).isSome }

/-- Mark the exceptions of a repeat pair (R113, 09 Table 9.1). -/
def inRep {α : Type} (m : CM α) : CM α :=
  tryCatch m fun x => match x with
    | .exc e => throw (.exc { e with inrep := true })
    | x => throw x

/-- What `END` of a patched routine means for its instruction (13 R332): it completes. Where the ROM's routine would have set the PC
itself, execution goes on at a free value: no microword writes the PC. -/
def microFlow (entry n : Nat) : Flow :=
  if entry = 0x0080 then { next := some (va48 (Config.microPc n)), count := 0 }
  else if entry = 0x00A0 then { next := some (va48 (Config.microPc n)), count := 2 }
  else if entry = 0x0060 then { next := some (va48 (Config.microPc n)), stepped := false }
  else {}

/-- The routines that come before an instruction's own operation: register healing, a card check, a lazy fill and the numeric reload
of `RETX`. After `END` the instruction goes on (log 20). -/
def preludes : List Nat := [0x0140, 0x0180, 0x01C0, 0x01E0]

/-! ## Waits that a cause ends (06 R161) -/

/-- Waits that an interrupt, a machine check, a phase flip or a snapshot stop ends by abandoning the instruction (06 R161,
08 R217, R224, 17 R412), while nothing of the instruction has been written. -/
def abandonable (k : Core) : Bool :=
  match k.wait, k.micro.run with
  | none, _ => false
  | some _, some m => m.abandon
  | some w, none => (match w.resume with
      | .instr _ => true
      | _ => false)
    && (match w.what with
      | .forward _ => true
      | .markRoom => true
      | .tick _ => true
      | .group _ => true
      | .credit => true
      | _ => false)
    && !k.replay.done && k.replay.remote.all fun r => fld r.1 0 2 != 1 && fld r.1 0 2 != 2

/-- Whether the waiting instruction is a repeat pair. -/
def waitInRep (k : Core) : Bool :=
  match k.wait with
  | some { what := _, resume := .instr i } => (repOf i).isSome
  | _ => false

/-- The registers that an abandoned instruction has changed hold again what they held: those that it healed, and those that its
microprogram wrote. -/
def unchanged (k : Core) : Core :=
  k.replay.healed.foldr (fun h k => setRegOf k h.1 h.2.1 h.2.2) (putBack k)

/-- The instruction that waits is abandoned (06 R161): execution stands before it, and no register of it has changed. -/
def abandon (c : CoreId) (s : State) : State :=
  modCore s c fun k => { endMicro (unchanged k) with wait := none, replay := Replay.reset }

/-- Take what is due at a core's boundary (09 Table 9.10), abandoning a wait that may be abandoned; none where nothing is due
or the core cannot take it. -/
def takeDue (c : CoreId) (s : State) : Option State :=
  let k := getCore s c
  if k.run ≠ .running ∨ k.pend.stop then none
  else if k.wait.isNone then boundaryEvent c false s
  else if abandonable k then boundaryEvent c (waitInRep k) (abandon c s)
  else none

/-- A micro-stack fault (13 R339): a machine check, the instruction abandoned with nothing of it changed: `s0` is the state it was
taken in or went on, `r` the registers before its microcode. -/
def stackFault (c : CoreId) (rep : Bool) (upc : Nat) (low : Bool) (r : Option SavedRegs) (s0 : State) : State :=
  let s := modCore s0 c fun k =>
    { endMicro (putBack { k with micro := { k.micro with saved := r } }) with wait := none, replay := Replay.reset }
  let s := pendMc (logMc s c 0x06 (stackReport upc low)) c (stackReport upc low)
  (boundaryEvent c rep s).getD s

/-- Carry an instruction on until it ends or waits; `n` bounds the routines of microcode that it enters, `s0` is the state in which it
was taken or went on. A cause that is pending as a wait begins is taken at once where the wait may be abandoned (06 R161); a
micro-stack fault in chaining locks the core up (13 R339). -/
def runOn (c : CoreId) (i : Instr) (body : CM Flow) (s0 : State) : Nat → State → State
  | 0, s => s
  | n + 1, s =>
    let rep := (repOf i).isSome
    let wait (w : WaitFor) (s : State) : State :=
      let s := modCore s c fun k => { k with wait := some { what := w, resume := .instr i } }
      (takeDue c s).getD s
    let micro (s : State) : State :=
      match (runMicro c (instrCtx i)).run s with
      | .ok .done s =>
        let a := ((getCore s c).micro.run.map (·.entry)).getD 0
        if preludes.contains a then runOn c i body s0 n (passRom c s)
        else
          let (j, s) := fresh s
          retire c i (microFlow a j) s
      | .ok .original s => runOn c i body s0 n (passRom c s)
      | .ok .window s => (boundaryEvent c rep (clearMicro s c)).getD s
      | .ok (.stack upc low) s =>
        if (getCore s c).micro.run.any (·.entry == 0x0060) then lockInEntry (logMc s c 0x06 (stackReport upc low)) c 0x00
        else stackFault c rep upc low (getCore s c).micro.saved s0
      | .error (.exc e) s => raiseAt c e s
      | .error (.wait w) s => wait w s
      | .error _ s => s
    if (getCore s c).micro.run.isSome then micro s
    else match body.run s with
      | .ok f s => retire c i f s
      | .error (.exc e) s => raiseAt c e s
      | .error (.wait w) s => wait w s
      | .error .micro s => micro s
      | .error .ended s => s

/-- The run of an instruction, from its start or from where it waited. -/
def finish (c : CoreId) (i : Instr) (body : CM Flow) (s : State) : State := runOn c i body s 32 s

/-! ## Fetch, decode, privilege -/

/-- The fetch and decode checks of an instruction (09 R262 rows 1 and 2), the governed word's too (09 R256). -/
def decodeChecks (c : CoreId) (i : Instr) : CM Unit := do
  let pc := (← cget c).pc
  fetchCheck c pc
  if (repOf i).isSome then inRep (fetchCheck c (pc + 4))
  match illegalInstr (repOf i) i with
  | none => keepAhead c (pc + instrLen i)
  | some (sub, w, pair) =>
    let m : CM Unit := raise c 0x02 sub 0 (w.setWidth 64)
    if pair then inRep m else m

/-- A privileged instruction (04 R92). -/
def sysOnly (c : CoreId) (i : Instr) : CM Unit := do
  if !isSys (← cget c) then raise c 0x03 0 0 (einfoWord i)

/-- The use of the numeric unit (03 R81): available, unavailable, or the lazy fill. DESIGN CHOICE (log 61): the fill's address is the payload
of g31 at the instruction, at the present privilege; a misaligned one raises vector `0x04`. -/
def numericUse (c : CoreId) (i : Instr) : CM Unit := do
  let k ← cget c
  if bit k.st.force 9 then return
  if !stNUL k then raise c 0x11 0 0 (einfoWord i)
  let a := (gread k 31).payload
  let ws : List (W64 × Word) :=
    ((List.finRange 32).flatMap fun r => (List.range 4).map fun l =>
      (a + BitVec.ofNat 64 (32 * r.val + 8 * l), bytesW (lane (k.v.get r) l)))
    ++ [(a + 1024, bytesW k.nfl), (a + 1032, bytesW 1)]
  enterRom c 0x01C0 0 id
  if fld a 0 3 ≠ 0 then raise c 0x04 0 (va48 a) 0
  writeFrame c (!isSys k) ws
  cmod c setNua

/-- An instruction from its fetch to its end. -/
def runInstr (c : CoreId) (i : Instr) (body : CM Flow) : CM Flow := do
  decodeChecks c i
  body

/-- A core takes an instruction whose operation is `body`. -/
def issue (c : CoreId) (i : Instr) (body : CM Flow) (s : State) : Host.Outcome State Fault Refusal :=
  match admission c i s with
  | .other t => .next t
  | .ready s => .next (finish c i (runInstr c i body) s)

end Sys2Proof.Machine
end

