-- ==== Sys2Proof/Machine/Alu.lean ====
section
/-! DEFINITION. Raw integer instructions (04 Table 4.5, R94): register and immediate forms. -/

namespace Sys2Proof.Machine

/-- Start a long operation, or complete it at once where the mode holds issue for it (10 R274, R280, 09 R254). The divider
and the numeric iterative unit serve one operation at a time (R275). -/
def startLong (c : CoreId) (o : LongOp) : CM Unit := cmod c fun k =>
  let k := if o.divider then completeWhere (fun p => p.divider && p.numeric == o.numeric) k else k
  if stPRECISE k || stDET k then completeOp k o else { k with longs := k.longs ++ [o] }

/-- A long operation that writes a general register of the current bank. -/
def longGpr (k : Core) (gd : Reg) (w : Word) : LongOp :=
  { dest := .gpr (ipl k) gd, tag := w.tag, val := w.payload.setWidth 256, flags := 0, numeric := false,
    divider := false, zdiv := none }

/-- A raw operation of two registers with a result computed in the pipe. -/
def rawBin (c : CoreId) (gd ga gb : Reg) (f : W64 → W64 → W64) : CM Unit := do
  let a ← rawOp c ga 0
  let b ← rawOp c gb 1
  setReg c gd (fix (f a b))

/-- `ADD` and `SUB`: the overflow exception under `OVE` (R94). -/
def rawSum (c : CoreId) (gd ga gb : Reg) (f : Int → Int → Int) : CM Unit := do
  let a ← rawOp c ga 0
  let b ← rawOp c gb 1
  let r := f a.toInt b.toInt
  if stOVE (← cget c) && signedOverflow r then raise c 0x0E 0 0 0
  setReg c gd (fixI r)

/-- A raw operation of two registers whose result is delivered later (10 R274). -/
def rawLong (c : CoreId) (gd ga gb : Reg) (f : W64 → W64 → W64) : CM Unit := do
  let a ← rawOp c ga 0
  let b ← rawOp c gb 1
  startLong c (longGpr (← cget c) gd (fix (f a b)))

/-- Raw division (R94, 09 R253, R254): `z` is the result of a zero divisor under `DZE` = 0. -/
def rawDiv (c : CoreId) (gd ga gb : Reg) (f z : W64 → W64 → W64) : CM Unit := do
  let a ← rawOp c ga 0
  let b ← rawOp c gb 1
  let k ← cget c
  if b = 0 ∧ stDZE k ∧ stPRECISE k then raise c 0x0D 0x02 0 (va48 k.pc)
  let o := longGpr k gd (fix (if b = 0 then z a b else f a b))
  startLong c { o with divider := true, zdiv := if b = 0 ∧ stDZE k then some k.pc else none }

/-- An immediate operation: gd is source and destination (04 Table 4.1). DESIGN CHOICE (log 59): a tag fault on gd, an input, reports position
0; R53 names none for it. -/
def rawImm (c : CoreId) (gd : Reg) (f : W64 → W64) : CM Unit := do
  let a ← rawOp c gd 0
  setReg c gd (fix (f a))

/-- ADD (R94). -/
def bodyAdd (c : CoreId) (gd : Reg) (ga : Reg) (gb : Reg) : CM Flow := thenNext (rawSum c gd ga gb (· + ·))

def execAdd (c : CoreId) (gd : Reg) (ga : Reg) (gb : Reg) (s : State) : Host.Outcome State Fault Refusal :=
  issue c (.add c gd ga gb) (bodyAdd c gd ga gb) s

/-- SUB (R94). -/
def bodySub (c : CoreId) (gd : Reg) (ga : Reg) (gb : Reg) : CM Flow := thenNext (rawSum c gd ga gb (· - ·))

def execSub (c : CoreId) (gd : Reg) (ga : Reg) (gb : Reg) (s : State) : Host.Outcome State Fault Refusal :=
  issue c (.sub c gd ga gb) (bodySub c gd ga gb) s

/-- AND (04 Table 4.5). -/
def bodyAnd (c : CoreId) (gd : Reg) (ga : Reg) (gb : Reg) : CM Flow := thenNext (rawBin c gd ga gb (fun a b => a &&& b))

def execAnd (c : CoreId) (gd : Reg) (ga : Reg) (gb : Reg) (s : State) : Host.Outcome State Fault Refusal :=
  issue c (.and c gd ga gb) (bodyAnd c gd ga gb) s

/-- OR (04 Table 4.5). -/
def bodyOr (c : CoreId) (gd : Reg) (ga : Reg) (gb : Reg) : CM Flow := thenNext (rawBin c gd ga gb (fun a b => a ||| b))

def execOr (c : CoreId) (gd : Reg) (ga : Reg) (gb : Reg) (s : State) : Host.Outcome State Fault Refusal :=
  issue c (.or c gd ga gb) (bodyOr c gd ga gb) s

/-- XOR (04 Table 4.5). -/
def bodyXor (c : CoreId) (gd : Reg) (ga : Reg) (gb : Reg) : CM Flow := thenNext (rawBin c gd ga gb (fun a b => a ^^^ b))

def execXor (c : CoreId) (gd : Reg) (ga : Reg) (gb : Reg) (s : State) : Host.Outcome State Fault Refusal :=
  issue c (.xor c gd ga gb) (bodyXor c gd ga gb) s

/-- SHL (04 Table 4.5). -/
def bodyShl (c : CoreId) (gd : Reg) (ga : Reg) (gb : Reg) : CM Flow := thenNext (rawBin c gd ga gb (fun a b => a <<< (b.toNat % 64)))

def execShl (c : CoreId) (gd : Reg) (ga : Reg) (gb : Reg) (s : State) : Host.Outcome State Fault Refusal :=
  issue c (.shl c gd ga gb) (bodyShl c gd ga gb) s

/-- SHR (04 Table 4.5). -/
def bodyShr (c : CoreId) (gd : Reg) (ga : Reg) (gb : Reg) : CM Flow := thenNext (rawBin c gd ga gb (fun a b => a >>> (b.toNat % 64)))

def execShr (c : CoreId) (gd : Reg) (ga : Reg) (gb : Reg) (s : State) : Host.Outcome State Fault Refusal :=
  issue c (.shr c gd ga gb) (bodyShr c gd ga gb) s

/-- SAR (04 Table 4.5). -/
def bodySar (c : CoreId) (gd : Reg) (ga : Reg) (gb : Reg) : CM Flow := thenNext (rawBin c gd ga gb (fun a b => a.sshiftRight (b.toNat % 64)))

def execSar (c : CoreId) (gd : Reg) (ga : Reg) (gb : Reg) (s : State) : Host.Outcome State Fault Refusal :=
  issue c (.sar c gd ga gb) (bodySar c gd ga gb) s

/-- ROL (04 Table 4.5). -/
def bodyRol (c : CoreId) (gd : Reg) (ga : Reg) (gb : Reg) : CM Flow := thenNext (rawBin c gd ga gb rotl)

def execRol (c : CoreId) (gd : Reg) (ga : Reg) (gb : Reg) (s : State) : Host.Outcome State Fault Refusal :=
  issue c (.rol c gd ga gb) (bodyRol c gd ga gb) s

/-- CMPS (04 Table 4.5). -/
def bodyCmps (c : CoreId) (gd : Reg) (ga : Reg) (gb : Reg) : CM Flow := thenNext (rawBin c gd ga gb (fun a b => BitVec.ofInt 64 (signOf (a.toInt - b.toInt))))

def execCmps (c : CoreId) (gd : Reg) (ga : Reg) (gb : Reg) (s : State) : Host.Outcome State Fault Refusal :=
  issue c (.cmps c gd ga gb) (bodyCmps c gd ga gb) s

/-- CMPU (04 Table 4.5). -/
def bodyCmpu (c : CoreId) (gd : Reg) (ga : Reg) (gb : Reg) : CM Flow := thenNext (rawBin c gd ga gb (fun a b => BitVec.ofInt 64 (signOf (Int.ofNat a.toNat - Int.ofNat b.toNat))))

def execCmpu (c : CoreId) (gd : Reg) (ga : Reg) (gb : Reg) (s : State) : Host.Outcome State Fault Refusal :=
  issue c (.cmpu c gd ga gb) (bodyCmpu c gd ga gb) s

/-- MUL: the low half of the product (04 Table 4.5). -/
def bodyMul (c : CoreId) (gd : Reg) (ga : Reg) (gb : Reg) : CM Flow := thenNext (rawLong c gd ga gb (fun a b => a * b))

def execMul (c : CoreId) (gd : Reg) (ga : Reg) (gb : Reg) (s : State) : Host.Outcome State Fault Refusal :=
  issue c (.mul c gd ga gb) (bodyMul c gd ga gb) s

/-- MULH (04 Table 4.5). -/
def bodyMulh (c : CoreId) (gd : Reg) (ga : Reg) (gb : Reg) : CM Flow := thenNext (rawLong c gd ga gb mulHigh)

def execMulh (c : CoreId) (gd : Reg) (ga : Reg) (gb : Reg) (s : State) : Host.Outcome State Fault Refusal :=
  issue c (.mulh c gd ga gb) (bodyMulh c gd ga gb) s

/-- DIV (R94). -/
def bodyDiv (c : CoreId) (gd : Reg) (ga : Reg) (gb : Reg) : CM Flow := thenNext (rawDiv c gd ga gb quotS fun _ _ => 0)

def execDiv (c : CoreId) (gd : Reg) (ga : Reg) (gb : Reg) (s : State) : Host.Outcome State Fault Refusal :=
  issue c (.div c gd ga gb) (bodyDiv c gd ga gb) s

/-- DIVU (R94). -/
def bodyDivu (c : CoreId) (gd : Reg) (ga : Reg) (gb : Reg) : CM Flow := thenNext (rawDiv c gd ga gb quotU fun _ _ => 0)

def execDivu (c : CoreId) (gd : Reg) (ga : Reg) (gb : Reg) (s : State) : Host.Outcome State Fault Refusal :=
  issue c (.divu c gd ga gb) (bodyDivu c gd ga gb) s

/-- REM (R94). -/
def bodyRem (c : CoreId) (gd : Reg) (ga : Reg) (gb : Reg) : CM Flow := thenNext (rawDiv c gd ga gb remS fun a _ => a)

def execRem (c : CoreId) (gd : Reg) (ga : Reg) (gb : Reg) (s : State) : Host.Outcome State Fault Refusal :=
  issue c (.rem c gd ga gb) (bodyRem c gd ga gb) s

/-- REMU (R94). -/
def bodyRemu (c : CoreId) (gd : Reg) (ga : Reg) (gb : Reg) : CM Flow := thenNext (rawDiv c gd ga gb remU fun a _ => a)

def execRemu (c : CoreId) (gd : Reg) (ga : Reg) (gb : Reg) (s : State) : Host.Outcome State Fault Refusal :=
  issue c (.remu c gd ga gb) (bodyRemu c gd ga gb) s

/-- ADDI: the one immediate form that raises the overflow exception (R94). -/
def bodyAddi (c : CoreId) (gd : Reg) (imm : BitVec 16) : CM Flow := thenNext do
  let a ← rawOp c gd 0
  let r := a.toInt + imm.toInt
  if stOVE (← cget c) && signedOverflow r then raise c 0x0E 0 0 0
  setReg c gd (fixI r)

def execAddi (c : CoreId) (gd : Reg) (imm : BitVec 16) (s : State) : Host.Outcome State Fault Refusal :=
  issue c (.addi c gd imm) (bodyAddi c gd imm) s

/-- ANDI (04 Table 4.5). -/
def bodyAndi (c : CoreId) (gd : Reg) (imm : BitVec 16) : CM Flow := thenNext (rawImm c gd fun a => a &&& imm.setWidth 64)

def execAndi (c : CoreId) (gd : Reg) (imm : BitVec 16) (s : State) : Host.Outcome State Fault Refusal :=
  issue c (.andi c gd imm) (bodyAndi c gd imm) s

/-- ORI (04 Table 4.5). -/
def bodyOri (c : CoreId) (gd : Reg) (imm : BitVec 16) : CM Flow := thenNext (rawImm c gd fun a => a ||| imm.setWidth 64)

def execOri (c : CoreId) (gd : Reg) (imm : BitVec 16) (s : State) : Host.Outcome State Fault Refusal :=
  issue c (.ori c gd imm) (bodyOri c gd imm) s

/-- XORI (04 Table 4.5). -/
def bodyXori (c : CoreId) (gd : Reg) (imm : BitVec 16) : CM Flow := thenNext (rawImm c gd fun a => a ^^^ imm.setWidth 64)

def execXori (c : CoreId) (gd : Reg) (imm : BitVec 16) (s : State) : Host.Outcome State Fault Refusal :=
  issue c (.xori c gd imm) (bodyXori c gd imm) s

/-- SHLI (04 Table 4.5). -/
def bodyShli (c : CoreId) (gd : Reg) (imm : BitVec 16) : CM Flow := thenNext (rawImm c gd fun a => a <<< (imm.toNat % 64))

def execShli (c : CoreId) (gd : Reg) (imm : BitVec 16) (s : State) : Host.Outcome State Fault Refusal :=
  issue c (.shli c gd imm) (bodyShli c gd imm) s

/-- SHRI (04 Table 4.5). -/
def bodyShri (c : CoreId) (gd : Reg) (imm : BitVec 16) : CM Flow := thenNext (rawImm c gd fun a => a >>> (imm.toNat % 64))

def execShri (c : CoreId) (gd : Reg) (imm : BitVec 16) (s : State) : Host.Outcome State Fault Refusal :=
  issue c (.shri c gd imm) (bodyShri c gd imm) s

/-- SARI (04 Table 4.5). -/
def bodySari (c : CoreId) (gd : Reg) (imm : BitVec 16) : CM Flow := thenNext (rawImm c gd fun a => a.sshiftRight (imm.toNat % 64))

def execSari (c : CoreId) (gd : Reg) (imm : BitVec 16) (s : State) : Host.Outcome State Fault Refusal :=
  issue c (.sari c gd imm) (bodySari c gd imm) s

/-- MOVI: gd is not read (04 Table 4.5). -/
def bodyMovi (c : CoreId) (gd : Reg) (imm : BitVec 16) : CM Flow := thenNext (setReg c gd (fix (imm.signExtend 64)))

def execMovi (c : CoreId) (gd : Reg) (imm : BitVec 16) (s : State) : Host.Outcome State Fault Refusal :=
  issue c (.movi c gd imm) (bodyMovi c gd imm) s

/-- MOVHI: one 16-bit field of gd is replaced (04 Table 4.5); operand `h` 0 to 2 stands for IF 1 to 3. -/
def bodyMovhi (c : CoreId) (gd : Reg) (imm : BitVec 16) (h : Fin 3) : CM Flow := thenNext (rawImm c gd fun a => setFld a (16 * (h.val + 1)) 16 imm.toNat)

def execMovhi (c : CoreId) (gd : Reg) (imm : BitVec 16) (h : Fin 3) (s : State) : Host.Outcome State Fault Refusal :=
  issue c (.movhi c gd imm h) (bodyMovhi c gd imm h) s

end Sys2Proof.Machine
end

