-- ==== Sys2Proof/Machine/System.lean ====
section
/-! DEFINITION. The system group (04 Table 4.4): calls and breakpoints, return, fences and `ISYNC`, the control registers
(03), the bank window, TLB invalidation (11 R304, R305), `HALT` and `DRET`. -/

namespace Sys2Proof.Machine

/-! ## MFC and MTC -/

/-- `MTC` by its own rules (R66 to R71), for the rows that share its operation. -/
def mtcOp (c : CoreId) (i : Instr) (n : Nat) (ga : Reg) : CM Flow := do
  let k ← cget c
  if !isSys k && n != 0x000 then sysOnly c i
  let w ← reg c ga
  if !ctlTagged n then consume c w 0
  if n = 0x000 then return { status := some (statusWrite k w.payload) }
  cmod c fun k => ctlWrite k n w
  return { count := if n = 0x060 ∨ n = 0x061 then 0 else 1 }

/-- MFC (R66, R67, R75). -/
def bodyMfc (c : CoreId) (gd : Reg) (n : BitVec 12) : CM Flow := thenNext do
  let k ← cget c
  if !isSys k && !userReadable.contains n.toNat then sysOnly c (.mfc c gd n)
  setReg c gd (ctlRead (← sget) c n.toNat)

def execMfc (c : CoreId) (gd : Reg) (n : BitVec 12) (s : State) : Host.Outcome State Fault Refusal :=
  issue c (.mfc c gd n) (bodyMfc c gd n) s

/-- MTC (R66 to R71). -/
def bodyMtc (c : CoreId) (n : BitVec 12) (ga : Reg) : CM Flow := mtcOp c (.mtc c n ga) n.toNat ga

def execMtc (c : CoreId) (n : BitVec 12) (ga : Reg) (s : State) : Host.Outcome State Fault Refusal :=
  issue c (.mtc c n ga) (bodyMtc c n ga) s

/-- Whether bit `j` is written by the source of an `MTC`: the rows WDSET to SWCLR name such writes (log 6). -/
def writesBit (s : State) (c : CoreId) (ga : Reg) (j : Nat) : Bool := bit (gread (getCore s c) ga).payload j

/-- WDSET: an `MTC` to `BANKWIN` with bit 5 set (R78). -/
def bodyWdset (c : CoreId) (ga : Reg) : CM Flow := mtcOp c (.wdset c ga) 0x010 ga

def execWdset (c : CoreId) (ga : Reg) (s : State) : Host.Outcome State Fault Refusal :=
  if writesBit s c ga 5 then issue c (.wdset c ga) (bodyWdset c ga) s else .next s

/-- WDCLR: an `MTC` to `BANKWIN` with bit 6 set (R78). -/
def bodyWdclr (c : CoreId) (ga : Reg) : CM Flow := mtcOp c (.wdclr c ga) 0x010 ga

def execWdclr (c : CoreId) (ga : Reg) (s : State) : Host.Outcome State Fault Refusal :=
  if writesBit s c ga 6 then issue c (.wdclr c ga) (bodyWdclr c ga) s else .next s

/-- IROUTE_WR: an `MTC` to `IROUTE` with `WR` set (09 R248). -/
def bodyIrouteWr (c : CoreId) (ga : Reg) : CM Flow := mtcOp c (.irouteWr c ga) 0x012 ga

def execIrouteWr (c : CoreId) (ga : Reg) (s : State) : Host.Outcome State Fault Refusal :=
  if writesBit s c ga 15 then issue c (.irouteWr c ga) (bodyIrouteWr c ga) s else .next s

/-- SWI: an `MTC` to `IPEND` that sets software interrupts (09 R247, Table 9.9). -/
def bodySwi (c : CoreId) (ga : Reg) : CM Flow := mtcOp c (.swi c ga) 0x011 ga

def execSwi (c : CoreId) (ga : Reg) (s : State) : Host.Outcome State Fault Refusal :=
  if writesBit s c ga 16 || writesBit s c ga 17 || writesBit s c ga 18 then issue c (.swi c ga) (bodySwi c ga) s
  else .next s

/-- SWCLR: an `MTC` to `IPEND` that clears software interrupts (09 R247, Table 9.9). -/
def bodySwclr (c : CoreId) (ga : Reg) : CM Flow := mtcOp c (.swclr c ga) 0x011 ga

def execSwclr (c : CoreId) (ga : Reg) (s : State) : Host.Outcome State Fault Refusal :=
  if writesBit s c ga 20 || writesBit s c ga 21 || writesBit s c ga 22 then issue c (.swclr c ga) (bodySwclr c ga) s
  else .next s

/-- MFB (03 R77). -/
def bodyMfb (c : CoreId) (gd r : Reg) : CM Flow := thenNext do
  sysOnly c (.mfb c gd r)
  let k ← cget c
  setReg c gd (regOf k (Fin.ofNat 8 k.bw.bank.toNat) r)

def execMfb (c : CoreId) (gd r : Reg) (s : State) : Host.Outcome State Fault Refusal :=
  issue c (.mfb c gd r) (bodyMfb c gd r) s

/-- MTB (03 R77). -/
def bodyMtb (c : CoreId) (r ga : Reg) : CM Flow := thenNext do
  sysOnly c (.mtb c r ga)
  let w ← reg c ga
  cmod c fun k => setRegOf k (Fin.ofNat 8 k.bw.bank.toNat) r w

def execMtb (c : CoreId) (r ga : Reg) (s : State) : Host.Outcome State Fault Refusal :=
  issue c (.mtb c r ga) (bodyMtb c r ga) s

/-! ## Calls, breakpoints and return -/

/-- SYSCALL (09 R260): `EPC` is the next instruction. -/
def bodySyscall (c : CoreId) (n : BitVec 5) : CM Flow := do
  let k ← cget c
  fun s => .error (.exc { vec := 0x20 + n.setWidth 8, sub := 0, epc := va48 (k.pc + 4), eaddr := 0,
                          einfo := va48 k.pc, impr := false, inrep := false }) s

def execSyscall (c : CoreId) (n : BitVec 5) (s : State) : Host.Outcome State Fault Refusal :=
  issue c (.syscall c n) (bodySyscall c n) s

/-- BRK (09 R260). -/
def bodyBrk (c : CoreId) (n : BitVec 12) : CM Flow := raise c 0x17 0 0 (n.setWidth 64)

def execBrk (c : CoreId) (n : BitVec 12) (s : State) : Host.Outcome State Fault Refusal :=
  issue c (.brk c n) (bodyBrk c n) s

/-- RETX (09 R250, R251); never stepped (09 R259). -/
def bodyRetx (c : CoreId) : CM Flow := do
  sysOnly c (.retx c)
  retxBody c
  return { next := some (va48 (← cget c).pc), stepped := false }

def execRetx (c : CoreId) (s : State) : Host.Outcome State Fault Refusal := issue c (.retx c) (bodyRetx c) s

/-- DRET (05 R135): it and the dispatching instruction retire (03 R70). -/
def bodyDret (c : CoreId) (ga : Reg) : CM Flow := do
  let k ← cget c
  let b := bankOf k (ipl k)
  if !b.dbusy then raise c 0x12 0x02 0 0
  enterRom c 0x00A0 0 id
  let w ← reg c ga
  setReg c (Fin.ofNat 32 (fld b.dspOp 0 5)) w
  cmod c fun k => modBank k (ipl k) fun x => { x with dbusy := false }
  return { next := some (va48 b.dretPc), count := 2 }

def execDret (c : CoreId) (ga : Reg) (s : State) : Host.Outcome State Fault Refusal :=
  issue c (.dret c ga) (bodyDret c ga) s

/-- HALT (04 R111). -/
def bodyHalt (c : CoreId) : CM Flow := thenNext do
  sysOnly c (.halt c)
  cmod c fun k => { k with run := .halted }

def execHalt (c : CoreId) (s : State) : Host.Outcome State Fault Refusal := issue c (.halt c) (bodyHalt c) s

/-! ## Fences (04 R104 to R107) and ISYNC (R117) -/

/-- FENCE_L: loads complete in order already (10 R273). -/
def bodyFenceL (_c : CoreId) : CM Flow := return {}

def execFenceL (c : CoreId) (s : State) : Host.Outcome State Fault Refusal := issue c (.fenceL c) (bodyFenceL c) s

/-- FENCE_S (R107). -/
def bodyFenceS (c : CoreId) : CM Flow := thenNext (fenceWait c)

def execFenceS (c : CoreId) (s : State) : Host.Outcome State Fault Refusal := issue c (.fenceS c) (bodyFenceS c) s

/-- FENCE_A (R107): as `FENCE.S`, loads being in order. -/
def bodyFenceA (c : CoreId) : CM Flow := thenNext do
  fenceWait c
  pure ()

def execFenceA (c : CoreId) (s : State) : Host.Outcome State Fault Refusal := issue c (.fenceA c) (bodyFenceA c) s

/-- ISYNC (R117, 03 R68). -/
def bodyIsync (c : CoreId) : CM Flow := thenNext do
  smod fun s => drainAll s c
  cmod c fun k => { k with
    ahead := none
    l1 := { k.l1 with icache := [], fbuf := [], miss := k.l1.miss.filter fun m => m.kind != .fetch }
    mmu := { k.mmu with fetchPtbase := k.mmu.ptbase, fetchSpace := k.mmu.space } }

def execIsync (c : CoreId) (s : State) : Host.Outcome State Fault Refusal := issue c (.isync c) (bodyIsync c) s

/-! ## TLB invalidation (04 R110, 11 R304, R305) -/

/-- The operand of an invalidation: consumed under selectors 0 and 1. -/
def invOperand (c : CoreId) (ga : Reg) (sel : BitVec 2) : CM W64 := do
  if sel.toNat < 2 then return (← regC c ga 0).payload else return 0

/-- INVTLB (R304). -/
def bodyInvtlb (c : CoreId) (ga : Reg) (sel : BitVec 2) : CM Flow := thenNext do
  sysOnly c (.invtlb c ga sel)
  let v ← invOperand c ga sel
  fenceWait c
  cmod c fun k => { k with tlb := tlbDrop k.tlb (invMatch sel k.compart (k.mmu.space.setWidth 12) v) }

def execInvtlb (c : CoreId) (ga : Reg) (sel : BitVec 2) (s : State) : Host.Outcome State Fault Refusal :=
  issue c (.invtlb c ga sel) (bodyInvtlb c ga sel) s

/-- The cores that an `INVTLB.B` must reach; one that is held or locked up acknowledges at once (R305). -/
def invTargets (s : State) (comp : BitVec 4) : List CoreId :=
  allCores.filter fun c => bit (getComp s (compId comp)).res.cores c.val &&
    (getCore s c).run != .held && (getCore s c).run != .locked

/-- INVTLB_B (R305): queued at the hub, then the wait for every target; `INVTLB_B_COMPLETE` ends it. -/
def bodyInvtlbB (c : CoreId) (ga : Reg) (sel : BitVec 2) : CM Flow := thenNext do
  sysOnly c (.invtlbB c ga sel)
  if (← cget c).replay.done then return
  let v ← invOperand c ga sel
  fenceWait c
  smod fun s =>
    let k := getCore s c
    let t := invTargets s k.compart
    let b : Broadcast := { core := c, sel := sel, va := v, sid := k.mmu.space.setWidth 12, toReach := t, toAck := t }
    { s with bcast := s.bcast ++ [(k.compart, b)] }
  waitFor .invtlb

def execInvtlbB (c : CoreId) (ga : Reg) (sel : BitVec 2) (s : State) : Host.Outcome State Fault Refusal :=
  issue c (.invtlbB c ga sel) (bodyInvtlbB c ga sel) s

/-- The broadcast that the hub serves for a compartment: the oldest (R305). -/
def servedBcast (s : State) (comp : BitVec 4) : Option Broadcast := (s.bcast.find? fun b => b.1 == comp).map (·.2)

/-- Change the broadcast that the hub serves for a compartment. -/
def modBcast (comp : BitVec 4) (f : Broadcast → Broadcast) : List (BitVec 4 × Broadcast) → List (BitVec 4 × Broadcast)
  | [] => []
  | b :: r => if b.1 = comp then (b.1, f b.2) :: r else b :: modBcast comp f r

/-- Take the served broadcast of a compartment off the hub's queue. -/
def dropBcast (comp : BitVec 4) : List (BitVec 4 × Broadcast) → List (BitVec 4 × Broadcast)
  | [] => []
  | b :: r => if b.1 = comp then r else b :: dropBcast comp r

/-- The translations of an access that waits are kept for it: it goes on with those that it has made (R305, R306). -/
def keepTlb (k : Core) : Core :=
  if k.wait.isSome then { k with replay := { k.replay with tlb := some (k.replay.tlb.getD k.tlb) } } else k

/-- INVTLB_B_ARRIVAL: a target applies the invalidation, its queued stores drain, and it acknowledges (R305). -/
def execInvtlbBArrival (c : CoreId) (s : State) : Host.Outcome State Fault Refusal :=
  let comp := (getCore s c).compart
  match servedBcast s comp with
  | some b =>
    if b.toReach.contains c then
      let s := modCore s c fun k => { keepTlb k with tlb := tlbDrop k.tlb (invMatch b.sel comp b.sid b.va) }
      let s := drainAll s c
      .next { s with bcast := modBcast comp (fun b => { b with
        toReach := b.toReach.filter (· != c), toAck := b.toAck.filter (· != c) }) s.bcast }
    else .next s
  | none => .next s

/-- The engines' TLBs lose the entries that an invalidation matches (R305). -/
def invEngines (s : State) (comp : BitVec 4) (b : Broadcast) : State :=
  allClusters.foldl (fun s k => modEng s k fun e =>
    { e with tlb := e.tlb.filter fun x => !invMatch b.sel comp b.sid b.va x.2 }) s

end Sys2Proof.Machine
end

