-- ==== Sys2Proof/Machine/Mem.lean ====
section
/-! DEFINITION. Loads and stores (04 R96 to R103, R108): tagged and raw accesses, `CASW` and `PREF`. -/

namespace Sys2Proof.Machine

/-! ## Addresses -/

/-- The address that a base register holds, checked and healed (02 R34 to R36, 06 R163). -/
def baseAddr (c : CoreId) (r : Reg) (pos : Nat) : CM W64 := do
  let w ← reg c r
  checkBase c w pos
  return (← healReg c r pos).payload

/-- The displacement of a tagged access: thirteen bits, times 8 (R98). -/
def tdisp (disp : BitVec 13) : W64 := disp.signExtend 64 * 8

/-! ## Tagged loads and stores (R97, R98) -/

/-- LDW (R96). -/
def bodyLdw (c : CoreId) (gd ga : Reg) (disp : BitVec 13) : CM Flow := thenNext do
  let ea ← alignedEa c ((← baseAddr c ga 0) + tdisp disp)
  let x ← xlateData c ea .load (!isSys (← cget c))
  setReg c gd (← loadThrough c ea x)

def execLdw (c : CoreId) (gd ga : Reg) (disp : BitVec 13) (rsv : BitVec 2) (s : State) :
    Host.Outcome State Fault Refusal :=
  issue c (.ldw c gd ga disp rsv) (bodyLdw c gd ga disp) s

/-- LDW_NB (R98): no barrier, and `POISON` comes back whole (02 R44). -/
def bodyLdwNb (c : CoreId) (gd ga : Reg) (disp : BitVec 13) (rsv : BitVec 2) : CM Flow := thenNext do
  sysOnly c (.ldwNb c gd ga disp rsv)
  let ea ← alignedEa c ((← baseAddr c ga 0) + tdisp disp)
  let x ← xlateData c ea .load (!isSys (← cget c))
  setReg c gd (← readWord c ea x)

def execLdwNb (c : CoreId) (gd ga : Reg) (disp : BitVec 13) (rsv : BitVec 2) (s : State) :
    Host.Outcome State Fault Refusal :=
  issue c (.ldwNb c gd ga disp rsv) (bodyLdwNb c gd ga disp rsv) s

/-- STW (R97). -/
def bodyStw (c : CoreId) (gd ga : Reg) (disp : BitVec 13) : CM Flow := thenNext do
  let ea ← alignedEa c ((← baseAddr c ga 0) + tdisp disp)
  storeWord c ea (← reg c gd) true

def execStw (c : CoreId) (gd ga : Reg) (disp : BitVec 13) (rsv : BitVec 2) (s : State) :
    Host.Outcome State Fault Refusal :=
  issue c (.stw c gd ga disp rsv) (bodyStw c gd ga disp) s

/-- STW_NB (R98). -/
def bodyStwNb (c : CoreId) (gd ga : Reg) (disp : BitVec 13) (rsv : BitVec 2) : CM Flow := thenNext do
  sysOnly c (.stwNb c gd ga disp rsv)
  let ea ← alignedEa c ((← baseAddr c ga 0) + tdisp disp)
  storeWord c ea (← reg c gd) false

def execStwNb (c : CoreId) (gd ga : Reg) (disp : BitVec 13) (rsv : BitVec 2) (s : State) :
    Host.Outcome State Fault Refusal :=
  issue c (.stwNb c gd ga disp rsv) (bodyStwNb c gd ga disp rsv) s

/-! ## Raw loads (R99) -/

/-- A raw load of `n` bytes (R99, R101). -/
def rawLoad (c : CoreId) (gd ga : Reg) (disp : BitVec 13) (n : Nat) (u : Bool) : CM Unit := do
  let v ← rawLoadAt c (va48 ((← baseAddr c ga 0) + disp.signExtend 64)) n
  setReg c gd (fix (if u then BitVec.ofNat 64 v else sext (8 * n) v))

/-- LD_B (R99). -/
def bodyLdB (c : CoreId) (gd ga : Reg) (u : Bool) (disp : BitVec 13) : CM Flow := thenNext (rawLoad c gd ga disp 1 u)

def execLdB (c : CoreId) (gd ga : Reg) (u : Bool) (disp : BitVec 13) (s : State) : Host.Outcome State Fault Refusal :=
  issue c (.ldB c gd ga u disp) (bodyLdB c gd ga u disp) s

/-- LD_H (R99). -/
def bodyLdH (c : CoreId) (gd ga : Reg) (u : Bool) (disp : BitVec 13) : CM Flow := thenNext (rawLoad c gd ga disp 2 u)

def execLdH (c : CoreId) (gd ga : Reg) (u : Bool) (disp : BitVec 13) (s : State) : Host.Outcome State Fault Refusal :=
  issue c (.ldH c gd ga u disp) (bodyLdH c gd ga u disp) s

/-- LD_W (R99). -/
def bodyLdW (c : CoreId) (gd ga : Reg) (u : Bool) (disp : BitVec 13) : CM Flow := thenNext (rawLoad c gd ga disp 4 u)

def execLdW (c : CoreId) (gd ga : Reg) (u : Bool) (disp : BitVec 13) (s : State) : Host.Outcome State Fault Refusal :=
  issue c (.ldW c gd ga u disp) (bodyLdW c gd ga u disp) s

/-- LD_D (R99). -/
def bodyLdD (c : CoreId) (gd ga : Reg) (u : Bool) (disp : BitVec 13) : CM Flow := thenNext (rawLoad c gd ga disp 8 u)

def execLdD (c : CoreId) (gd ga : Reg) (u : Bool) (disp : BitVec 13) (s : State) : Host.Outcome State Fault Refusal :=
  issue c (.ldD c gd ga u disp) (bodyLdD c gd ga u disp) s

/-! ## Raw stores (R100 to R102) -/

/-- A raw store of `n` bytes (R100, R101). -/
def rawStore (c : CoreId) (gd ga : Reg) (disp : BitVec 13) (n : Nat) : CM Unit := do
  let ea := va48 ((← baseAddr c ga 0) + disp.signExtend 64)
  let d ← regC c gd 2
  rawStoreAt c ea d.payload n

/-- ST_B (R100). -/
def bodyStB (c : CoreId) (gd ga : Reg) (disp : BitVec 13) : CM Flow := thenNext (rawStore c gd ga disp 1)

def execStB (c : CoreId) (gd ga : Reg) (disp : BitVec 13) (s : State) : Host.Outcome State Fault Refusal :=
  issue c (.stB c gd ga disp) (bodyStB c gd ga disp) s

/-- ST_H (R100). -/
def bodyStH (c : CoreId) (gd ga : Reg) (disp : BitVec 13) : CM Flow := thenNext (rawStore c gd ga disp 2)

def execStH (c : CoreId) (gd ga : Reg) (disp : BitVec 13) (s : State) : Host.Outcome State Fault Refusal :=
  issue c (.stH c gd ga disp) (bodyStH c gd ga disp) s

/-- ST_W (R100). -/
def bodyStW (c : CoreId) (gd ga : Reg) (disp : BitVec 13) : CM Flow := thenNext (rawStore c gd ga disp 4)

def execStW (c : CoreId) (gd ga : Reg) (disp : BitVec 13) (s : State) : Host.Outcome State Fault Refusal :=
  issue c (.stW c gd ga disp) (bodyStW c gd ga disp) s

/-- ST_D (R100). -/
def bodyStD (c : CoreId) (gd ga : Reg) (disp : BitVec 13) : CM Flow := thenNext (rawStore c gd ga disp 8)

def execStD (c : CoreId) (gd ga : Reg) (disp : BitVec 13) (s : State) : Host.Outcome State Fault Refusal :=
  issue c (.stD c gd ga disp) (bodyStD c gd ga disp) s

/-- SPLIT_STORE_BUS_ERROR (R102): the bus error strikes the second half of the oldest split store as it drains: the first
half is written, the second dropped, and the report is pending. -/
def execSplitStoreBusError (c : CoreId) (s : State) : Host.Outcome State Fault Refusal :=
  match (getCore s c).sq.findIdx? fun e => e.split.isSome with
  | none => .next s
  | some i =>
    let s := drainN i s c
    match (getCore s c).sq with
    | [] => .next s
    | e :: r =>
      let s := modCore s c fun k => { k with sq := r }
      let s := performWrites s c e.mt e.user (e.writes.take 1)
      .next (modCore s c fun k => splitReport k e.pc (e.split.getD 0))

/-! ## CASW (R103) -/

/-- CASW (R103): ordered as by a `FENCE.A` before and after itself. -/
def bodyCasw (c : CoreId) (gd ga gb : Reg) : CM Flow := thenNext do
  let _ ← regC c gd 5
  let e ← healReg c gd 5
  let ea ← alignedEa c (← baseAddr c ga 0)
  setReg c gd (boolW (← casAt c ea e (← reg c gb) true))

def execCasw (c : CoreId) (gd ga gb : Reg) (s : State) : Host.Outcome State Fault Refusal :=
  issue c (.casw c gd ga gb) (bodyCasw c gd ga gb) s

/-! ## PREF (R108, 12 R330) -/

/-- Whether a line stands at a hint's target level in the hint's state. -/
def prefHere (s : State) (c : CoreId) (line : Nat) (h : Nat) : Bool :=
  let near := (dIdx? (getCore s c).l1 line).isSome
  match l2Get? s (clusterOf c) line with
  | none => false
  | some x => if h = 0 then near else if h = 1 then true else if h = 2 then x.st != .s else near && x.stream

/-- PREF (R108). -/
def bodyPref (c : CoreId) (h : BitVec 5) (ga : Reg) (disp : BitVec 16) : CM Flow := thenNext do
  if h.toNat ≥ 4 then return
  let k ← cget c
  let w ← reg c ga
  let s ← sget
  match (checkBase c w 0).run s with
  | .error _ _ => pure ()
  | .ok _ _ =>
    let ea := va48 (w.payload + disp.signExtend 64)
    match (probeXlat c ea (!isSys k) s).1 with
    | none => pure ()
    | some x =>
      let line := lineOf x.pa
      if x.mt == .cached && !isRemote s x.pa && localOk s k.compart x.pa && (l2Of s (clusterOf c)).st == .on
          && !stDET k && decide (k.l1.miss.length < 8) && !prefHere s c line h.toNat then
        smod (addMiss c ⟨line, .pref (Fin.ofNat 4 h.toNat)⟩)

def execPref (c : CoreId) (h : BitVec 5) (ga : Reg) (disp : BitVec 16) (s : State) :
    Host.Outcome State Fault Refusal :=
  issue c (.pref c h ga disp) (bodyPref c h ga disp) s

end Sys2Proof.Machine
end

