-- ==== Sys2Proof/Machine/List.lean ====
section
/-! DEFINITION. List operations (05 R140 to R145): `CAR`, `CDR`, `RPLACA`, `RPLACD`, `CONS` and `LWALK`. -/

namespace Sys2Proof.Machine

/-! ## Dereference (R140) -/

/-- Steps 1 to 4 of R140 for an operand that must satisfy a type test, then its healing (06 R163): the address. -/
def derefReg (c : CoreId) (r : Reg) (sub : Byte) (ok : Byte → Bool) : CM W64 := do
  let w ← regC c r 0
  if isFar w.tag then raise c 0x15 0 0 w.payload
  if !ok w.tag then tagFault c sub w.tag 0
  if !wellFormed w then tagFault c 0x03 w.tag 0
  return (← healReg c r 0).payload

def isCons (t : Byte) : Bool := isPtr t && ptype t == 0

/-- `CAR` and `CDR` (R141): the word at offset `o` of the pair. -/
def carOp (c : CoreId) (gd ga : Reg) (o : W64) : CM Unit := do
  let k ← cget c
  if stNILCAR k && (← reg c ga) == nilW then setReg c gd nilW
  else do
    let ea := va48 ((← derefReg c ga 0x10 isCons) + o)
    let x ← xlateData c ea .load (!isSys k)
    setReg c gd (← loadThrough c ea x)

/-- CAR (R141). -/
def bodyCar (c : CoreId) (gd ga : Reg) : CM Flow := thenNext (carOp c gd ga 0)

def execCar (c : CoreId) (gd ga : Reg) (s : State) : Host.Outcome State Fault Refusal :=
  issue c (.car c gd ga) (bodyCar c gd ga) s

/-- CDR (R141). -/
def bodyCdr (c : CoreId) (gd ga : Reg) : CM Flow := thenNext (carOp c gd ga 8)

def execCdr (c : CoreId) (gd ga : Reg) (s : State) : Host.Outcome State Fault Refusal :=
  issue c (.cdr c gd ga) (bodyCdr c gd ga) s

/-- `RPLACA` and `RPLACD` (R142). -/
def rplacOp (c : CoreId) (ga gb : Reg) (o : W64) : CM Unit := do
  let a ← derefReg c ga 0x10 isCons
  storeWord c (va48 (a + o)) (← reg c gb) true

/-- RPLACA (R142). -/
def bodyRplaca (c : CoreId) (ga gb : Reg) : CM Flow := thenNext (rplacOp c ga gb 0)

def execRplaca (c : CoreId) (ga gb : Reg) (s : State) : Host.Outcome State Fault Refusal :=
  issue c (.rplaca c ga gb) (bodyRplaca c ga gb) s

/-- RPLACD (R142). -/
def bodyRplacd (c : CoreId) (ga gb : Reg) : CM Flow := thenNext (rplacOp c ga gb 8)

def execRplacd (c : CoreId) (ga gb : Reg) (s : State) : Host.Outcome State Fault Refusal :=
  issue c (.rplacd c ga gb) (bodyRplacd c ga gb) s

/-! ## Allocation (R143, R144) -/

/-- Take `n` bytes of the allocation buffer and write its first words (R144): the address. No store barrier. -/
def allocate (c : CoreId) (sub : Byte) (n : Nat) (ws : List Word) : CM W64 := do
  let k ← cget c
  let p := k.heap.allocPtr
  if p.toNat + n > k.heap.allocLim.toNat then
    enterRom c 0x0600 0 id
    raise c 0x0F sub p (BitVec.ofNat 64 n)
  let rec plan : Nat → List Word → CM (List Store)
    | _, [] => pure []
    | i, w :: r => do
      let a := va48 (p + BitVec.ofNat 64 (8 * i))
      let x ← xlateData c a .store (!isSys k)
      cardCheck c a x
      return taggedStore a x w :: (← plan (i + 1) r)
  commitStores c k.pc true [] (← plan 0 ws)
  cmod c fun k => { k with heap := { k.heap with allocPtr := p + BitVec.ofNat 64 n } }
  return p

/-- CONS (R143). -/
def bodyCons (c : CoreId) (gd ga gb : Reg) : CM Flow := thenNext do
  let p ← allocate c 0x01 16 [← reg c ga, ← reg c gb]
  setReg c gd ⟨ptrTag (← cget c).heap.goodcol 0, p⟩

def execCons (c : CoreId) (gd ga gb : Reg) (s : State) : Host.Outcome State Fault Refusal :=
  issue c (.cons c gd ga gb) (bodyCons c gd ga gb) s

/-! ## LWALK (R145) -/

/-- The outcome of one iteration of a `REP` loop: it ends, or the next iteration follows. -/
inductive Iter where
  | stop
  | again
deriving DecidableEq, Repr

/-- One cell of `LWALK`: the list position is checked and healed, then the key (02 R53). `left` cells are still to be
examined, this one among them, and `gc` holds their count. -/
def lwalkCell (c : CoreId) (gc : Option Reg) (left : Int) (gd ga gb : Reg) : CM Iter := do
  enterRom c 0x0200 0 id
  let k ← cget c
  let w ← regC c ga 0
  if same w nilW then
    setReg c gd nilW
    return .stop
  if isFar w.tag then raise c 0x15 0 0 w.payload
  if !isCons w.tag then tagFault c 0x16 w.tag 0
  if !wellFormed w then tagFault c 0x03 w.tag 0
  let w ← healReg c ga 0
  let _ ← regC c gb 1
  let key ← healReg c gb 1
  let a := va48 w.payload
  let user := !isSys k
  let x ← xlateData c a .load user
  let car ← loadWithin c a x
  if same car key then
    setReg c gd w
    return .stop
  let d := va48 (a + 8)
  let y ← xlateData c d .load user
  let cdr ← loadWithin c d y
  setReg c ga cdr
  match gc with
  | some r => setReg c r ⟨(← reg c r).tag, BitVec.ofInt 64 (left - 1)⟩
  | none => pure ()
  cmod c endIteration
  if left ≤ 1 then
    setReg c gd unboundW
    return .stop
  return .again

/-- A boundary between the iterations of a pair (04 R113, 09 R261): an event that is due is taken there. -/
def betweenIterations (c : CoreId) : CM Unit := fun s =>
  match boundaryEvent c true s with
  | some t => .error .ended t
  | none => .ok () s

/-- The iterations of `LWALK`, at most `n` of them. -/
def lwalkLoop (c : CoreId) (gc : Option Reg) (gd ga gb : Reg) : Nat → CM Unit
  | 0 => pure ()
  | n + 1 => do
    match ← lwalkCell c gc (n + 1 : Nat) gd ga gb with
    | .stop => pure ()
    | .again => do
      betweenIterations c
      lwalkLoop c gc gd ga gb n

/-- LWALK (R145, 04 R112, R113): with the prefix gc counts the cells, without it one cell is examined. -/
def bodyLwalk (c : CoreId) (rep : Option Reg) (gd ga gb : Reg) : CM Flow := thenNext do
  match rep with
  | none => lwalkLoop c none gd ga gb 1
  | some r => inRep do
    let n := (← regC c r 6).payload.toInt
    if n ≤ 0 then return
    lwalkLoop c rep gd ga gb n.toNat

def execLwalk (c : CoreId) (rep : Option Reg) (gd ga gb : Reg) (s : State) : Host.Outcome State Fault Refusal :=
  issue c (.lwalk c rep gd ga gb) (bodyLwalk c rep gd ga gb) s

end Sys2Proof.Machine
end

