-- ==== Sys2Proof/Machine/Object.lean ====
section
/-! DEFINITION. Headed objects (05 R146 to R149): `ALLOC`, `HDR`, `VLEN`, `VREF` and `VSET`. -/

namespace Sys2Proof.Machine

/-- ALLOC (R146, R144): the header only is written. -/
def bodyAlloc (c : CoreId) (gd ga : Reg) (p : BitVec 5) : CM Flow := thenNext do
  let w ← regC c ga 0
  if w.tag ≠ 0x04 ∧ (w.tag ≠ 0x00 ∨ 2 ^ 32 ≤ w.payload.toNat) then tagFault c 0x15 w.tag 0
  let len := if w.tag = 0x04 then hdrLen w else w.payload.toNat
  let n := (8 * (len + 1) + 15) / 16 * 16
  let q ← allocate c 0x02 n [⟨0x04, w.payload⟩]
  setReg c gd ⟨ptrTag (← cget c).heap.goodcol p.toNat, q⟩

def execAlloc (c : CoreId) (gd ga : Reg) (p : BitVec 5) (s : State) : Host.Outcome State Fault Refusal :=
  issue c (.alloc c gd ga p) (bodyAlloc c gd ga p) s

/-- The header word of an object at an address (R147, 13 R337): nothing but a `HEADER`. -/
def readHeader (c : CoreId) (a : W64) : CM Word := do
  let x ← xlateData c a .load (!isSys (← cget c))
  let h ← readWord c (va48 a) x
  poisonCheck c h a
  if h.tag ≠ 0x04 then tagFaultAt c 0x13 h.tag 3 (va48 a)
  return h

/-- HDR (R147). -/
def bodyHdr (c : CoreId) (gd ga : Reg) : CM Flow := thenNext do
  let a ← derefReg c ga 0x13 isHeaded
  setReg c gd (← readHeader c a)

def execHdr (c : CoreId) (gd ga : Reg) (s : State) : Host.Outcome State Fault Refusal :=
  issue c (.hdr c gd ga) (bodyHdr c gd ga) s

/-- VLEN (R147). -/
def bodyVlen (c : CoreId) (gd ga : Reg) : CM Flow := thenNext do
  let a ← derefReg c ga 0x13 isHeaded
  let h ← readHeader c a
  setReg c gd (fix (BitVec.ofNat 64 (hdrLen h)))

def execVlen (c : CoreId) (gd ga : Reg) (s : State) : Host.Outcome State Fault Refusal :=
  issue c (.vlen c gd ga) (bodyVlen c gd ga) s

/-- The element address of `VREF` and `VSET` (R148): object, index, header, bounds. -/
def elementAddr (c : CoreId) (ga gb : Reg) : CM W64 := do
  let o ← derefReg c ga 0x13 isHeaded
  let i ← regC c gb 1
  if i.tag ≠ 0x00 then tagFault c 0x14 i.tag 1
  let h ← readHeader c o
  let n := i.payload.toNat
  if hdrLen h ≤ n then boundsFault c 0x01 o (hdrLen h) n
  return va48 (o + BitVec.ofNat 64 (8 * (n + 1)))

/-- VREF (R148). -/
def bodyVref (c : CoreId) (gd ga gb : Reg) : CM Flow := thenNext do
  let a ← elementAddr c ga gb
  let x ← xlateData c a .load (!isSys (← cget c))
  setReg c gd (← loadThrough c a x)

def execVref (c : CoreId) (gd ga gb : Reg) (s : State) : Host.Outcome State Fault Refusal :=
  issue c (.vref c gd ga gb) (bodyVref c gd ga gb) s

/-- VSET (R148). -/
def bodyVset (c : CoreId) (gd ga gb : Reg) : CM Flow := thenNext do
  let a ← elementAddr c ga gb
  storeWord c a (← reg c gd) true

def execVset (c : CoreId) (gd ga gb : Reg) (s : State) : Host.Outcome State Fault Refusal :=
  issue c (.vset c gd ga gb) (bodyVset c gd ga gb) s

end Sys2Proof.Machine
end

