-- ==== Sys2Proof/Machine/Block.lean ====
section
/-! DEFINITION. Block instructions under the repeat prefix (04 R112 to R115, 09 R256, 13 R337): `MOVW`, `FILLW`, `SCANW`,
`CMPW` and `MOVB`. -/

namespace Sys2Proof.Machine

/-! ## Object registers (R113, 13 R337) -/

/-- Check, heal and bound the object in a register; a headed object's header is read at entry. -/
def blockObj (c : CoreId) (r : Reg) (pos : Nat) (byte : Bool) : CM BObj := do
  let a ← baseAddr c r pos
  let w ← reg c r
  let unit := if byte then 8 else 1
  if isHeaded w.tag then
    let h ← readHeader c a
    return { base := a, off := 8, bound := unit * hdrLen h }
  else if isCons w.tag then return { base := a, off := 0, bound := unit * 2 }
  else return { base := a, off := 0, bound := 2 ^ 64 - 1 }

/-- One stream of an iteration, translated: the elements of an iteration lie in one line. -/
def openStream (c : CoreId) (o : BObj) (x : Nat) (byte : Bool) (kind : AKind) : CM Xlat := do
  let a := elemAddr o x byte
  if !byte && fld a 0 3 != 0 then raise c 0x04 0 a 0
  xlateData c a kind (!isSys (← cget c))

def checkBound (c : CoreId) (o : BObj) (x : Nat) : CM Unit := do
  if o.bound ≤ x then boundsFault c 0x02 o.base o.bound x

/-! ## The check phase -/

/-- Read `k` words through the load barrier. -/
def loadWords (c : CoreId) (a : W64) (x : Xlat) : Nat → CM (List Word)
  | 0 => pure []
  | n + 1 => do
    let l ← loadWords c a x n
    let w ← loadWithin c (va48 (a + BitVec.ofNat 64 (8 * n))) (shiftXlat x n)
    return l ++ [w]

/-- A copy in ascending order: a source word that an earlier element of the iteration has written is that element's. -/
def ascending (src dst : BitVec 44) (ws : List Word) : List Word :=
  ws.zipIdx.foldl (fun (out : List Word) e =>
    let p := wordPa src + BitVec.ofNat 44 (8 * e.2)
    let i := (p.toNat - (wordPa dst).toNat) / 8
    out ++ [if (wordPa dst).toNat ≤ p.toNat ∧ i < e.2 then out.getD i e.1 else e.1]) []

/-- A block operation's check phase, for `k` elements from indices I and J. -/
abbrev CheckPhase := BObj → BObj → Nat → Nat → Nat → CM IterPlan

/-- `MOVW` (R114). -/
def checkMovw (c : CoreId) : CheckPhase := fun src dst i j k => do
  let x ← openStream c src i false .load
  let y ← openStream c dst j false .store
  checkBound c src i
  checkBound c dst j
  let ws ← loadWords c (elemAddr src i false) x k
  let (logs, data) ← planWords c (elemAddr dst j false) y 0 (ascending x.pa y.pa ws) []
  cardCheck c (elemAddr dst j false) y
  return { used := k, hit := false, logs := logs, data := data }

/-- `FILLW` (R114) with the word to store. -/
def checkFillw (c : CoreId) (w : Word) : CheckPhase := fun _ dst _ j k => do
  let y ← openStream c dst j false .store
  checkBound c dst j
  let (logs, data) ← planWords c (elemAddr dst j false) y 0 (List.replicate k w) []
  cardCheck c (elemAddr dst j false) y
  return { used := k, hit := false, logs := logs, data := data }

/-- `SCANW` (R114) for a key. -/
def checkScanw (c : CoreId) (key : Word) : CheckPhase := fun src _ i _ k => do
  let x ← openStream c src i false .load
  checkBound c src i
  let ws ← loadWords c (elemAddr src i false) x k
  match ws.findIdx? (same · key) with
  | some e => return { used := e, hit := true, logs := [], data := [] }
  | none => return { used := k, hit := false, logs := [], data := [] }

/-- `CMPW` (R114). -/
def checkCmpw (c : CoreId) : CheckPhase := fun src dst i j k => do
  let x ← openStream c src i false .load
  let y ← openStream c dst j false .load
  checkBound c src i
  checkBound c dst j
  let a ← loadWords c (elemAddr src i false) x k
  let b ← loadWords c (elemAddr dst j false) y k
  match (a.zip b).findIdx? (fun p => !same p.1 p.2) with
  | some e => return { used := e, hit := true, logs := [], data := [] }
  | none => return { used := k, hit := false, logs := [], data := [] }

/-- The word addresses that `k` bytes from an address touch. -/
def spanWords (a : W64) (k : Nat) : Nat := (fld a 0 3 + k + 7) / 8

/-- The source words of `MOVB`, each consumed as by a raw load. -/
def movbSource (c : CoreId) (a : W64) (x : Xlat) : Nat → CM (List W64)
  | 0 => pure []
  | n + 1 => do
    let l ← movbSource c a x n
    let ea := va48 ((a &&& ~~~(7 : W64)) + BitVec.ofNat 64 (8 * n))
    let w ← readWord c ea (shiftXlat { x with pa := wordPa x.pa } n)
    rawLoadCheck c w ea
    return l ++ [w.payload]

/-- The bytes that `MOVB` moves, in ascending order: `p` is the distance in bytes from the first byte of the source line
image to the first destination byte, where they overlap. -/
def movbBytes (src : List W64) (so : Nat) (gap : Option Nat) (k : Nat) : List Byte :=
  (List.range k).foldl (fun (out : List Byte) e =>
    let orig := byteOf (src.getD ((so + e) / 8) 0) ((so + e) % 8)
    out ++ [match gap with
      | some g => if g ≤ e ∧ 0 < g then out.getD (e - g) orig else orig
      | none => orig]) []

/-- The stores of `MOVB`, one to each destination word, with the checks of Table 2.9. DESIGN CHOICE (log 63): a tag fault names the word's
aligned address, wherever the bytes begin. -/
def movbStores (c : CoreId) (a : W64) (y : Xlat) (bs : List Byte) : Nat → CM (List Store)
  | 0 => pure []
  | n + 1 => do
    let l ← movbStores c a y bs n
    let o := fld a 0 3
    let ea := va48 ((a &&& ~~~(7 : W64)) + BitVec.ofNat 64 (8 * n))
    let z := shiftXlat { y with pa := wordPa y.pa } n
    let lanes := (List.range 8).map fun i => if o ≤ 8 * n + i then bs[8 * n + i - o]? else none
    let mask : Byte := BitVec.ofNat 8 (lanes.zipIdx.foldl (fun m e => if e.1.isSome then m + 2 ^ e.2 else m) 0)
    let v : W64 := BitVec.ofNat 64 (ofLe (lanes.map (·.getD 0)))
    let t ← targetWord c ea z
    rawTarget c ea t (mask == 0xFF)
    return l ++ [rawStoreOf ea z mask v]

/-- `MOVB` (R114). -/
def checkMovb (c : CoreId) : CheckPhase := fun src dst i j k => do
  let a := elemAddr src i true
  let b := elemAddr dst j true
  let x ← openStream c src i true .load
  let y ← openStream c dst j true .store
  checkBound c src i
  checkBound c dst j
  let ws ← movbSource c a x (spanWords a k)
  let gap := if x.pa.toNat ≤ y.pa.toNat ∧ y.pa.toNat < x.pa.toNat + k then some (y.pa.toNat - x.pa.toNat) else none
  let data ← movbStores c b y (movbBytes ws (fld a 0 3) gap k) (spanWords b k)
  cardCheck c b y
  return { used := k, hit := false, logs := [], data := data }

/-! ## The loop (R113, R115, 09 R256) -/

/-- One iteration of a block instruction; whether the pair goes on. -/
def blockIter (c : CoreId) (gc gb : Reg) (byte : Bool) (src dst : Option BObj) (check : CheckPhase) : CM Iter := do
  let n := (← reg c gc).payload.toInt.toNat
  let g := (← reg c gb).payload
  let i := fld g 0 32
  let j := fld g 32 32
  let room (o : Option BObj) (x : Nat) : Nat := match o with
    | some o => objRoom o x byte
    | none => n
  let k := min n (min (room src i) (room dst j))
  let nil : BObj := { base := 0, off := 0, bound := 0 }
  let p ← check (src.getD nil) (dst.getD nil) i j k
  let last := p.hit || decide (n ≤ p.used)
  match ← blockWrite c p with
  | none => blockAdvance c gc gb p.used
  | some r =>
    if last then blockAdvance c gc gb p.used
    cmod c fun k => { k with pend := { k.pend with reports := k.pend.reports ++ [r] } }
    if !last then betweenIterations c
  cmod c endIteration
  return if last then .stop else .again

/-- At most `n` iterations. -/
def blockLoop (c : CoreId) (gc gb : Reg) (byte : Bool) (src dst : Option BObj) (check : CheckPhase) : Nat → CM Unit
  | 0 => pure ()
  | n + 1 => do
    match ← blockIter c gc gb byte src dst check with
    | .stop => pure ()
    | .again => do
      betweenIterations c
      blockLoop c gc gb byte src dst check n

/-- The bound latch of an object (13 R337). -/
def boundLatch (o : Option BObj) : W64 :=
  match o with
  | some o => BitVec.ofNat 64 o.bound
  | none => 0xFFFFFFFFFFFFFFFF

/-- A pair: gc is consumed first, a count of zero or less ends it; then the operands in the order of their positions. A patched
routine is entered with the bounds read (13 R337). -/
def blockOp (c : CoreId) (rep : Option Reg) (gb : Reg) (byte : Bool) (rom : Nat) (srcOf dstOf : CM (Option BObj))
    (check : CM CheckPhase) : CM Unit :=
  match rep with
  | none => pure ()
  | some gc => inRep do
    if redirected (← cget c) rom 0 then
      let src ← srcOf
      let dst ← dstOf
      enterRom c rom 0 fun m => { m with bnds := boundLatch src, bndd := boundLatch dst }
    let n := (← regC c gc 6).payload.toInt
    if n ≤ 0 then return
    let src ← srcOf
    let _ ← regC c gb 1
    let dst ← dstOf
    let ch ← check
    blockLoop c gc gb byte src dst ch n.toNat

/-- MOVW (R114). -/
def bodyMovw (c : CoreId) (rep : Option Reg) (gd ga gb : Reg) : CM Flow := thenNext <|
  blockOp c rep gb false 0x0440 (some <$> blockObj c ga 0 false) (some <$> blockObj c gd 5 false) (pure (checkMovw c))

def execMovw (c : CoreId) (rep : Option Reg) (gd ga gb : Reg) (s : State) : Host.Outcome State Fault Refusal :=
  issue c (.movw c rep gd ga gb) (bodyMovw c rep gd ga gb) s

/-- FILLW (R114): ga is moved. -/
def bodyFillw (c : CoreId) (rep : Option Reg) (gd ga gb : Reg) : CM Flow := thenNext <|
  blockOp c rep gb false 0x0400 (pure none) (some <$> blockObj c gd 5 false) (checkFillw c <$> reg c ga)

def execFillw (c : CoreId) (rep : Option Reg) (gd ga gb : Reg) (s : State) : Host.Outcome State Fault Refusal :=
  issue c (.fillw c rep gd ga gb) (bodyFillw c rep gd ga gb) s

/-- SCANW (R114): the key is consumed and healed. -/
def bodyScanw (c : CoreId) (rep : Option Reg) (gd ga gb : Reg) : CM Flow := thenNext <|
  blockOp c rep gb false 0x04C0 (some <$> blockObj c ga 0 false) (pure none) do
    let _ ← regC c gd 5
    checkScanw c <$> healReg c gd 5

def execScanw (c : CoreId) (rep : Option Reg) (gd ga gb : Reg) (s : State) : Host.Outcome State Fault Refusal :=
  issue c (.scanw c rep gd ga gb) (bodyScanw c rep gd ga gb) s

/-- CMPW (R114). -/
def bodyCmpw (c : CoreId) (rep : Option Reg) (gd ga gb : Reg) : CM Flow := thenNext <|
  blockOp c rep gb false 0x0500 (some <$> blockObj c ga 0 false) (some <$> blockObj c gd 5 false) (pure (checkCmpw c))

def execCmpw (c : CoreId) (rep : Option Reg) (gd ga gb : Reg) (s : State) : Host.Outcome State Fault Refusal :=
  issue c (.cmpw c rep gd ga gb) (bodyCmpw c rep gd ga gb) s

/-- MOVB (R114). -/
def bodyMovb (c : CoreId) (rep : Option Reg) (gd ga gb : Reg) : CM Flow := thenNext <|
  blockOp c rep gb true 0x0480 (some <$> blockObj c ga 0 true) (some <$> blockObj c gd 5 true) (pure (checkMovb c))

def execMovb (c : CoreId) (rep : Option Reg) (gd ga gb : Reg) (s : State) : Host.Outcome State Fault Refusal :=
  issue c (.movb c rep gd ga gb) (bodyMovb c rep gd ga gb) s

end Sys2Proof.Machine
end

