-- ==== Sys2Proof/Machine/ErrorLog.lean ====
section
/-! DEFINITION. The persistent error log (18 R427, R430, R431): the flash log, the entries of the last second, and reading and
clearing it. -/

namespace Sys2Proof.Machine

/-- The entries that the flash log holds. -/
def flashEntries : Nat := 262144

/-- An entry goes to flash: a full log gives up its oldest severity 0 entry, else its oldest. -/
def flashPut (l : List LogEntry) (e : LogEntry) : List LogEntry :=
  if l.length < flashEntries then l ++ [e]
  else l.eraseIdx ((l.findIdx? fun x => x.sev == 0).getD 0) ++ [e]

/-- Every entry held in SRAM goes to flash. -/
def flushLog (s : State) : State :=
  { s with log := { s.log with flash := s.log.sram.foldl flashPut s.log.flash, sram := [] } }

/-- LOG_FLASH_WRITE (R431). -/
def execLogFlashWrite (s : State) : Host.Outcome State Fault Refusal := .next (flushLog s)

/-- The class of a source's corrected errors (18 Table 18.1) with its `UNIT`: subchannel, cluster or port. -/
def sourceClass (src : Nat) : Nat × Nat :=
  if src < 16 then (0x01, src) else if src < 32 then (0x03, src - 16) else (0x08, src - 32)

/-- CORRECTED_ERROR_SUMMARY (R427): at the end of a second, one entry for each source that had more than its share. -/
def execCorrectedErrorSummary (s : State) : Host.Outcome State Fault Refusal :=
  if s.now < s.log.second + 1000000000 then .next s
  else
  let t := s.log.excess.foldl (fun s e =>
    let c := sourceClass e.1
    logErr s c.1 0 0 c.2 0 (BitVec.ofNat 64 (e.2 % 2 ^ 32 * 2 ^ 32))) s
  .next { t with log := { t.log with perSec := [], excess := [], second := s.now } }

/-- Every entry held, in ascending `SEQ`. -/
def logEntries (s : State) : List LogEntry := s.log.flash ++ s.log.sram

/-- An entry as Table 18.3 lays it out. -/
def entryBytes (e : LogEntry) : List Byte :=
  leBytes 4 e.seq.toNat ++ [e.cls, e.sev, e.comp, e.unit] ++ leBytes 8 e.tick.toNat ++ leBytes 8 e.addr.toNat
    ++ leBytes 8 e.info.toNat

/-- The first `n` entries from a sequence number on. -/
def logFrom (s : State) (seq n : Nat) : List LogEntry := ((logEntries s).filter fun e => decide (seq ≤ e.seq.toNat)).take n

/-- Remove every entry up to a sequence number. -/
def clearLog (s : State) (seq : Nat) : State :=
  let keep := List.filter fun e : LogEntry => decide (seq < e.seq.toNat)
  { s with log := { s.log with sram := keep s.log.sram, flash := keep s.log.flash } }

end Sys2Proof.Machine
end

