-- ==== Sys2Proof/Machine/DeviceReset.lean ====
section
/-! DEFINITION. The device reset (19 R440, R441), the loss of power, and what the block does on an empty queue. -/

namespace Sys2Proof.Machine

/-- What the flash and the fuses keep of the Lockkeeper (15 R361, 13 R344). -/
def lkKept (l : Lk) (boot : BootStep) (now : Nat) : Lk :=
  { Lk.reset with
    boot := boot, bank := l.bank, selected := l.selected, lastFailed := l.lastFailed, fwBank := l.fwBank, fwWhole := l.fwWhole
    ucFlash := l.ucFlash, key1 := l.key1, key2 := l.key2, lastBeat := now, memCfg := l.memCfg }

/-- A device reset (R440): every unit but the regulator controller and the rails takes its Reset values, and start-up begins at
step 2. The log is in flash, the posted writes have left, the straps and the board's DRAM stand. -/
def deviceReset (s : State) : State :=
  let s := flushLog s
  { State.reset with
    clusters := Vector.ofFn fun k => { Cluster.reset with clk := { Cluster.reset.clk with vcore := (getCl s k).clk.vcore } }
    timers := s.timers.map fun t => { Timer.reset with pin := pinLevel false t }
    dram := { State.reset.dram with units := s.dram.units, ranks := s.dram.ranks, rate := s.dram.rate }
    log := { s.log with perSec := [], excess := [], second := s.now }
    lk := lkKept s.lk (if s.power.reg = .on then .rom else .off) s.now
    power := { s.power with overSamples := 0, curLatch := 0, hotLatch := 0, throttle := 0, temps := none }
    pins := { s.pins with ready := false, weirSyncOut := false, syncEnd := 0, smb := none }
    pcie := { Pcie.reset with posted := s.pcie.posted }
    devid := s.devid
    now := s.now
    free := s.free
    pending := s.pending }

/-- The rails are gone: what a device reset leaves, without the log entries that had not reached flash (18 R431). -/
def powerLost (s : State) (reg : RegState) : State :=
  let s := { s with log := { s.log with sram := [] }, power := { s.power with reg := reg, dramPwrEn := false, cap := 440000 } }
  let t := deviceReset s
  { t with
    clusters := Vector.replicate 16 Cluster.reset
    pins := { t.pins with dramPg := false, ir := .idcode } }

/-- The rails begin to come up (R436). -/
def startRamp (s : State) : State :=
  { s with power := { s.power with reg := .ramp, rails := 0, since := s.now } }

/-- What the block does on an empty queue (log 5): a device reset that `DEVICE_RESET` has asked for begins, rails that go down
are off 2 ms later, or one tick passes. -/
def idle (s : State) : State :=
  if s.lk.resetDue then deviceReset s
  else if s.power.reg = .down ∧ s.power.since + 2000000 ≤ s.now then
    let s := { s with power := { s.power with reg := .off, rails := 0 } }
    if s.pins.pwrgood then startRamp s else s
  else idleTick s

end Sys2Proof.Machine
end

