-- ==== Sys2Proof/Machine/Crypto.lean ====
section
/-! DEFINITION. The algorithms that a patch image is checked with (13 R343): SHA-384, ECDSA on P-384, and AES-256-GCM. The spec names
them; their tables are those of their standards (log 58). -/

namespace Sys2Proof.Machine

/-! ## Numbers -/

/-- `b` to the power `e` modulo `m`; `n` bounds the bits of `e`. -/
def powMod (m : Nat) : Nat → Nat → Nat → Nat
  | 0, _, _ => 1 % m
  | n + 1, b, e =>
    let h := powMod m n (b * b % m) (e / 2)
    if e % 2 = 1 then h * b % m else h

/-- The greatest number below 2^n whose `k`-th power is at most `v`. -/
def rootOf (k v : Nat) : Nat → Nat → Nat
  | 0, r => r
  | n + 1, r => rootOf k v n (if (r + 2 ^ n) ^ k ≤ v then r + 2 ^ n else r)

def isPrime (n : Nat) : Bool := 2 ≤ n && (List.range n).all fun d => d < 2 || n % d != 0

/-- The primes below 410: the first eighty. -/
def primes : List Nat := (List.range 410).filter isPrime

/-- The number that big-endian bytes spell. -/
def ofBe (l : List Byte) : Nat := ofLe l.reverse

def beBytes (n v : Nat) : List Byte := (leBytes n v).reverse

/-- A list cut into pieces of `n`. -/
def pieces {α : Type} (n : Nat) : Nat → List α → List (List α)
  | 0, _ => []
  | m + 1, l => if l.isEmpty then [] else l.take n :: pieces n m (l.drop n)

/-! ## SHA-384 -/

/-- The first 64 bits of the fractional parts of cube and square roots of primes. -/
def shaK : List W64 := primes.map fun p => BitVec.ofNat 64 (rootOf 3 (p * 2 ^ 192) 68 0)

def shaInit : List W64 := ((primes.drop 8).take 8).map fun p => BitVec.ofNat 64 (rootOf 2 (p * 2 ^ 128) 70 0)

def ror (w : W64) (n : Nat) : W64 := w.rotateRight n

/-- Extend the schedule of a block, newest word first. -/
def shaSchedule : Nat → List W64 → List W64
  | 0, w => w
  | n + 1, w =>
    let a := w.getD 14 0
    let b := w.getD 1 0
    let s0 := ror a 1 ^^^ ror a 8 ^^^ (a >>> 7)
    let s1 := ror b 19 ^^^ ror b 61 ^^^ (b >>> 6)
    shaSchedule n ((w.getD 15 0 + s0 + w.getD 6 0 + s1) :: w)

/-- The eight working words. -/
structure Sha where
  a : W64
  b : W64
  c : W64
  d : W64
  e : W64
  f : W64
  g : W64
  h : W64

def shaRound (x : Sha) (kw : W64 × W64) : Sha :=
  let t1 := x.h + (ror x.e 14 ^^^ ror x.e 18 ^^^ ror x.e 41) + ((x.e &&& x.f) ^^^ (~~~x.e &&& x.g)) + kw.1 + kw.2
  let t2 := (ror x.a 28 ^^^ ror x.a 34 ^^^ ror x.a 39) + ((x.a &&& x.b) ^^^ (x.a &&& x.c) ^^^ (x.b &&& x.c))
  { a := t1 + t2, b := x.a, c := x.b, d := x.c, e := x.d + t1, f := x.e, g := x.f, h := x.g }

def shaBlock (k : List W64) (h : List W64) (block : List Byte) : List W64 :=
  let w := (shaSchedule 64 ((pieces 8 16 block).map fun b => BitVec.ofNat 64 (ofBe b)).reverse).reverse
  let g (i : Nat) : W64 := h.getD i 0
  let y := (k.zip w).foldl shaRound { a := g 0, b := g 1, c := g 2, d := g 3, e := g 4, f := g 5, g := g 6, h := g 7 }
  [g 0 + y.a, g 1 + y.b, g 2 + y.c, g 3 + y.d, g 4 + y.e, g 5 + y.f, g 6 + y.g, g 7 + y.h]

/-- SHA-384 of bytes, as a number of 384 bits. -/
def sha384 (m : List Byte) : Nat :=
  let pad := List.replicate ((239 - m.length % 128) % 128) 0
  let l := m ++ [0x80] ++ pad ++ beBytes 16 (8 * m.length)
  let h := (pieces 128 (l.length / 128) l).foldl (shaBlock shaK) shaInit
  (h.take 6).foldl (fun n w => n * 2 ^ 64 + w.toNat) 0

/-! ## ECDSA on P-384 -/

def p384 : Nat := 0xfffffffffffffffffffffffffffffffffffffffffffffffffffffffffffffffeffffffff0000000000000000ffffffff
def p384B : Nat := 0xb3312fa7e23ee7e4988e056be3f82d19181d9c6efe8141120314088f5013875ac656398d8a2ed19d2a85c8edd3ec2aef
def p384N : Nat := 0xffffffffffffffffffffffffffffffffffffffffffffffffc7634d81f4372ddf581a0db248b0a77aecec196accc52973
def p384Gx : Nat := 0xaa87ca22be8b05378eb1c71ef320ad746e1d3b628ba79b9859f741e082542a385502f25dbf55296c3a545e3872760ab7
def p384Gy : Nat := 0x3617de4a96262c6f5d9e98bf9292dc29f8f41dbd289a147ce9da3113b5f0b8c00a60b1ce1d7e819d7a431d7c90ea0e5f

/-- A point of the curve in Jacobian coordinates; `z` = 0 is the point at infinity. -/
structure JPoint where
  x : Nat
  y : Nat
  z : Nat

def subP (a b : Nat) : Nat := (a + p384 - b % p384) % p384

def jDouble (u : JPoint) : JPoint :=
  let z2 := u.z * u.z % p384
  let m := 3 * (subP u.x z2 * ((u.x + z2) % p384)) % p384
  let y2 := u.y * u.y % p384
  let s := 4 * u.x * y2 % p384
  let x := subP (m * m) (2 * s)
  { x := x, y := subP (m * subP s x) (8 * y2 * y2), z := 2 * u.y * u.z % p384 }

def jAdd (u v : JPoint) : JPoint :=
  if u.z = 0 then v
  else if v.z = 0 then u
  else
    let z1 := u.z * u.z % p384
    let z2 := v.z * v.z % p384
    let a := u.x * z2 % p384
    let h := subP (v.x * z1) a
    let s := u.y * (z2 * v.z % p384) % p384
    let r := subP (v.y * (z1 * u.z % p384)) s
    if h = 0 then (if r = 0 then jDouble u else { x := 1, y := 1, z := 0 })
    else
      let h2 := h * h % p384
      let h3 := h * h2 % p384
      let x := subP (subP (r * r) h3) (2 * a * h2)
      { x := x, y := subP (r * subP (a * h2 % p384) x) (s * h3), z := h * u.z * v.z % p384 }

/-- A multiple of a point; `n` bounds the bits of the factor. -/
def jMul : Nat → Nat → JPoint → JPoint
  | 0, _, _ => { x := 1, y := 1, z := 0 }
  | n + 1, k, u =>
    let r := jMul n (k / 2) (jDouble u)
    if k % 2 = 1 then jAdd r u else r

/-- The affine x of a point that is not at infinity. -/
def affineX (u : JPoint) : Nat := u.x * powMod p384 384 (u.z * u.z % p384) (p384 - 2) % p384

/-- The point of a compressed public key of 49 bytes. -/
def publicKey (k : List Byte) : Option JPoint :=
  let x := ofBe (k.drop 1)
  let t := (k.headD 0).toNat
  let y2 := (x * x % p384 * x + subP p384B (3 * x)) % p384
  let y := powMod p384 384 y2 ((p384 + 1) / 4)
  if k.length ≠ 49 ∨ (t ≠ 2 ∧ t ≠ 3) ∨ p384 ≤ x ∨ y * y % p384 ≠ y2 then none
  else some { x := x, y := if y % 2 = t % 2 then y else p384 - y, z := 1 }

/-- Whether a signature, `r` followed by `s` of 48 big-endian bytes each, is one of a message under a public key. -/
def ecdsaOk (key msg sig : List Byte) : Bool :=
  let r := ofBe (sig.take 48)
  let s := ofBe (sig.drop 48)
  match publicKey key with
  | none => false
  | some q =>
    if r = 0 ∨ p384N ≤ r ∨ s = 0 ∨ p384N ≤ s ∨ sig.length ≠ 96 then false
    else
      let w := powMod p384N 384 s (p384N - 2)
      let v := jAdd (jMul 384 (sha384 msg * w % p384N) { x := p384Gx, y := p384Gy, z := 1 }) (jMul 384 (r * w % p384N) q)
      v.z != 0 && affineX v % p384N == r

/-! ## AES-256 -/

/-- The product of two bytes in the field of AES; `n` bounds the bits of the second. -/
def gmul : Nat → Nat → Nat → Nat
  | 0, _, _ => 0
  | n + 1, a, b =>
    let r := gmul n (if 128 ≤ a then (2 * a) ^^^ 0x11B else 2 * a) (b / 2)
    if b % 2 = 1 then a ^^^ r else r

/-- The S-box: the inverse in the field, then the affine map. -/
def sboxOf (a : Nat) : Nat :=
  let i := ((List.range 256).find? fun b => gmul 8 a b == 1).getD 0
  let rot (n : Nat) : Nat := (i * 2 ^ n % 256) ^^^ (i / 2 ^ (8 - n))
  i ^^^ rot 1 ^^^ rot 2 ^^^ rot 3 ^^^ rot 4 ^^^ 0x63

def sbox : List Nat := (List.range 256).map sboxOf

def xorList (a b : List Nat) : List Nat := List.zipWith (· ^^^ ·) a b

/-- The words of the key schedule, newest first. -/
def aesSchedule (box : List Nat) : Nat → Nat → Nat → List (List Nat) → List (List Nat)
  | 0, _, _, w => w
  | n + 1, i, rc, w =>
    let t := w.headD []
    let sub := t.map fun b => box.getD b 0
    let u := if i % 8 = 0 then xorList (sub.drop 1 ++ sub.take 1) [rc, 0, 0, 0] else if i % 8 = 4 then sub else t
    aesSchedule box n (i + 1) (if i % 8 = 0 then 2 * rc else rc) (xorList (w.getD 7 []) u :: w)

/-- The fifteen round keys. -/
def aesKeys (box : List Nat) (key : List Byte) : List (List Nat) :=
  let w0 := (pieces 4 8 (key.map (·.toNat))).reverse
  (pieces 4 15 (aesSchedule box 52 8 1 w0).reverse).map (·.flatten)

def mixColumn (c : List Nat) : List Nat :=
  (List.range 4).map fun i =>
    gmul 8 (c.getD i 0) 2 ^^^ gmul 8 (c.getD ((i + 1) % 4) 0) 3 ^^^ c.getD ((i + 2) % 4) 0 ^^^ c.getD ((i + 3) % 4) 0

/-- One round on a state of sixteen bytes, column by column; the last leaves the columns unmixed. -/
def aesRound (box : List Nat) (last : Bool) (x k : List Nat) : List Nat :=
  let y := (List.range 16).map fun i => box.getD (x.getD ((5 * i) % 16) 0) 0
  xorList (if last then y else ((pieces 4 4 y).map mixColumn).flatten) k

/-- The encryption of a block under the round keys. -/
def aesBlock (box : List Nat) (ks : List (List Nat)) (x : List Nat) : List Nat :=
  let s := ((ks.drop 1).take 13).foldl (aesRound box false) (xorList x (ks.headD []))
  aesRound box true s (ks.getD 14 [])

/-! ## GCM -/

/-- The product in the field of GHASH, bit 127 being the coefficient of 1. -/
def ghMul : Nat → Nat → Nat → Nat
  | 0, _, _ => 0
  | n + 1, x, v =>
    let r := ghMul n (2 * x % 2 ^ 128) (if v % 2 = 1 then (v / 2) ^^^ (0xE1 * 2 ^ 120) else v / 2)
    if 2 ^ 127 ≤ x then v ^^^ r else r

/-- Bytes filled with zero to whole blocks, as numbers. -/
def blocksOf (l : List Byte) : List Nat :=
  (pieces 16 (l.length / 16 + 1) l).map fun b => ofBe (b ++ List.replicate (16 - b.length) 0)

def ghash (h : Nat) (aad c : List Byte) : Nat :=
  (blocksOf aad ++ blocksOf c ++ [8 * aad.length * 2 ^ 64 + 8 * c.length]).foldl (fun y b => ghMul 128 (y ^^^ b) h) 0

/-- AES-256-GCM decryption under a 32-byte key and a 12-byte initialisation vector; none where the tag does not match. -/
def gcmOpen (key iv aad c tag : List Byte) : Option (List Byte) :=
  let box := sbox
  let ks := aesKeys box key
  let enc (n : Nat) : List Byte := (aesBlock box ks ((iv ++ beBytes 4 n).map (·.toNat))).map (BitVec.ofNat 8)
  let h := ofBe ((aesBlock box ks (List.replicate 16 0)).map (BitVec.ofNat 8))
  if ofBe tag ≠ ghash h aad c ^^^ ofBe (enc 1) then none
  else some ((pieces 16 (c.length / 16 + 1) c).zipIdx.flatMap fun b => List.zipWith (· ^^^ ·) b.1 (enc (b.2 + 2)))

end Sys2Proof.Machine
end

