-- ==== Sys2Proof/Machine/Culvert.lean ====
section
/-! DEFINITION. The host data path (16): Culvert channels (R396 to R401) with the tag formats of 02 R59 and R60, and PCIe
events (17 R415, 18 R428). -/

namespace Sys2Proof.Machine

/-! ## A channel's memory -/

/-- The DRAM offset of a local word that a compartment may reach. -/
def cvOff (s : State) (p : CompId) (pa : BitVec 44) : Option Nat :=
  match classify s pa with
  | .dram o => if fenceOk s (compNo p) o && installed s o then some o else none
  | _ => none

/-- Whether a range of a device names DRAM of the compartment, unit by unit (R397, R385); another device checks its own. A range without
words names the word at its address. -/
def cvFence (s : State) (p : CompId) (pa : BitVec 44) (count : Nat) : Bool :=
  let last := pa.toNat + 8 * max count 1 - 8
  if 2 ^ 44 ≤ last ∨ last / 2 ^ 40 ≠ pa.toNat / 2 ^ 40 then false
  else if paDev pa ≠ s.devid then decide (last % 2 ^ 40 < 0x8000000000)
  else ((List.range (last % 2 ^ 40 / 2 ^ 30 + 1)).drop (paOff pa / 2 ^ 30)).all fun u =>
    decide (u < 512) && (cvOff s p (localPa s (u * 2 ^ 30))).isSome

/-! ## Descriptors (R396, R397) -/

def cvWord (r : CvRun) (i : Nat) : W64 := r.words.getD i 0
def cvOp (r : CvRun) : Nat := fld (cvWord r 0) 0 8
def cvFmt (r : CvRun) : Nat := fld (cvWord r 0) 8 2
def cvTrust (r : CvRun) : Bool := bit (cvWord r 0) 10
def cvSrc (r : CvRun) : W64 := cvWord r 1
def cvDst (r : CvRun) : W64 := cvWord r 2
def cvCount (r : CvRun) : Nat := fld (cvWord r 3) 0 32

/-- The host bytes of a word (Table 2.13). -/
def cvRec (r : CvRun) : Nat := if cvFmt r = 0 then 8 else 9

/-- Whether a device address is one that Table 16.7 has: any other names no DRAM (R397). -/
def cvAddrOk (a : W64) : Bool := fld a 44 20 == 0 && fld a 0 3 == 0

/-- R397: whether a descriptor is well formed. -/
def cvOk (trustok : Bool) (ws : List Word) : Bool :=
  let w (i : Nat) : W64 := (ws.getD i uninit).payload
  let op := fld (w 0) 0 8
  let fmt := fld (w 0) 8 2
  (ws.take 6).all (fun x => x.tag == 0x06)
    && fld (w 0) 12 20 == 0 && fld (w 0) 33 7 == 0 && fld (w 0) 48 16 == 0 && fld (w 3) 32 32 == 0
    && (if op = 3 then fmt == 2 else (op == 1 || op == 2) && fmt < 2)
    && (!bit (w 0) 10 || (op == 1 && fmt == 1 && trustok))

/-- Whether the device sides of a descriptor lie in the compartment's memory. -/
def cvReach (s : State) (p : CompId) (r : CvRun) : Bool :=
  let names (a : W64) : Bool := cvAddrOk a && cvFence s p (a.setWidth 44) (cvCount r)
  (cvOp r == 1 || names (cvSrc r)) && (cvOp r == 2 || names (cvDst r))

def cvReady (h : Channel) : Bool := h.en && h.head != h.tail && !h.stopped && h.run.isNone

def cvSlot (h : Channel) : BitVec 44 := h.ring + BitVec.ofNat 44 (64 * h.head.toNat)

/-- The cluster of a channel, whose L2 its reads and writes fill (R396, 12 R312). -/
def cvCluster (n : ChanId) : ClusterId := Fin.ofNat 16 (n.val / 4)

/-- The ways that the fills of a channel may take: those of its compartment (12 R312). -/
def cvWays (s : State) (n : ChanId) : BitVec 16 := compWays s (cvCluster n) (compNo (chanOwner s n))

/-- A local word as a channel reads it. -/
def cvLoad (n : ChanId) (pa : BitVec 44) : DM Word := fun s =>
  let (ws, s) := l2Fill (cvCluster n) (cvWays s n) (lineOf pa) false .demand s
  (ws.getD (fld pa 3 3) uninit, s)

/-- A local word as a channel writes it. -/
def cvStore (s : State) (n : ChanId) (pa : BitVec 44) (w : Word) : State :=
  l2Store s (cvCluster n) (cvWays s n) [wholeWrite pa w]

/-- The words of the slot at `HEAD`, but for the two that are never read (Table 16.7); none where a read fails. -/
def cvReadSlot (s : State) (n : ChanId) : Option (List Word) × State :=
  let p := chanOwner s n
  let a := cvSlot (getChan s n)
  (List.range 6).foldl (fun (r : Option (List Word) × State) i =>
    let pa := a + BitVec.ofNat 44 (8 * i)
    match r.1, cvOff r.2 p pa with
    | some l, some _ =>
      let (w, s) := cvLoad n pa r.2
      (some (l ++ [w]), s)
    | _, _ => (none, r.2)) (some [], s)

/-- A descriptor as it begins. -/
def newCvRun (words : List W64) : CvRun :=
  { words := words, doneW := 0, rej := 0, pendingBytes := [], tainted := false, started := false, issued := 0, poisoned := none,
    ask := none, got := none, result := none }

/-- What comes of fetching: a ring error, or the descriptor with what its checks say. -/
inductive CvFetch where
  | idle
  | ringError (s : State)
  | got (r : CvRun) (s : State)

def cvFetch (s : State) (n : ChanId) : CvFetch :=
  let h := getChan s n
  if !cvReady h then .idle
  else if !cvLogOk h then .ringError s
  else match cvReadSlot s n with
    | (none, t) => .ringError t
    | (some ws, t) =>
      if ws.any fun w => w.tag == 0x08 then .ringError t
      else
        let r := newCvRun (ws.map (·.payload))
        let res : Option Byte :=
          if !cvOk h.trustok ws then some 1 else if !cvReach t (chanOwner s n) r then some 2 else none
        .got { r with result := res } t

/-- Whether the `NBT` of a descriptor has come (R398). -/
def nbtPassed (s : State) (r : CvRun) : Bool := cvWord r 4 == 0 || (cvWord r 4).toNat ≤ (hubTick s).toNat

def putRun (s : State) (n : ChanId) (r : CvRun) : State :=
  modChan s n fun h => { h with run := some r, nbwait := r.result.isNone && !r.started }

/-- The descriptor that a step of operation `op` works on: the one in progress, or the next of the ring; it starts once its `NBT`
has come. Nothing where the next descriptor is another operation's. -/
def cvBegin (s : State) (n : ChanId) (op : Nat) : Option (CvRun × State) :=
  let start (r : CvRun) (t : State) : Option (CvRun × State) :=
    if cvOp r ≠ op then none
    else
      let r := { r with started := r.started || (r.result.isNone && nbtPassed t r) }
      some (r, putRun t n r)
  match (getChan s n).run with
  | some r => start r s
  | none => match cvFetch s n with
    | .idle => none
    | .ringError t => some (newCvRun [], cvRingError t n)
    | .got r t => start r t

/-- Whether a descriptor goes on: it has started and has no result yet. -/
def cvLive (r : CvRun) : Bool := r.started && r.result.isNone

/-- The end of a descriptor that has moved its last word, or that stops at a 512-byte boundary of payload (R401). -/
def cvEnd (h : Channel) (r : CvRun) : CvRun :=
  if r.doneW = cvCount r then { r with result := some (if r.poisoned.isSome then 3 else 0) }
  else if h.stopped ∧ r.doneW % 64 = 0 ∧ r.pendingBytes.isEmpty then { r with result := some 5 }
  else r

/-! ## Moving words -/

/-- What became of a piece of a transfer: it is done, waits, has been asked of another device, or ends the descriptor with a code. -/
inductive CvMove (α : Type) where
  | ok (a : α) (s : State)
  | wait (s : State)
  | asked (s : State)
  | fail (code : Byte) (s : State)

/-- Store words of one 512-byte block at a local address, card-checked (R398, 06 R172): only the first can wait for the block's card. -/
def cvStoreLocal (n : ChanId) (pa : BitVec 44) : List Word → State → CvMove Unit
  | [], s => .ok () s
  | w :: r, s => match cardService s (chanOwner s n) pa with
    | .done _ t => cvStoreLocal n (pa + 8) r (cvStore t n pa w)
    | .stop _ t => .fail 3 t
    | .wait t => .wait t

/-- Read words at a local address. -/
def cvReadLocal (n : ChanId) (s : State) (pa : BitVec 44) : Nat → List Word × State
  | 0 => ([], s)
  | m + 1 =>
    let (w, s) := cvLoad n pa s
    let (l, s) := cvReadLocal n s (pa + 8) m
    (w :: l, s)

/-- The words of one remote request from an address on: whole lines within a 512-byte block, else one word (17 R407). -/
def cvPiece (pa : BitVec 44) (n : Nat) : Nat :=
  if fld pa 0 6 = 0 ∧ 8 ≤ n then min (n / 8) (8 - fld pa 6 3) * 8 else min n 1

/-- The transaction type for a piece, from that of one word. -/
def cvType (base : Nat) (n : Nat) : BitVec 4 := BitVec.ofNat 4 (if n < 8 then base else if n = 8 then base + 1 else base + 2)

/-- Issue a channel's remote request. -/
def cvRemote (s : State) (n : ChanId) (typ : BitVec 4) (pa : BitVec 44) (k : Nat) (body : List Word) : CvMove Unit :=
  match issueRemote { user := .chan n, comp := compNo (chanOwner s n), typ := typ, pa := pa, bytemask := 0xFF,
                      wmask := if k = 8 then 0xFF else 0, nline := BitVec.ofNat 3 (k / 8 - 1), bodytag := true, cls := false,
                      body := body } s with
  | (.busError, t) => .fail 3 t
  | (.noCredit, _) => .wait s
  | (.sent _, t) => .ok () t

/-- Read a piece from another device: the words of its response once they are there (17 R410, R413), else the request and the wait. -/
def cvReadRemote (s : State) (n : ChanId) (r : CvRun) (pa : BitVec 44) (k : Nat) : CvMove (List Word) :=
  match r.ask, r.got with
  | some _, some ws => .ok ws s
  | some _, none => .wait s
  | none, _ => match cvRemote s n (cvType 0 k) pa k [] with
    | .ok _ t => .asked t
    | .asked t => .asked t
    | .wait t => .wait t
    | .fail c t => .fail c t

/-- A piece has been moved: what was read for it is not kept. -/
def CvRun.moved (r : CvRun) (k : Nat) : CvRun := { r with doneW := r.doneW + k, ask := none, got := none }

/-- A piece has been asked of another device. -/
def CvRun.askedFor (r : CvRun) (pa : BitVec 44) (k : Nat) : CvRun := { r with ask := some (pa, k), got := none }

/-- Read `k` words for a channel, `k` being one piece. -/
def cvRead (s : State) (n : ChanId) (r : CvRun) (pa : BitVec 44) (k : Nat) : CvMove (List Word) :=
  if paDev pa = s.devid then
    let (l, s) := cvReadLocal n s pa k
    .ok l s
  else cvReadRemote s n r pa k

/-- Write the words of one piece for a channel. -/
def cvWrite (s : State) (n : ChanId) (pa : BitVec 44) (ws : List Word) : CvMove Unit :=
  if paDev pa = s.devid then cvStoreLocal n pa ws s else cvRemote s n (cvType 3 ws.length) pa ws.length ws

/-- The address of word `i` of a device side. -/
def cvAt (a : W64) (i : Nat) : BitVec 44 := a.setWidth 44 + BitVec.ofNat 44 (8 * i)

/-! ## Host to device (R398, 02 R59, R60) -/

/-- The word that a host record stores, and whether its tag is rejected. -/
def cvInWord (r : CvRun) (l : List Byte) : Word × Bool :=
  let v := BitVec.ofNat 64 (ofLe (l.take 8))
  let t := l.getD 8 0
  if cvFmt r = 0 then (bytesW v, false)
  else if isReserved t || (!cvTrust r && (isPtr t || t == 0x08)) then (bytesW v, true)
  else (⟨t, v⟩, false)

/-- Store the words whose bytes have arrived, one after another; the rest waits where a credit is lacking. -/
def cvDeliver : Nat → State → ChanId → CvRun → CvRun × State
  | 0, s, _, r => (r, s)
  | n + 1, s, ch, r =>
    let size := cvRec r
    if r.pendingBytes.length < size ∨ r.doneW = cvCount r ∨ r.result.isSome then (r, s)
    else
      let dst := cvAt (cvDst r) r.doneW
      let (w, rej) := cvInWord r (r.pendingBytes.take size)
      let w := if r.tainted then poison dst 3 else w
      match cvWrite s ch dst [w] with
      | .wait t => (r, t)
      | .asked t => (r, t)
      | .fail c t => ({ r with result := some c }, t)
      | .ok _ t =>
        let rest := r.pendingBytes.drop size
        let r := { r with
          doneW := r.doneW + 1, rej := r.rej + (rej && !r.tainted).toNat, pendingBytes := rest
          poisoned := if r.tainted && r.poisoned.isNone then some r.doneW else r.poisoned }
        if (getChan t ch).stopped ∧ r.doneW % 64 = 0 then (cvEnd (getChan t ch) { r with pendingBytes := [] }, t)
        else cvDeliver n t ch r

/-- An error that AER reports on a function (18 R428). -/
def logAer (s : State) (fn : CompId) (sev : Nat) : State := logErr s 0x09 sev fn.val fn.val 0 0

/-! ## Reads of the host (R398, R400; 17 R415, R416) -/

/-- The reads of a channel that have no completion yet. -/
def chanReads (s : State) (n : ChanId) : List HostRead := s.pcie.reads.filter fun x => x.chan == some n

/-- The host bytes that a descriptor asks for: all of its source, or, once the channel stops, those up to the next 512-byte boundary of
payload (R401). -/
def cvAsks (h : Channel) (r : CvRun) : Nat :=
  if h.stopped then min (cvCount r) ((r.doneW + 63) / 64 * 64) * cvRec r else cvCount r * cvRec r

/-- Ask for host bytes, a line at a time, with at most 64 line requests of the channel (R400) and 256 reads of its function (17 R415)
outstanding. -/
def cvIssue : Nat → State → ChanId → CvRun → CvRun × State
  | 0, s, _, r => (r, s)
  | m + 1, s, n, r =>
    let p := chanOwner s n
    let a := cvSrc r + BitVec.ofNat 64 r.issued
    let left := cvAsks (getChan s n) r - r.issued
    if !cvLive r || !s.pcie.trained || left == 0 || decide (64 ≤ (chanReads s n).length)
        || decide (256 ≤ (s.pcie.reads.filter fun x => x.fn == p).length) then (r, s)
    else
      let k := min (64 - fld a 0 6) left
      let x : HostRead := { fn := p, chan := some n, addr := a, len := k, issued := s.now }
      cvIssue m { s with pcie := { s.pcie with reads := s.pcie.reads ++ [x] } } n { r with issued := r.issued + k }

/-- Bytes of a channel's completions end its oldest reads. -/
def takeReads (n : ChanId) : Nat → List HostRead → List HostRead
  | _, [] => []
  | k, x :: l =>
    if x.chan ≠ some n then x :: takeReads n k l
    else if k < x.len then { x with addr := x.addr + BitVec.ofNat 64 k, len := x.len - k } :: l
    else takeReads n (k - x.len) l

/-- The reads that satisfy a test are given up: what still arrives for them is discarded. -/
def dropReads (s : State) (f : HostRead → Bool) : State :=
  { s with pcie := { s.pcie with reads := s.pcie.reads.filter fun x => !f x } }

/-- A transfer from the host goes on: words that have arrived are stored, and more is asked for. -/
def cvPull (s : State) (n : ChanId) (r : CvRun) : State :=
  let (r, s) := cvDeliver (r.pendingBytes.length + 1) s n r
  let r := if r.result.isSome then r else cvEnd (getChan s n) r
  let (r, s) := cvIssue 64 s n r
  putRun s n r

/-- HOST_TO_DEVICE (R398): the reads are issued, and words that have arrived and wait to be written go on. -/
def execHostToDevice (n : ChanId) (s : State) : Host.Outcome State Fault Refusal :=
  match cvBegin s n 1 with
  | none => .next s
  | some (r, s) => if cvLive r then .next (cvPull s n r) else .next s

/-- PCIE_COMPLETION (18 R428): a read completion of a channel, at most 512 bytes, in the order of the requests. -/
def execPcieCompletion (n : ChanId) (data : List Byte) (poisoned : Bool) (s : State) : Host.Outcome State Fault Refusal :=
  match (getChan s n).run with
  | none => .next s
  | some r =>
    let due := ((chanReads s n).map (·.len)).foldl (· + ·) 0
    if !cvLive r ∨ cvOp r ≠ 1 ∨ data.isEmpty ∨ 512 < data.length ∨ due < data.length then .next s
    else
      let s := { s with pcie := { s.pcie with reads := takeReads n data.length s.pcie.reads } }
      let s := if poisoned then logAer s (chanOwner s n) 1 else s
      let size := cvRec r
      let need := (size - r.pendingBytes.length % size) % size
      let r0 := { r with pendingBytes := r.pendingBytes ++ data.take need, tainted := r.tainted || (poisoned && need != 0) }
      let (r1, s) := cvDeliver (r0.pendingBytes.length + 1) s n r0
      let r2 := { r1 with pendingBytes := r1.pendingBytes ++ data.drop need
                          tainted := if r1.pendingBytes.isEmpty then poisoned else r1.tainted || poisoned }
      .next (cvPull s n r2)

/-! ## Device to host (R394, R398) -/

/-- The host bytes of words; none at a `POISON` word of a `BYTES` fill. -/
def cvOutBytes (fmt : Nat) (w : Word) : Option (List Byte) :=
  if fmt = 0 then (if w.tag = 0x08 then none else some (leBytes 8 w.payload.toNat))
  else some (leBytes 8 w.payload.toNat ++ [w.tag])

/-- The bytes of words up to the first that cannot be sent, and how many words they are. -/
def cvOut (fmt : Nat) : List Word → List Byte × Nat
  | [] => ([], 0)
  | w :: l => match cvOutBytes fmt w with
    | none => ([], 0)
    | some b =>
      let (bs, k) := cvOut fmt l
      (b ++ bs, k + 1)

/-- Data for the host leaves in writes of at most Max Payload Size (17 Table 17.6). -/
def postData (s : State) (fn : CompId) (a : W64) (bs : List Byte) : State :=
  let m := s.pcie.maxPayload
  (List.range ((bs.length + m - 1) / m)).foldl (fun s i =>
    post s (.data fn (a + BitVec.ofNat 64 (m * i)) ((bs.drop (m * i)).take m))) s

/-- Send words until the end, a `POISON` word, an error, a boundary at which the channel stops, or a wait for a credit. -/
def cvSend : Nat → State → ChanId → CvRun → CvRun × State
  | 0, s, _, r => (r, s)
  | n + 1, s, ch, r =>
    let r := cvEnd (getChan s ch) r
    if r.result.isSome then (r, s)
    else
      let src := cvAt (cvSrc r) r.doneW
      let k := cvPiece src (min (cvCount r - r.doneW) (64 - r.doneW % 64))
      match cvRead s ch r src k with
      | .wait t => (r, t)
      | .asked t => (r.askedFor src k, t)
      | .fail c t => ({ r with result := some c }, t)
      | .ok ws t =>
        let (bs, m) := cvOut (cvFmt r) ws
        let t := postData t (chanOwner s ch) (cvDst r + BitVec.ofNat 64 (r.doneW * cvRec r)) bs
        cvSend n t ch { r.moved m with result := if m < ws.length then some 4 else none }

/-- DEVICE_TO_HOST (R398). -/
def execDeviceToHost (n : ChanId) (s : State) : Host.Outcome State Fault Refusal :=
  match cvBegin s n 2 with
  | none => .next s
  | some (r, s) =>
    if cvLive r ∧ s.pcie.trained then
      let (r, s) := cvSend (cvCount r + 1) s n r
      .next (putRun s n r)
    else .next s

/-! ## Device to device -/

/-- Copy words until the end, an error, a boundary at which the channel stops, or a wait for a credit. -/
def cvCopy : Nat → State → ChanId → CvRun → CvRun × State
  | 0, s, _, r => (r, s)
  | n + 1, s, ch, r =>
    let r := cvEnd (getChan s ch) r
    if r.result.isSome then (r, s)
    else
      let src := cvAt (cvSrc r) r.doneW
      let dst := cvAt (cvDst r) r.doneW
      let most := min (cvCount r - r.doneW) (64 - r.doneW % 64)
      let k := min (cvPiece src most) (cvPiece dst most)
      match cvRead s ch r src k with
      | .wait t => (r, t)
      | .asked t => (r.askedFor src k, t)
      | .fail c t => ({ r with result := some c }, t)
      | .ok ws t => match cvWrite t ch dst ws with
        | .wait t => (r, t)
        | .asked t => (r, t)
        | .fail c t => ({ r with result := some c }, t)
        | .ok _ t => cvCopy n t ch (r.moved k)

/-- DEVICE_TO_DEVICE (R398): tag and payload are copied unchanged (02 R59). -/
def execDeviceToDevice (n : ChanId) (s : State) : Host.Outcome State Fault Refusal :=
  match cvBegin s n 3 with
  | none => .next s
  | some (r, s) =>
    if cvLive r then
      let (r, s) := cvCopy (cvCount r + 1) s n r
      .next (putRun s n r)
    else .next s

/-- NBT (R398): the not-before tick has come, and the waiting descriptor issues its first read. -/
def execNbt (n : ChanId) (s : State) : Host.Outcome State Fault Refusal :=
  let h := getChan s n
  match h.run with
  | some r =>
    if h.nbwait ∧ nbtPassed s r then
      let r := { r with started := true }
      .next (if cvOp r = 1 then cvPull s n r else putRun s n r)
    else .next s
  | none => .next s

/-! ## Completion (R399) -/

/-- The remote requests of a channel that have no response yet. -/
def cvOutstanding (s : State) (n : ChanId) : Bool := s.xitex.outstanding.any fun r => r.2.user == .chan n

/-- Write word 5 and word 0, advance `HEAD`, and report. -/
def cvFinish (s : State) (n : ChanId) (r : CvRun) (code : Byte) : State :=
  let p := chanOwner s n
  let h := getChan s n
  let a := cvSlot h
  let put (s : State) (pa : BitVec 44) (v : W64) : State :=
    if (cvOff s p pa).isSome then cvStore s n pa (bytesW v) else s
  let words := match r.poisoned with
    | some k => min k r.doneW
    | none => r.doneW
  let s := put s (a + 40) (BitVec.ofNat 64 (words % 2 ^ 32 + r.rej % 2 ^ 32 * 2 ^ 32))
  let s := put s a (setFld (setBit (cvWord r 0) 32 true) 40 8 code.toNat)
  let bad := code != 0
  let s := modChan (dropReads s fun x => x.chan == some n) n fun h => { h with
    head := BitVec.ofNat 12 ((h.head.toNat + 1) % 2 ^ h.log2n.toNat)
    run := none, nbwait := false
    lasterr := if bad then code else h.lasterr
    irq := bvSet (bvSet h.irq 0 (bit h.irq 0 || bit (cvWord r 0) 11)) 1 (bit h.irq 1 || bad)
    en := h.en && !bad }
  if code = 3 ∨ code = 4 then logErr s 0x0B 1 p.val n.val 0 (code.setWidth 64) else s

/-- DESCRIPTOR_COMPLETE (R399): the descriptor whose result is known completes once its writes have been performed; so does a
fetched one that no operation takes (R397). -/
def execDescriptorComplete (n : ChanId) (s : State) : Host.Outcome State Fault Refusal :=
  match (getChan s n).run with
  | some r => match r.result with
    | some code => if cvOutstanding s n then .next s else .next (cvFinish s n r code)
    | none => .next s
  | none => match cvFetch s n with
    | .idle => .next s
    | .ringError t => .next (cvRingError t n)
    | .got r t =>
      if 1 ≤ cvOp r ∧ cvOp r ≤ 3 then .next s else .next (cvFinish t n r 1)

/-! ## Errors of PCIe (18 R428, 17 R415) -/

/-- A descriptor with a host side in progress ends with `BUS_ERROR`. -/
def cvHostFail (s : State) (n : ChanId) : State :=
  match (getChan s n).run with
  | some r => if cvLive r ∧ cvOp r ≠ 3 then putRun (dropReads s fun x => x.chan == some n) n { r with result := some 3 } else s
  | none => s

/-- COMPLETION_TIMEOUT (R428): 500 µs after a channel's oldest read was issued (17 Table 17.6). -/
def execCompletionTimeout (n : ChanId) (s : State) : Host.Outcome State Fault Refusal :=
  match (getChan s n).run with
  | some r =>
    if cvLive r ∧ cvOp r = 1 ∧ ((chanReads s n).any fun x => decide (x.issued + 500000 ≤ s.now)) then
      .next (logAer (cvHostFail s n) (chanOwner s n) 1)
    else .next s
  | none => .next s

/-- PCIE_ERROR (R428). -/
def execPcieError (fn : CompId) (e : PcieErr) (s : State) : Host.Outcome State Fault Refusal :=
  match e with
  | .correctable => .next (logAer s fn 0)
  | .completion n => .next (logAer (if chanOwner s n = fn then cvHostFail s n else s) fn 1)
  | .fatal =>
    let s := (List.finRange 64).foldl cvHostFail s
    .next (logAer { s with pcie := { s.pcie with trained := false, reads := [] } } fn 1)

/-- The lanes of a width code (17 Table 17.6). -/
def laneCount (w : Fin 4) : BitVec 5 := if w = 0 then 16 else if w = 1 then 8 else if w = 2 then 4 else 1

/-- PCIE_TRAINING (17 R416): the port trains at one of the rates and widths of Table 17.6; which one the two sides agree on is a free
value. -/
def execPcieTraining (s : State) : Host.Outcome State Fault Refusal :=
  if s.power.reg = .on ∧ s.pins.perstN ∧ s.pins.resetN then
    .next { s with
      free := s.free + 1
      pcie := { s.pcie with
        trained := true
        rate := BitVec.ofNat 3 ((Config.pcieRate s.free).val + 1)
        width := laneCount (Config.pcieWidth s.free) } }
  else .next s

/-- VF_FLR (17 R415). -/
def execVfFlr (p : CompId) (s : State) : Host.Outcome State Fault Refusal :=
  if p = 0 ∨ !hostReaches s then .next s
  else .next ((compChans s p).foldl cvHostFail (modComp s p fun c => { c with vf := VirtFn.reset }))

end Sys2Proof.Machine
end

