-- ==== Sys2Proof/Machine/Float.lean ====
section
/-! DEFINITION. IEEE 754 binary64 (05 R124, R125, R152, R153) on exact integers: a finite value is ± m × 2^e, every
operation is computed exactly and rounded once under `RM` (03 Table 3.6). -/

namespace Sys2Proof.Machine

/-- What a binary64 bit pattern is. -/
inductive FVal where
  | nan (signalling : Bool)
  | inf (s : Bool)
  | fin (s : Bool) (m : Nat) (e : Int)
deriving DecidableEq, Repr

def fUnpack (w : W64) : FVal :=
  let s := bit w 63
  let x := fld w 52 11
  let f := fld w 0 52
  if x = 2047 then (if f = 0 then .inf s else .nan (!bit w 51))
  else if x = 0 then .fin s f (-1074)
  else .fin s (f + 2 ^ 52) (Int.ofNat x - 1075)

/-- The IEEE flags in the order of `NFL` (03 R79). -/
structure FFlags where
  invalid : Bool := false
  divZero : Bool := false
  overflow : Bool := false
  underflow : Bool := false
  inexact : Bool := false
deriving DecidableEq, Repr

def FFlags.bits (f : FFlags) : BitVec 5 :=
  BitVec.ofNat 5 (f.invalid.toNat + 2 * f.divZero.toNat + 4 * f.overflow.toNat + 8 * f.underflow.toNat
    + 16 * f.inexact.toNat)

/-- The outcome of an operation: the bits, or that it is a NaN whose bits its user chooses. -/
structure FOut where
  bits : W64
  nan : Bool
  flags : FFlags
deriving DecidableEq, Repr

def fSign (s : Bool) : Nat := s.toNat * 2 ^ 63

def fZero (s : Bool) : W64 := BitVec.ofNat 64 (fSign s)
def fInf (s : Bool) : W64 := BitVec.ofNat 64 (fSign s + 2047 * 2 ^ 52)
def fMax (s : Bool) : W64 := BitVec.ofNat 64 (fSign s + 2047 * 2 ^ 52 - 1)

def fOk (w : W64) : FOut := { bits := w, nan := false, flags := {} }
def fNan (invalid : Bool) : FOut := { bits := 0, nan := true, flags := { invalid := invalid } }

/-- Whether rounding goes up in magnitude: `rem` of `2^sh` is cut off, `sticky` says that more lies below. -/
def fUp (rm : BitVec 2) (s odd : Bool) (rem sh : Nat) (sticky : Bool) : Bool :=
  let twice := 2 * rem
  let whole := 2 ^ sh
  match rm.toNat with
  | 0 => decide (whole < twice) || (decide (twice = whole) && (sticky || odd) && decide (0 < sh))
  | 1 => false
  | 2 => !s && (rem != 0 || sticky)
  | _ => s && (rem != 0 || sticky)

/-- The number of bits of a natural number. -/
def bitLen (m : Nat) : Nat := if m = 0 then 0 else Nat.log2 m + 1

/-- Cut `m × 2^e` to a multiple of `2^q`, `e ≤ q` or not: the multiple, rounded, and whether it is inexact. -/
def fCut (rm : BitVec 2) (s : Bool) (m : Nat) (e q : Int) (sticky : Bool) : Nat × Bool :=
  if q ≤ e then (m * 2 ^ (e - q).toNat, sticky)
  else
    let sh := (q - e).toNat
    let hi := m / 2 ^ sh
    let rem := m % 2 ^ sh
    (if fUp rm s (hi % 2 == 1) rem sh sticky then hi + 1 else hi, rem != 0 || sticky)

/-- The result of an overflow (IEEE 754, by rounding mode and sign). -/
def fOver (rm : BitVec 2) (s : Bool) : W64 :=
  match rm.toNat with
  | 0 => fInf s
  | 1 => fMax s
  | 2 => if s then fMax s else fInf s
  | _ => if s then fInf s else fMax s

/-- Round ± m × 2^e, `m` not zero, to binary64; with `sticky` the magnitude is a little larger and `m` has at least 55
bits. -/
def fRound (rm : BitVec 2) (s : Bool) (m : Nat) (e : Int) (sticky : Bool) : FOut :=
  let top := e + Int.ofNat (bitLen m)
  let q := max (top - 53) (-1074)
  let (n, inexact) := fCut rm s m e q sticky
  let (n, q) := if n = 2 ^ 53 then (2 ^ 52, q + 1) else (n, q)
  let small := decide (top - 1 < -1022)
  let afterOne := (fCut rm s m e (top - 53) sticky).1 == 2 ^ 53 && decide (top - 1 = -1023)
  let tiny := small && !(Config.tinyAfter && afterOne)
  if 2047 ≤ q + 1075 ∧ 2 ^ 52 ≤ n then
    { bits := fOver rm s, nan := false, flags := { overflow := true, inexact := true } }
  else
    let expo := if n < 2 ^ 52 then 0 else (q + 1075).toNat
    { bits := BitVec.ofNat 64 (fSign s + expo * 2 ^ 52 + n % 2 ^ 52), nan := false,
      flags := { inexact := inexact, underflow := tiny && inexact } }

/-- The sign of an exact zero sum of operands with different signs (IEEE 754). -/
def fZeroSum (rm : BitVec 2) : W64 := fZero (rm == 3)

/-- Add ± values exactly and round. -/
def fAddFin (rm : BitVec 2) (s1 : Bool) (m1 : Nat) (e1 : Int) (s2 : Bool) (m2 : Nat) (e2 : Int) : FOut :=
  let e := min e1 e2
  let v (s : Bool) (m : Nat) (x : Int) : Int :=
    let n := Int.ofNat (m * 2 ^ (x - e).toNat)
    if s then -n else n
  let r := v s1 m1 e1 + v s2 m2 e2
  if r = 0 then
    fOk (if s1 == s2 then fZero s1 else fZeroSum rm)
  else fRound rm (decide (r < 0)) r.natAbs e false

def fAdd (rm : BitVec 2) (a b : W64) : FOut :=
  match fUnpack a, fUnpack b with
  | .nan x, .nan y => fNan (x || y)
  | .nan x, _ => fNan x
  | _, .nan y => fNan y
  | .inf x, .inf y => if x = y then fOk (fInf x) else fNan true
  | .inf x, _ => fOk (fInf x)
  | _, .inf y => fOk (fInf y)
  | .fin s1 m1 e1, .fin s2 m2 e2 => fAddFin rm s1 m1 e1 s2 m2 e2

/-- Invert the sign bit. -/
def fNeg (a : W64) : W64 := a ^^^ (1#64 <<< 63)

/-- A difference is the sum with the second operand negated; a NaN there is still a NaN. -/
def fSub (rm : BitVec 2) (a b : W64) : FOut := fAdd rm a (fNeg b)

def fMul (rm : BitVec 2) (a b : W64) : FOut :=
  match fUnpack a, fUnpack b with
  | .nan x, .nan y => fNan (x || y)
  | .nan x, _ => fNan x
  | _, .nan y => fNan y
  | .inf x, .inf y => fOk (fInf (x.xor y))
  | .inf x, .fin y m _ => if m = 0 then fNan true else fOk (fInf (x.xor y))
  | .fin x m _, .inf y => if m = 0 then fNan true else fOk (fInf (x.xor y))
  | .fin s1 m1 e1, .fin s2 m2 e2 =>
    if m1 = 0 ∨ m2 = 0 then fOk (fZero (s1.xor s2)) else fRound rm (s1.xor s2) (m1 * m2) (e1 + e2) false

def fDiv (rm : BitVec 2) (a b : W64) : FOut :=
  match fUnpack a, fUnpack b with
  | .nan x, .nan y => fNan (x || y)
  | .nan x, _ => fNan x
  | _, .nan y => fNan y
  | .inf _, .inf _ => fNan true
  | .inf x, .fin y _ _ => fOk (fInf (x.xor y))
  | .fin x _ _, .inf y => fOk (fZero (x.xor y))
  | .fin s1 m1 e1, .fin s2 m2 e2 =>
    let s := s1.xor s2
    if m2 = 0 then
      if m1 = 0 then fNan true else { bits := fInf s, nan := false, flags := { divZero := true } }
    else if m1 = 0 then fOk (fZero s)
    else
      let sh := 57 + bitLen m2 - bitLen m1
      let n := m1 * 2 ^ sh
      fRound rm s (n / m2) (e1 - e2 - Int.ofNat sh) (n % m2 != 0)

/-- `a × b + d` with one rounding (05 R152: `VFMA.D` accumulates into vd). -/
def fFma (rm : BitVec 2) (a b d : W64) : FOut :=
  let prodInvalid := match fUnpack a, fUnpack b with
    | .inf _, .fin _ m _ => m == 0
    | .fin _ m _, .inf _ => m == 0
    | _, _ => false
  let sig (x : FVal) : Bool := match x with
    | .nan s => s
    | _ => false
  let isN (x : FVal) : Bool := match x with
    | .nan _ => true
    | _ => false
  let x := fUnpack a
  let y := fUnpack b
  let z := fUnpack d
  if isN x || isN y || isN z then fNan (sig x || sig y || sig z || prodInvalid)
  else if prodInvalid then fNan true
  else match x, y, z with
    | .fin s1 m1 e1, .fin s2 m2 e2, .fin s3 m3 e3 => fAddFin rm (s1.xor s2) (m1 * m2) (e1 + e2) s3 m3 e3
    | .fin _ _ _, .fin _ _ _, .inf s => fOk (fInf s)
    | .fin s1 _ _, .inf s2, .inf s => if s1.xor s2 = s then fOk (fInf s) else fNan true
    | .inf s1, .fin s2 _ _, .inf s => if s1.xor s2 = s then fOk (fInf s) else fNan true
    | .inf s1, .inf s2, .inf s => if s1.xor s2 = s then fOk (fInf s) else fNan true
    | .fin s1 _ _, .inf s2, _ => fOk (fInf (s1.xor s2))
    | .inf s1, .fin s2 _ _, _ => fOk (fInf (s1.xor s2))
    | .inf s1, .inf s2, _ => fOk (fInf (s1.xor s2))
    | _, _, _ => fNan true

/-- Integer square root, bit by bit from bit `n − 1` down. -/
def isqrt (m : Nat) : Nat → Nat → Nat
  | 0, r => r
  | n + 1, r => isqrt m n (if (r + 2 ^ n) * (r + 2 ^ n) ≤ m then r + 2 ^ n else r)

def fSqrt (rm : BitVec 2) (a : W64) : FOut :=
  match fUnpack a with
  | .nan x => fNan x
  | .inf s => if s then fNan true else fOk (fInf false)
  | .fin s m e =>
    if m = 0 then fOk (fZero s)
    else if s then fNan true
    else
      let (m, e) := if e % 2 = 0 then (m, e) else (2 * m, e - 1)
      let n := m * 2 ^ 112
      let r := isqrt n 84 0
      fRound rm false r (e / 2 - 56) (r * r != n)

/-- The value as an exact comparison key: a rational number as mantissa and exponent, infinities beyond every finite one. -/
def fLess (a b : W64) : Bool :=
  let key (x : FVal) (e : Int) : Int := match x with
    | .fin s m x => let n := Int.ofNat (m * 2 ^ (x - e).toNat); if s then -n else n
    | _ => 0
  match fUnpack a, fUnpack b with
  | .nan _, _ => false
  | _, .nan _ => false
  | .inf x, .inf y => x && !y
  | .inf x, _ => x
  | _, .inf y => !y
  | x, y => decide (key x (-1074) < key y (-1074))

def fIsNan (a : W64) : Bool := fld a 52 11 == 2047 && fld a 0 52 != 0
def fIsSig (a : W64) : Bool := fIsNan a && !bit a 51
def fIsZero (a : W64) : Bool := fld a 0 63 == 0

/-- Numeric equality: zeros of both signs are equal. -/
def fEqual (a b : W64) : Bool := !fIsNan a && !fIsNan b && (a == b || (fIsZero a && fIsZero b))

/-- Conversion of a signed integer (05 R152). -/
def fOfInt (rm : BitVec 2) (v : Int) : FOut :=
  if v = 0 then fOk (fZero false) else fRound rm (decide (v < 0)) v.natAbs 0 false

/-- Conversion to a signed integer (05 R152): NaN and values out of range yield `0x8000…` and invalid. -/
def fToInt (rm : BitVec 2) (a : W64) : W64 × FFlags :=
  let bad : W64 × FFlags := (1#64 <<< 63, { invalid := true })
  match fUnpack a with
  | .nan _ => bad
  | .inf _ => bad
  | .fin s m e =>
    let (n, inexact) := fCut rm s m e 0 false
    let v : Int := if s then -Int.ofNat n else Int.ofNat n
    if v < -(2 ^ 63) ∨ 2 ^ 63 ≤ v then bad else (BitVec.ofInt 64 v, { inexact := inexact })

end Sys2Proof.Machine
end

