-- ==== Sys2Proof/Machine/Generic.lean ====
section
/-! DEFINITION. Generic arithmetic and tag dispatch (05 R118 to R139): what the hardware completes, the tag class map, and
the dispatch entry. -/

namespace Sys2Proof.Machine

/-! ## Tag classes and dispatch (R129 to R138) -/

/-- `Class(t)` (R130, R132). -/
def tagClass (c : CoreId) (t : Byte) : CM Nat := do
  if t = 0x00 then return 0
  if t = 0x01 then return 1
  let k ← cget c
  let a := va48 (k.heap.tclassBase + t.setWidth 64)
  let x ← xlateData c a .load (!isSys k)
  let w ← readWord c a x
  poisonCheck c w a
  if w.tag ≠ 0x06 then tagFaultAt c 0x12 w.tag 3 a
  return fld (byteOf w.payload (t.toNat % 8)) 0 3

/-- `Dispatch` (R134): the dispatching instruction is counted when its `DRET` resumes execution (03 R70). -/
def dispatch (c : CoreId) (gd : Reg) (slot : Nat) (x y : Word) : CM Flow := do
  let k ← cget c
  if (bankOf k (ipl k)).dbusy then raise c 0x12 0x01 0 0
  enterRom c 0x0080 0 id
  let a ← tagClass c x.tag
  let b ← tagClass c y.tag
  let ea := va48 (k.heap.dispatchBase + BitVec.ofNat 64 ((slot * 64 + a * 8 + b) * 8))
  let t ← xlateData c ea .load (!isSys k)
  let e ← readWord c ea t
  poisonCheck c e ea
  if !(isPtr e.tag && ptype e.tag == 0x09) then tagFaultAt c 0x11 e.tag 3 ea
  if !wellFormed e then tagFaultAt c 0x03 e.tag 3 ea
  cmod c fun k => modBank k (ipl k) fun bk => { bk with
    dspA := x, dspB := y, dspOp := BitVec.ofNat 64 (slot * 256 + gd.val), dretPc := va48 (k.pc + 4), dbusy := true }
  return { next := some (va48 e.payload), count := 0 }

/-! ## What the hardware completes (R120 to R127) -/

/-- The modes that a generic operation reads. -/
structure GMode where
  ove : Bool
  dze : Bool
  mix : Bool
  trunc : Bool
  rm : BitVec 2
deriving DecidableEq, Repr

def gmodeOf (k : Core) : GMode :=
  { ove := stOVE k, dze := stDZE k, mix := stMIX k, trunc := stTRUNC k, rm := stRM k }

/-- The outcome of a generic operation: a result, one delivered later (10 R274), the divide-by-zero exception, or a
dispatch to a slot. -/
inductive GRes where
  | val (w : Word)
  | long (w : Word)
  | zero
  | disp (slot : Nat)
deriving DecidableEq, Repr

/-- The range test that ends `FixOp`. -/
def fixRange (m : GMode) (op : Nat) (r : Int) : GRes :=
  if outOfRange r ∧ m.ove then .disp (16 + op) else .val (fixI r)

/-- `FixOp` (R122). -/
def fixOp (m : GMode) (op : Nat) (x y : W64) : GRes :=
  let a := x.toInt
  let b := y.toInt
  match op with
  | 7 => .val (boolW (decide (a < b)))
  | 8 => .val (boolW (decide (a ≤ b)))
  | 9 => .val (boolW (decide (a = b)))
  | 10 => .val (fixI (signOf (a - b)))
  | 3 => if b = 0 then (if m.dze then .zero else .val zdivW)
         else if a ≠ b * a.tdiv b ∧ !m.trunc then .disp 3 else fixRange m 3 (a.tdiv b)
  | 4 => if b = 0 then (if m.dze then .zero else .val zdivW) else fixRange m 4 (a.tdiv b)
  | 5 => if b = 0 then (if m.dze then .zero else .val zdivW) else .val (fixI (a - b * a.tdiv b))
  | 0 => fixRange m 0 (a + b)
  | 1 => fixRange m 1 (a - b)
  | 2 => match fixRange m 2 (a * b) with
    | .val w => .long w
    | r => r
  | _ => fixRange m 6 (-a)

/-- The NaN that an operation returns (R125): the first NaN operand made quiet, else the default. -/
def genericNan (x y : W64) : W64 :=
  if fIsNan x then setBit x 51 true else if fIsNan y then setBit y 51 true else 0x7FF8000000000000

/-- `FloOp` (R124, R125). -/
def floOp (m : GMode) (op : Nat) (x y : W64) : GRes :=
  let r (o : FOut) : GRes := .long ⟨0x01, if o.nan then genericNan x y else o.bits⟩
  match op with
  | 0 => r (fAdd m.rm x y)
  | 1 => r (fSub m.rm x y)
  | 2 => r (fMul m.rm x y)
  | 3 => r (fDiv m.rm x y)
  | 6 => .long ⟨0x01, fNeg x⟩
  | 7 => .long (boolW (fLess x y))
  | 8 => .long (boolW (fLess x y || fEqual x y))
  | 9 => .long (boolW (fEqual x y))
  | _ => if fIsNan x || fIsNan y then .disp 10
         else .long (fixI (if fLess x y then -1 else if fEqual x y then 0 else 1))

/-- `ToFlo` (R127): exact for the magnitudes it is used with. -/
def toFlo (w : Word) : W64 := if w.tag = 0x01 then w.payload else (fOfInt 0 w.payload.toInt).bits

/-- Whether a mixed pair completes under `MIX` (R120). -/
def mixOk (m : GMode) (x y : Word) : Bool :=
  let small (w : Word) : Bool := decide (w.payload.toInt.natAbs ≤ 2 ^ 53)
  m.mix && ((x.tag == 0x00 && y.tag == 0x01 && small x) || (x.tag == 0x01 && y.tag == 0x00 && small y))

/-- `Generic` (R120) after its operands are consumed. For `GNEG`, `y` is `Word(0x00, 0)`. -/
def genericEval (m : GMode) (op : Nat) (x y : Word) : GRes :=
  let neg := op == 6
  if x.tag = 0x00 ∧ (neg ∨ y.tag = 0x00) then fixOp m op x.payload y.payload
  else if op = 4 ∨ op = 5 then .disp op
  else if x.tag = 0x01 ∧ (neg ∨ y.tag = 0x01) then floOp m op x.payload y.payload
  else if !neg && mixOk m x y then floOp m op (toFlo x) (toFlo y)
  else .disp op

/-- The second operand of a generic instruction. -/
def gsrc (c : CoreId) (b : GSrc) : CM Word :=
  match b with
  | .reg r => regC c r 1
  | .imm i => pure (fix (i.signExtend 64))

/-- Carry out the outcome of a generic operation. -/
def genericEnd (c : CoreId) (gd : Reg) (x y : Word) (r : GRes) : CM Flow := do
  match r with
  | .val w => thenNext (setReg c gd w)
  | .long w => thenNext do startLong c (longGpr (← cget c) gd w)
  | .zero => raise c 0x0D 0x01 0 (va48 (← cget c).pc)
  | .disp slot => dispatch c gd slot x y

/-- A generic operation of two operands; the fixnum divisions wait for the divider (R123). -/
def genericOp (c : CoreId) (op : Nat) (gd ga : Reg) (b : GSrc) : CM Flow := do
  let x ← regC c ga 0
  let y ← gsrc c b
  if 3 ≤ op ∧ op ≤ 5 ∧ x.tag = 0x00 ∧ y.tag = 0x00 then
    cmod c (completeWhere fun o => o.divider && !o.numeric)
  genericEnd c gd x y (genericEval (gmodeOf (← cget c)) op x y)

/-- GADD (R120, R122, R124). -/
def bodyGadd (c : CoreId) (gd : Reg) (ga : Reg) (b : GSrc) : CM Flow := genericOp c 0 gd ga b

def execGadd (c : CoreId) (gd : Reg) (ga : Reg) (b : GSrc) (s : State) : Host.Outcome State Fault Refusal :=
  issue c (.gadd c gd ga b) (bodyGadd c gd ga b) s

/-- GSUB (R120, R122, R124). -/
def bodyGsub (c : CoreId) (gd : Reg) (ga : Reg) (b : GSrc) : CM Flow := genericOp c 1 gd ga b

def execGsub (c : CoreId) (gd : Reg) (ga : Reg) (b : GSrc) (s : State) : Host.Outcome State Fault Refusal :=
  issue c (.gsub c gd ga b) (bodyGsub c gd ga b) s

/-- GMUL (R120, R122, R124). -/
def bodyGmul (c : CoreId) (gd : Reg) (ga : Reg) (b : GSrc) : CM Flow := genericOp c 2 gd ga b

def execGmul (c : CoreId) (gd : Reg) (ga : Reg) (b : GSrc) (s : State) : Host.Outcome State Fault Refusal :=
  issue c (.gmul c gd ga b) (bodyGmul c gd ga b) s

/-- GDIV (R122, R123, R124). -/
def bodyGdiv (c : CoreId) (gd : Reg) (ga : Reg) (b : GSrc) : CM Flow := genericOp c 3 gd ga b

def execGdiv (c : CoreId) (gd : Reg) (ga : Reg) (b : GSrc) (s : State) : Host.Outcome State Fault Refusal :=
  issue c (.gdiv c gd ga b) (bodyGdiv c gd ga b) s

/-- GQUO (R122, R123). -/
def bodyGquo (c : CoreId) (gd : Reg) (ga : Reg) (b : GSrc) : CM Flow := genericOp c 4 gd ga b

def execGquo (c : CoreId) (gd : Reg) (ga : Reg) (b : GSrc) (s : State) : Host.Outcome State Fault Refusal :=
  issue c (.gquo c gd ga b) (bodyGquo c gd ga b) s

/-- GREM (R122, R123). -/
def bodyGrem (c : CoreId) (gd : Reg) (ga : Reg) (b : GSrc) : CM Flow := genericOp c 5 gd ga b

def execGrem (c : CoreId) (gd : Reg) (ga : Reg) (b : GSrc) (s : State) : Host.Outcome State Fault Refusal :=
  issue c (.grem c gd ga b) (bodyGrem c gd ga b) s

/-- GNEG (R120, R122, R124). -/
def bodyGneg (c : CoreId) (gd : Reg) (ga : Reg) : CM Flow := do
  let x ← regC c ga 0
  genericEnd c gd x fixZero (genericEval (gmodeOf (← cget c)) 6 x fixZero)

def execGneg (c : CoreId) (gd : Reg) (ga : Reg) (s : State) : Host.Outcome State Fault Refusal :=
  issue c (.gneg c gd ga) (bodyGneg c gd ga) s

/-- GLT (R121). -/
def bodyGlt (c : CoreId) (gd : Reg) (ga : Reg) (b : GSrc) : CM Flow := genericOp c 7 gd ga b

def execGlt (c : CoreId) (gd : Reg) (ga : Reg) (b : GSrc) (s : State) : Host.Outcome State Fault Refusal :=
  issue c (.glt c gd ga b) (bodyGlt c gd ga b) s

/-- GLE (R121). -/
def bodyGle (c : CoreId) (gd : Reg) (ga : Reg) (b : GSrc) : CM Flow := genericOp c 8 gd ga b

def execGle (c : CoreId) (gd : Reg) (ga : Reg) (b : GSrc) (s : State) : Host.Outcome State Fault Refusal :=
  issue c (.gle c gd ga b) (bodyGle c gd ga b) s

/-- GEQ (R121). -/
def bodyGeq (c : CoreId) (gd : Reg) (ga : Reg) (b : GSrc) : CM Flow := genericOp c 9 gd ga b

def execGeq (c : CoreId) (gd : Reg) (ga : Reg) (b : GSrc) (s : State) : Host.Outcome State Fault Refusal :=
  issue c (.geq c gd ga b) (bodyGeq c gd ga b) s

/-- GCMP (R121). -/
def bodyGcmp (c : CoreId) (gd : Reg) (ga : Reg) (b : GSrc) : CM Flow := genericOp c 10 gd ga b

def execGcmp (c : CoreId) (gd : Reg) (ga : Reg) (b : GSrc) (s : State) : Host.Outcome State Fault Refusal :=
  issue c (.gcmp c gd ga b) (bodyGcmp c gd ga b) s

/-- EQ (R120, R121): `Same` of the operands, healed after they are consumed (06 R163). -/
def bodyEq (c : CoreId) (gd : Reg) (ga : Reg) (b : GSrc) : CM Flow := thenNext do
  let _ ← regC c ga 0
  let y ← gsrc c b
  let x ← healReg c ga 0
  let y ← match b with
    | .reg r => healReg c r 1
    | .imm _ => pure y
  setReg c gd (boolW (same x y))

def execEq (c : CoreId) (gd : Reg) (ga : Reg) (b : GSrc) (s : State) : Host.Outcome State Fault Refusal :=
  issue c (.eq c gd ga b) (bodyEq c gd ga b) s

end Sys2Proof.Machine
end

