-- ==== Sys2Proof/Machine/Branch.lean ====
section
/-! DEFINITION. Branches, jumps and calls (04 R88, R89, R109) with the training of the predictor (10 R276). -/

namespace Sys2Proof.Machine

/-! ## The predictor (10 R276) -/

/-- A taken transfer at `a` leaves its entry in the BTB. -/
def btbPut (p : Predictor) (a t : W64) : Predictor :=
  { p with btb := smSet p.btb (fld a 2 10) ⟨BitVec.ofNat 36 (fld a 12 36), t⟩ }

/-- A conditional branch resolved: its direction counter, saturating, and the global history. -/
def dirTrain (p : Predictor) (a : W64) (taken : Bool) : Predictor :=
  let i := (fld a 2 12) ^^^ p.hist.toNat
  let v := smGet 1 p.dir i
  let v' := if taken then (if v = 3 then v else v + 1) else (if v = 0 then v else v - 1)
  { p with dir := smPut 1 p.dir i v', hist := (p.hist <<< 1) ||| BitVec.ofNat 12 taken.toNat }

/-- A call pushes its return address; an overflow discards the oldest. -/
def retPush (p : Predictor) (a : W64) : Predictor :=
  { p with stack := (if 16 ≤ p.stack.length then p.stack.drop 1 else p.stack) ++ [a] }

def retPop (p : Predictor) : Predictor := { p with stack := p.stack.dropLast }

/-- Train the predictor, which deterministic mode neither reads nor trains (10 R280). -/
def train (c : CoreId) (f : Predictor → Predictor) : CM Unit := cmod c fun k =>
  if stDET k then k else { k with pred := f k.pred }

/-! ## Targets (R89) -/

/-- A PC-relative target. -/
def relTarget (pc : W64) {n : Nat} (disp : BitVec n) : W64 := va48 (pc + disp.signExtend 64 * 4)

/-- A conditional branch whose condition is known. -/
def branchIf (c : CoreId) {n : Nat} (disp : BitVec n) (taken : Bool) : CM Flow := do
  let pc := (← cget c).pc
  let t := relTarget pc disp
  train c fun p =>
    let p := dirTrain p pc taken
    if taken then btbPut p pc t else p
  if taken then goTo t else return {}

/-- The operands of `BEQ` and `BNE`: consumed, then healed (06 R163). -/
def identityOf (c : CoreId) (ga gb : Reg) : CM Bool := do
  let _ ← regC c ga 0
  let _ ← regC c gb 1
  let x ← healReg c ga 0
  let y ← healReg c gb 1
  return same x y

/-- The target that a register holds (R109). -/
def jumpTarget (c : CoreId) (ga : Reg) : CM W64 := do
  let w ← regC c ga 0
  if isFar w.tag then raise c 0x15 0 0 w.payload
  if isPtr w.tag && ptype w.tag == 0x09 then
    if !wellFormed w then tagFault c 0x03 w.tag 0
    return (← healReg c ga 0).payload
  else if isSys (← cget c) && (w.tag == 0x00 || w.tag == 0x06) then
    if fld w.payload 0 2 ≠ 0 then raise c 0x04 0 (va48 w.payload) 0
    return va48 w.payload
  else tagFault c 0x07 w.tag 0

/-- The link word of a call (R109). -/
def linkWord (pc : W64) : Word := ⟨0x89, va48 (pc + 4)⟩

/-! ## Conditional branches (Table 4.8) -/

/-- BEQ (R109). -/
def bodyBeq (c : CoreId) (ga gb : Reg) (disp : BitVec 11) : CM Flow := do
  branchIf c disp (← identityOf c ga gb)

def execBeq (c : CoreId) (ga gb : Reg) (disp : BitVec 11) (s : State) : Host.Outcome State Fault Refusal :=
  issue c (.beq c ga gb disp) (bodyBeq c ga gb disp) s

/-- BNE (R109). -/
def bodyBne (c : CoreId) (ga gb : Reg) (disp : BitVec 11) : CM Flow := do
  branchIf c disp !(← identityOf c ga gb)

def execBne (c : CoreId) (ga gb : Reg) (disp : BitVec 11) (s : State) : Host.Outcome State Fault Refusal :=
  issue c (.bne c ga gb disp) (bodyBne c ga gb disp) s

/-- BNIL (R109). -/
def bodyBnil (c : CoreId) (ga : Reg) (disp : BitVec 16) : CM Flow := do
  branchIf c disp ((← regC c ga 0) == nilW)

def execBnil (c : CoreId) (ga : Reg) (disp : BitVec 16) (s : State) : Host.Outcome State Fault Refusal :=
  issue c (.bnil c ga disp) (bodyBnil c ga disp) s

/-- BNNIL (R109). -/
def bodyBnnil (c : CoreId) (ga : Reg) (disp : BitVec 16) : CM Flow := do
  branchIf c disp ((← regC c ga 0) != nilW)

def execBnnil (c : CoreId) (ga : Reg) (disp : BitVec 16) (s : State) : Host.Outcome State Fault Refusal :=
  issue c (.bnnil c ga disp) (bodyBnnil c ga disp) s

/-- BZ (R109). -/
def bodyBz (c : CoreId) (ga : Reg) (disp : BitVec 16) : CM Flow := do
  branchIf c disp ((← regC c ga 0).payload == 0)

def execBz (c : CoreId) (ga : Reg) (disp : BitVec 16) (s : State) : Host.Outcome State Fault Refusal :=
  issue c (.bz c ga disp) (bodyBz c ga disp) s

/-- BNZ (R109). -/
def bodyBnz (c : CoreId) (ga : Reg) (disp : BitVec 16) : CM Flow := do
  branchIf c disp ((← regC c ga 0).payload != 0)

def execBnz (c : CoreId) (ga : Reg) (disp : BitVec 16) (s : State) : Host.Outcome State Fault Refusal :=
  issue c (.bnz c ga disp) (bodyBnz c ga disp) s

/-- BLTF (R109). -/
def bodyBltf (c : CoreId) (ga gb : Reg) (disp : BitVec 11) : CM Flow := do
  let a ← regC c ga 0
  let b ← regC c gb 1
  branchIf c disp (decide (a.payload.toInt < b.payload.toInt))

def execBltf (c : CoreId) (ga gb : Reg) (disp : BitVec 11) (s : State) : Host.Outcome State Fault Refusal :=
  issue c (.bltf c ga gb disp) (bodyBltf c ga gb disp) s

/-- BGEF (R109). -/
def bodyBgef (c : CoreId) (ga gb : Reg) (disp : BitVec 11) : CM Flow := do
  let a ← regC c ga 0
  let b ← regC c gb 1
  branchIf c disp (decide (b.payload.toInt ≤ a.payload.toInt))

def execBgef (c : CoreId) (ga gb : Reg) (disp : BitVec 11) (s : State) : Host.Outcome State Fault Refusal :=
  issue c (.bgef c ga gb disp) (bodyBgef c ga gb disp) s

/-- BTAG (R109). -/
def bodyBtag (c : CoreId) (ga : Reg) (t : BitVec 8) (disp : BitVec 8) : CM Flow := do
  branchIf c disp ((← reg c ga).tag == t)

def execBtag (c : CoreId) (ga : Reg) (t : BitVec 8) (disp : BitVec 8) (s : State) : Host.Outcome State Fault Refusal :=
  issue c (.btag c ga t disp) (bodyBtag c ga t disp) s

/-- BNTAG (R109). -/
def bodyBntag (c : CoreId) (ga : Reg) (t : BitVec 8) (disp : BitVec 8) : CM Flow := do
  branchIf c disp ((← reg c ga).tag != t)

def execBntag (c : CoreId) (ga : Reg) (t : BitVec 8) (disp : BitVec 8) (s : State) : Host.Outcome State Fault Refusal :=
  issue c (.bntag c ga t disp) (bodyBntag c ga t disp) s

/-- BCLS (R109). -/
def bodyBcls (c : CoreId) (ga : Reg) (k : BitVec 3) (disp : BitVec 16) : CM Flow := do
  branchIf c disp ((← tagClass c (← reg c ga).tag) == k.toNat)

def execBcls (c : CoreId) (ga : Reg) (k : BitVec 3) (disp : BitVec 16) (s : State) : Host.Outcome State Fault Refusal :=
  issue c (.bcls c ga k disp) (bodyBcls c ga k disp) s

/-! ## Jumps and calls -/

/-- JMP (R109). -/
def bodyJmp (c : CoreId) (disp : BitVec 26) : CM Flow := do
  let pc := (← cget c).pc
  train c (btbPut · pc (relTarget pc disp))
  goTo (relTarget pc disp)

def execJmp (c : CoreId) (disp : BitVec 26) (s : State) : Host.Outcome State Fault Refusal :=
  issue c (.jmp c disp) (bodyJmp c disp) s

/-- CALL (R109). -/
def bodyCall (c : CoreId) (disp : BitVec 26) : CM Flow := do
  let pc := (← cget c).pc
  setReg c 30 (linkWord pc)
  train c fun p => retPush (btbPut p pc (relTarget pc disp)) (va48 (pc + 4))
  goTo (relTarget pc disp)

def execCall (c : CoreId) (disp : BitVec 26) (s : State) : Host.Outcome State Fault Refusal :=
  issue c (.call c disp) (bodyCall c disp) s

/-- JR (R109). -/
def bodyJr (c : CoreId) (ga : Reg) : CM Flow := do
  let pc := (← cget c).pc
  let t ← jumpTarget c ga
  train c (btbPut · pc t)
  goTo t

def execJr (c : CoreId) (ga : Reg) (s : State) : Host.Outcome State Fault Refusal :=
  issue c (.jr c ga) (bodyJr c ga) s

/-- CALLR (R109): ga is read before g30 is written. -/
def bodyCallr (c : CoreId) (ga : Reg) : CM Flow := do
  let pc := (← cget c).pc
  let t ← jumpTarget c ga
  setReg c 30 (linkWord pc)
  train c fun p => retPush (btbPut p pc t) (va48 (pc + 4))
  goTo t

def execCallr (c : CoreId) (ga : Reg) (s : State) : Host.Outcome State Fault Refusal :=
  issue c (.callr c ga) (bodyCallr c ga) s

/-- RET (R109, 04 Table 4.7): ga = 0 selects g30. -/
def bodyRet (c : CoreId) (ga : Reg) : CM Flow := do
  let t ← jumpTarget c (if ga = 0 then 30 else ga)
  train c retPop
  goTo t

def execRet (c : CoreId) (ga : Reg) (s : State) : Host.Outcome State Fault Refusal :=
  issue c (.ret c ga) (bodyRet c ga) s

end Sys2Proof.Machine
end

