-- ==== Sys2Proof/Machine/CoreStop.lean ====
section
/-! DEFINITION. The phase flip (06 R166 steps 4 and 5) and the snapshot dump (07 R200 steps 4 to 6, R201) of a core whose issue has
stopped, by the ROM's routine or by a patched one (13 Table 13.1). -/

namespace Sys2Proof.Machine

/-- Whether heal writes of a core are still under way at another device. -/
def healing (s : State) (c : CoreId) : Bool := s.xitex.outstanding.any fun r => r.2.user == .heal c

/-- Run the routine of a stop: `native` stands for the ROM's own, `fin` ends the stop. What a patched one raises, a micro-stack fault
too, follows the end of the stop (log 20). -/
def stopRun (c : CoreId) (rom : Nat) (r : Resume) (native fin : State → State) (s : State) : State :=
  let micro (s : State) : State :=
    match (runMicro c (entryCtx (getCore s c))).run s with
    | .ok .original s => native (clearMicro s c)
    | .ok (.stack upc low) s => pendMc (logMc (fin (clearMicro s c)) c 0x06 (stackReport upc low)) c (stackReport upc low)
    | .ok _ s => fin (clearMicro s c)
    | .error (.exc e) s => takeException c e (fin (clearMicro s c))
    | .error (.wait w) s => modCore s c fun k => { k with wait := some { what := w, resume := r } }
    | .error _ s => s
  if (getCore s c).micro.run.isSome then micro s
  else match (enterRom c rom 0 id).run s with
    | .ok _ s => native s
    | .error _ s => micro s

/-! ## The phase flip -/

/-- The flip is done, and issue resumes; a halted or quiesced core stays as it is. -/
def endFlip (c : CoreId) (s : State) : State :=
  modCore s c fun k => { k with
    pend := { k.pend with flip := none }
    run := if k.run = .flipStop then .running else k.run }

/-- Step 4: the new colour. -/
def flipColour (c : CoreId) (s : State) : State :=
  modCore s c fun k => { k with heap := { k.heap with goodcol := k.pend.flip.getD k.heap.goodcol } }

def flipRun (c : CoreId) (s : State) : State := stopRun c 0x0780 .flip (fun s => endFlip c (flipColour c s)) (endFlip c) s

/-! ## The dump (07 Table 7.9) -/

/-- `LVL` of the sixteen sources from `0x40` + 16 × `i` (Table 9.8). -/
def levelWord (k : Core) (i : Nat) : W64 :=
  BitVec.ofNat 64 (((List.range 16).map fun j =>
    (smGet 0 k.irq.level (0x40 + 16 * i + j)).toNat * 2 ^ (4 * j)).foldl (· + ·) 0)

/-- The words 0 to 511 of a core's dump (Table 7.9). -/
def dumpWords (s : State) (c : CoreId) (t : W64) : List Word :=
  let k := getCore s c
  let banks := (List.finRange 8).flatMap fun b => (List.finRange 32).map fun r => regOf k b r
  let dsp := (List.finRange 8).flatMap fun b =>
    let x := bankOf k b
    [x.dspA, x.dspB, bytesW x.dspOp, bytesW x.dretPc]
  let busy := ((List.finRange 8).map fun b => (bankOf k b).dbusy.toNat * 2 ^ b.val).foldl (· + ·) 0
  let ctl := [va48 k.pc, statusShown k, BitVec.ofNat 64 busy, k.heap.goodcol.setWidth 64, k.heap.allocPtr, k.heap.allocLim,
    k.heap.rlogPtr, k.heap.rlogLim, k.mmu.space, k.cycles, k.instret, t].map bytesW
  let stackRegs := k.mmu.ssp :: k.mmu.lsp.toList
  let exc := [k.nfl, k.exc.epc, k.exc.ecause, k.exc.eaddr, k.exc.einfo, k.mmu.ptbase, k.mmu.dtbase, ipendWord s c,
    irouteWord k, bankwinWord k, 0].map bytesW
  let vecs := (List.finRange 32).flatMap fun r => (List.range 4).map fun l => bytesW (lane (k.v.get r) l)
  let rest := (k.alarm.toList ++ [k.heap.dispatchBase, k.heap.tclassBase, k.compart.setWidth 64]
    ++ (List.range 12).map (levelWord k)).map bytesW
  banks ++ dsp ++ ctl ++ stackRegs ++ exc ++ vecs ++ rest ++ List.replicate 44 (bytesW 0)
    ++ [bytesW (BitVec.ofNat 64 (c.val + 128))]

/-- Store a dump line by line, without a barrier or a card check (R201). -/
def storeDump (s : State) (c : CoreId) (base : BitVec 44) (ws : List Word) : State :=
  (List.range 64).foldl (fun s i =>
    let a (j : Nat) : BitVec 44 := base + BitVec.ofNat 44 (64 * i + 8 * j)
    if localOk s (getCore s c).compart (a 0) then
      performNow s c .cached ((List.range 8).map fun j => wholeWrite (a j) (ws.getD (8 * i + j) (bytesW 0)))
    else s) s

/-- Step 6: issue resumes; a halted or quiesced core stays as it is. -/
def endDump (c : CoreId) (s : State) : State :=
  modCore s c fun k => { k with
    pend := { k.pend with snap := false, snapTick := none }
    run := if k.run = .snapStop then .running else k.run }

/-- Steps 4 and 5: the dump is stored, and the copied-card filter is cleared. -/
def dump (c : CoreId) (s : State) : State :=
  let k := getCore s c
  match k.pend.snapTick, (getComp s (compId k.compart)).snap with
  | some t, some x =>
    modCore (storeDump s c (x.base + BitVec.ofNat 44 (4096 * c.val)) (dumpWords s c t)) c fun k => { k with cards := [] }
  | _, _ => s

def dumpRun (c : CoreId) (s : State) : State := stopRun c 0x0700 .snap (fun s => endDump c (dump c s)) (endDump c) s

end Sys2Proof.Machine
end

