-- ==== Sys2Proof/Machine/Numeric.lean ====
section
/-! DEFINITION. The numeric unit (05 R150 to R153, 04 R93, 03 R79 to R81): lane operations, moves between the register
files, array loads and stores, and the flag word. -/

namespace Sys2Proof.Machine

/-! ## Lane operations (R152) -/

/-- The result of a lane with its IEEE flags. -/
abbrev LaneRes := W64 × BitVec 5

/-- A lane's result from an arithmetic outcome: the bits of a NaN are not stated (log 3); it is quiet. -/
def laneOf (a b d : W64) (o : FOut) : LaneRes :=
  (if o.nan then Config.laneNaN a b d ||| 0x7FF8000000000000 else o.bits, o.flags.bits)

def flagInvalid (b : Bool) : BitVec 5 := BitVec.ofNat 5 b.toNat

/-- `VMIN.D` and `VMAX.D`: the non-NaN operand, −0.0 below +0.0. -/
def laneMinMax (max : Bool) (a b : W64) : LaneRes :=
  let fl := flagInvalid (fIsSig a || fIsSig b)
  if fIsNan a && fIsNan b then (Config.laneNaN a b 0 ||| 0x7FF8000000000000, fl)
  else if fIsNan a then (b, fl)
  else if fIsNan b then (a, fl)
  else
    let less := fLess a b || (fEqual a b && bit a 63 && !bit b 63)
    (if less.xor max then a else b, fl)

/-- `VCMPLT.D` and `VCMPEQ.D`: all ones when the relation holds. -/
def laneCmp (n : Nat) (rel : W64 → W64 → Bool) (a b : W64) : LaneRes :=
  let nan := fIsNan a || fIsNan b
  (if rel a b then ~~~0 else 0, flagInvalid (fIsSig a || fIsSig b || (nan && Config.cmpSignals n)))

def laneToInt (rm : BitVec 2) (a : W64) : LaneRes := let r := fToInt rm a; (r.1, r.2.bits)

/-- Apply a lane operation to va, vb and vd. -/
def lanewise (f : W64 → W64 → W64 → LaneRes) (a b d : BitVec 256) : BitVec 256 × BitVec 5 :=
  let r := (List.range 4).map fun l => f (lane a l) (lane b l) (lane d l)
  (ofLanes (r.map (·.1)), (r.map (·.2)).foldl (· ||| ·) 0)

def vget (k : Core) (r : Reg) : BitVec 256 := k.v.get r

/-- A numeric operation, a long operation of the unit (10 R274). -/
def vecOp (c : CoreId) (i : Instr) (vd va vb : Reg) (divider : Bool)
    (f : BitVec 2 → W64 → W64 → W64 → LaneRes) : CM Unit := do
  numericUse c i
  let k ← cget c
  let r := lanewise (f (stRM k)) (vget k va) (vget k vb) (vget k vd)
  startLong c { dest := .vreg vd, tag := 0, val := r.1, flags := r.2, numeric := true, divider := divider, zdiv := none }

/-- VADD.D (R152). -/
def bodyVaddD (c : CoreId) (vd va vb : Reg) : CM Flow := thenNext (vecOp c (.vaddD c vd va vb) vd va vb false
  fun rm a b _ => laneOf a b 0 (fAdd rm a b))

def execVaddD (c : CoreId) (vd va vb : Reg) (s : State) : Host.Outcome State Fault Refusal :=
  issue c (.vaddD c vd va vb) (bodyVaddD c vd va vb) s

/-- VSUB.D (R152). -/
def bodyVsubD (c : CoreId) (vd va vb : Reg) : CM Flow := thenNext (vecOp c (.vsubD c vd va vb) vd va vb false
  fun rm a b _ => laneOf a b 0 (fSub rm a b))

def execVsubD (c : CoreId) (vd va vb : Reg) (s : State) : Host.Outcome State Fault Refusal :=
  issue c (.vsubD c vd va vb) (bodyVsubD c vd va vb) s

/-- VMUL.D (R152). -/
def bodyVmulD (c : CoreId) (vd va vb : Reg) : CM Flow := thenNext (vecOp c (.vmulD c vd va vb) vd va vb false
  fun rm a b _ => laneOf a b 0 (fMul rm a b))

def execVmulD (c : CoreId) (vd va vb : Reg) (s : State) : Host.Outcome State Fault Refusal :=
  issue c (.vmulD c vd va vb) (bodyVmulD c vd va vb) s

/-- VDIV.D (R152). -/
def bodyVdivD (c : CoreId) (vd va vb : Reg) : CM Flow := thenNext (vecOp c (.vdivD c vd va vb) vd va vb true
  fun rm a b _ => laneOf a b 0 (fDiv rm a b))

def execVdivD (c : CoreId) (vd va vb : Reg) (s : State) : Host.Outcome State Fault Refusal :=
  issue c (.vdivD c vd va vb) (bodyVdivD c vd va vb) s

/-- VFMA.D (R152). -/
def bodyVfmaD (c : CoreId) (vd va vb : Reg) : CM Flow := thenNext (vecOp c (.vfmaD c vd va vb) vd va vb false
  fun rm a b d => laneOf a b d (fFma rm a b d))

def execVfmaD (c : CoreId) (vd va vb : Reg) (s : State) : Host.Outcome State Fault Refusal :=
  issue c (.vfmaD c vd va vb) (bodyVfmaD c vd va vb) s

/-- VSQRT.D (R152). -/
def bodyVsqrtD (c : CoreId) (vd va : Reg) : CM Flow := thenNext (vecOp c (.vsqrtD c vd va) vd va va true 
  fun rm a _ _ => laneOf a 0 0 (fSqrt rm a))

def execVsqrtD (c : CoreId) (vd va : Reg) (s : State) : Host.Outcome State Fault Refusal :=
  issue c (.vsqrtD c vd va) (bodyVsqrtD c vd va) s

/-- VMIN.D (R152). -/
def bodyVminD (c : CoreId) (vd va vb : Reg) : CM Flow := thenNext (vecOp c (.vminD c vd va vb) vd va vb false
  fun _ a b _ => laneMinMax false a b)

def execVminD (c : CoreId) (vd va vb : Reg) (s : State) : Host.Outcome State Fault Refusal :=
  issue c (.vminD c vd va vb) (bodyVminD c vd va vb) s

/-- VMAX.D (R152). -/
def bodyVmaxD (c : CoreId) (vd va vb : Reg) : CM Flow := thenNext (vecOp c (.vmaxD c vd va vb) vd va vb false
  fun _ a b _ => laneMinMax true a b)

def execVmaxD (c : CoreId) (vd va vb : Reg) (s : State) : Host.Outcome State Fault Refusal :=
  issue c (.vmaxD c vd va vb) (bodyVmaxD c vd va vb) s

/-- VCMPLT.D (R152). -/
def bodyVcmpltD (c : CoreId) (vd va vb : Reg) : CM Flow := thenNext (vecOp c (.vcmpltD c vd va vb) vd va vb false
  fun _ a b _ => laneCmp 0 fLess a b)

def execVcmpltD (c : CoreId) (vd va vb : Reg) (s : State) : Host.Outcome State Fault Refusal :=
  issue c (.vcmpltD c vd va vb) (bodyVcmpltD c vd va vb) s

/-- VCMPEQ.D (R152). -/
def bodyVcmpeqD (c : CoreId) (vd va vb : Reg) : CM Flow := thenNext (vecOp c (.vcmpeqD c vd va vb) vd va vb false
  fun _ a b _ => laneCmp 1 fEqual a b)

def execVcmpeqD (c : CoreId) (vd va vb : Reg) (s : State) : Host.Outcome State Fault Refusal :=
  issue c (.vcmpeqD c vd va vb) (bodyVcmpeqD c vd va vb) s

/-- VCVT.LD (R152). -/
def bodyVcvtLd (c : CoreId) (vd va : Reg) : CM Flow := thenNext (vecOp c (.vcvtLd c vd va) vd va va false 
  fun rm a _ _ => laneOf a 0 0 (fOfInt rm a.toInt))

def execVcvtLd (c : CoreId) (vd va : Reg) (s : State) : Host.Outcome State Fault Refusal :=
  issue c (.vcvtLd c vd va) (bodyVcvtLd c vd va) s

/-- VCVT.DL (R152). -/
def bodyVcvtDl (c : CoreId) (vd va : Reg) : CM Flow := thenNext (vecOp c (.vcvtDl c vd va) vd va va false 
  fun rm a _ _ => laneToInt rm a)

def execVcvtDl (c : CoreId) (vd va : Reg) (s : State) : Host.Outcome State Fault Refusal :=
  issue c (.vcvtDl c vd va) (bodyVcvtDl c vd va) s

/-- VADD.L (R152). -/
def bodyVaddL (c : CoreId) (vd va vb : Reg) : CM Flow := thenNext (vecOp c (.vaddL c vd va vb) vd va vb false
  fun _ a b _ => (a + b, 0))

def execVaddL (c : CoreId) (vd va vb : Reg) (s : State) : Host.Outcome State Fault Refusal :=
  issue c (.vaddL c vd va vb) (bodyVaddL c vd va vb) s

/-- VSUB.L (R152). -/
def bodyVsubL (c : CoreId) (vd va vb : Reg) : CM Flow := thenNext (vecOp c (.vsubL c vd va vb) vd va vb false
  fun _ a b _ => (a - b, 0))

def execVsubL (c : CoreId) (vd va vb : Reg) (s : State) : Host.Outcome State Fault Refusal :=
  issue c (.vsubL c vd va vb) (bodyVsubL c vd va vb) s

/-- VMUL.L (R152). -/
def bodyVmulL (c : CoreId) (vd va vb : Reg) : CM Flow := thenNext (vecOp c (.vmulL c vd va vb) vd va vb false
  fun _ a b _ => (a * b, 0))

def execVmulL (c : CoreId) (vd va vb : Reg) (s : State) : Host.Outcome State Fault Refusal :=
  issue c (.vmulL c vd va vb) (bodyVmulL c vd va vb) s

/-- VAND (R152). -/
def bodyVand (c : CoreId) (vd va vb : Reg) : CM Flow := thenNext (vecOp c (.vand c vd va vb) vd va vb false
  fun _ a b _ => (a &&& b, 0))

def execVand (c : CoreId) (vd va vb : Reg) (s : State) : Host.Outcome State Fault Refusal :=
  issue c (.vand c vd va vb) (bodyVand c vd va vb) s

/-- VOR (R152). -/
def bodyVor (c : CoreId) (vd va vb : Reg) : CM Flow := thenNext (vecOp c (.vor c vd va vb) vd va vb false
  fun _ a b _ => (a ||| b, 0))

def execVor (c : CoreId) (vd va vb : Reg) (s : State) : Host.Outcome State Fault Refusal :=
  issue c (.vor c vd va vb) (bodyVor c vd va vb) s

/-- VXOR (R152). -/
def bodyVxor (c : CoreId) (vd va vb : Reg) : CM Flow := thenNext (vecOp c (.vxor c vd va vb) vd va vb false
  fun _ a b _ => (a ^^^ b, 0))

def execVxor (c : CoreId) (vd va vb : Reg) (s : State) : Host.Outcome State Fault Refusal :=
  issue c (.vxor c vd va vb) (bodyVxor c vd va vb) s

/-! ## Between the register files (R152, 04 R93) -/

/-- The source of `VINS` and `VSPLAT` (05 Table 5.5). -/
def vecSource (c : CoreId) (ga : Reg) : CM W64 := do
  let w ← regC c ga 0
  if w.tag ≠ 0x00 ∧ w.tag ≠ 0x01 ∧ w.tag ≠ 0x06 then tagFault c 0x18 w.tag 0
  return w.payload

/-- Start an operation whose result is moved, not computed. -/
def vecMove (c : CoreId) (vd : Reg) (v : BitVec 256) : CM Unit :=
  startLong c { dest := .vreg vd, tag := 0, val := v, flags := 0, numeric := true, divider := false, zdiv := none }

/-- A vector with one lane replaced. -/
def setLane (v : BitVec 256) (l : Nat) (w : W64) : BitVec 256 :=
  ofLanes ((List.range 4).map fun i => if i = l then w else lane v i)

/-- Deliver a lane to a general register. -/
def vecExtract (c : CoreId) (i : Instr) (gd va : Reg) (l : Fin 4) (t : Byte) : CM Unit := do
  numericUse c i
  let k ← cget c
  startLong c { longGpr k gd ⟨t, lane (vget k va) l.val⟩ with numeric := true }

/-- VINS (R152). -/
def bodyVins (c : CoreId) (vd ga : Reg) (l : Fin 4) : CM Flow := thenNext do
  numericUse c (.vins c vd ga l)
  let w ← vecSource c ga
  vecMove c vd (setLane (vget (← cget c) vd) l.val w)

def execVins (c : CoreId) (vd ga : Reg) (l : Fin 4) (s : State) : Host.Outcome State Fault Refusal :=
  issue c (.vins c vd ga l) (bodyVins c vd ga l) s

/-- VEXT.F (R152). -/
def bodyVextF (c : CoreId) (gd va : Reg) (l : Fin 4) : CM Flow := thenNext (vecExtract c (.vextF c gd va l) gd va l 0x01)

def execVextF (c : CoreId) (gd va : Reg) (l : Fin 4) (s : State) : Host.Outcome State Fault Refusal :=
  issue c (.vextF c gd va l) (bodyVextF c gd va l) s

/-- VEXT.L (R152). -/
def bodyVextL (c : CoreId) (gd va : Reg) (l : Fin 4) : CM Flow := thenNext (vecExtract c (.vextL c gd va l) gd va l 0x00)

def execVextL (c : CoreId) (gd va : Reg) (l : Fin 4) (s : State) : Host.Outcome State Fault Refusal :=
  issue c (.vextL c gd va l) (bodyVextL c gd va l) s

/-- VSPLAT (R152). -/
def bodyVsplat (c : CoreId) (vd ga : Reg) : CM Flow := thenNext do
  numericUse c (.vsplat c vd ga)
  let w ← vecSource c ga
  vecMove c vd (ofLanes (List.replicate 4 w))

def execVsplat (c : CoreId) (vd ga : Reg) (s : State) : Host.Outcome State Fault Refusal :=
  issue c (.vsplat c vd ga) (bodyVsplat c vd ga) s

/-- NRDF (04 R93): every numeric operation in flight has completed (10 Table 10.3). -/
def bodyNrdf (c : CoreId) (gd : Reg) : CM Flow := thenNext do
  numericUse c (.nrdf c gd)
  setReg c gd (fix (← cget c).nfl)

def execNrdf (c : CoreId) (gd : Reg) (s : State) : Host.Outcome State Fault Refusal :=
  issue c (.nrdf c gd) (bodyNrdf c gd) s

/-- NWRF (04 R93). -/
def bodyNwrf (c : CoreId) (ga : Reg) : CM Flow := thenNext do
  numericUse c (.nwrf c ga)
  let w ← regC c ga 0
  cmod c fun k => { k with nfl := setFld k.nfl 0 5 (fld w.payload 0 5) }

def execNwrf (c : CoreId) (ga : Reg) (s : State) : Host.Outcome State Fault Refusal :=
  issue c (.nwrf c ga) (bodyNwrf c ga) s

/-! ## Arrays (R150, R151) -/

/-- The address of lane 0: base, index, header and bounds (R150). -/
def arrayAddr (c : CoreId) (ga gb : Reg) : CM W64 := do
  let a ← baseAddr c ga 0
  let w ← reg c ga
  let i ← regC c gb 1
  if i.tag ≠ 0x00 then tagFault c 0x14 i.tag 1
  if isHeaded w.tag then
    let h ← readHeader c a
    let n := i.payload.toInt
    if n < 0 ∨ (hdrLen h : Int) ≤ n + 3 then boundsFault c 0x03 a (hdrLen h) i.payload.toNat
    return va48 (a + 8 * (i.payload + 1))
  else return va48 (a + 8 * i.payload)

/-- Words `n`, counted down from 4, read and checked in ascending order (R151). -/
def arrayLoad (c : CoreId) (a : W64) (t : Byte) : Nat → CM (List W64)
  | 0 => pure []
  | n + 1 => do
    let l ← arrayLoad c a t n
    let ea ← alignedEa c (a + BitVec.ofNat 64 (8 * n))
    let x ← xlateData c ea .load (!isSys (← cget c))
    let w ← readWord c ea x
    rawLoadCheck c w ea
    if w.tag ≠ t then tagFaultAt c 0x17 w.tag 3 ea
    return l ++ [w.payload]

/-- `VLD` (R150, R151). -/
def vldOp (c : CoreId) (i : Instr) (vd ga gb : Reg) (t : Byte) : CM Unit := do
  numericUse c i
  let ws ← arrayLoad c (← arrayAddr c ga gb) t 4
  cmod c fun k => { k with v := k.v.set vd.val (ofLanes ws) vd.isLt }

/-- The stores of `VST`, checked in ascending order. -/
def arrayPlan (c : CoreId) (a : W64) (t : Byte) (v : BitVec 256) : Nat → CM (List Store)
  | 0 => pure []
  | n + 1 => do
    let l ← arrayPlan c a t v n
    let ea ← alignedEa c (a + BitVec.ofNat 64 (8 * n))
    let x ← xlateData c ea .store (!isSys (← cget c))
    cardCheck c ea x
    return l ++ [taggedStore ea x ⟨t, lane v n⟩]

/-- `VST` (R150, R151): no store barrier. -/
def vstOp (c : CoreId) (i : Instr) (vd ga gb : Reg) (t : Byte) : CM Unit := do
  numericUse c i
  let a ← arrayAddr c ga gb
  let k ← cget c
  commitStores c k.pc true [] (← arrayPlan c a t (vget k vd) 4)

/-- VLD.F (R151). -/
def bodyVldF (c : CoreId) (vd ga gb : Reg) : CM Flow := thenNext (vldOp c (.vldF c vd ga gb) vd ga gb 0x01)

def execVldF (c : CoreId) (vd ga gb : Reg) (s : State) : Host.Outcome State Fault Refusal :=
  issue c (.vldF c vd ga gb) (bodyVldF c vd ga gb) s

/-- VLD.B (R151). -/
def bodyVldB (c : CoreId) (vd ga gb : Reg) : CM Flow := thenNext (vldOp c (.vldB c vd ga gb) vd ga gb 0x06)

def execVldB (c : CoreId) (vd ga gb : Reg) (s : State) : Host.Outcome State Fault Refusal :=
  issue c (.vldB c vd ga gb) (bodyVldB c vd ga gb) s

/-- VST.F (R151). -/
def bodyVstF (c : CoreId) (vd ga gb : Reg) : CM Flow := thenNext (vstOp c (.vstF c vd ga gb) vd ga gb 0x01)

def execVstF (c : CoreId) (vd ga gb : Reg) (s : State) : Host.Outcome State Fault Refusal :=
  issue c (.vstF c vd ga gb) (bodyVstF c vd ga gb) s

/-- VST.B (R151). -/
def bodyVstB (c : CoreId) (vd ga gb : Reg) : CM Flow := thenNext (vstOp c (.vstB c vd ga gb) vd ga gb 0x06)

def execVstB (c : CoreId) (vd ga gb : Reg) (s : State) : Host.Outcome State Fault Refusal :=
  issue c (.vstB c vd ga gb) (bodyVstB c vd ga gb) s

end Sys2Proof.Machine
end

