-- ==== Sys2Proof/Machine/Tag.lean ====
section
/-! DEFINITION. The tag instructions (04 R95, 02 R50). -/

namespace Sys2Proof.Machine

/-- GTAG (04 R95). -/
def bodyGtag (c : CoreId) (gd ga : Reg) : CM Flow := thenNext do
  let w ← reg c ga
  setReg c gd (fix (w.tag.setWidth 64))

def execGtag (c : CoreId) (gd ga : Reg) (s : State) : Host.Outcome State Fault Refusal :=
  issue c (.gtag c gd ga) (bodyGtag c gd ga) s

/-- `StagCheck` (02 R50). -/
def stagCheck (c : CoreId) (w : Word) (t : Byte) : CM Unit := do
  consume c w 0
  if isReserved t then tagFault c 0x02 t 4
  let k ← cget c
  if (isPtr t || t == 0x08) && (!isSys k || !stFORGE k) then tagFault c 0x06 t 4
  if isPtr w.tag && !isSys k then tagFault c 0x04 w.tag 0

/-- STAG (04 R95). -/
def bodyStag (c : CoreId) (gd ga : Reg) (t : BitVec 8) : CM Flow := thenNext do
  let w ← reg c ga
  stagCheck c w t
  setReg c gd ⟨t, w.payload⟩

def execStag (c : CoreId) (gd ga : Reg) (t : BitVec 8) (s : State) : Host.Outcome State Fault Refusal :=
  issue c (.stag c gd ga t) (bodyStag c gd ga t) s

/-- TCLS (04 R95): reads only the tag of ga. -/
def bodyTcls (c : CoreId) (gd ga : Reg) : CM Flow := thenNext do
  let w ← reg c ga
  let n ← tagClass c w.tag
  setReg c gd (fix (BitVec.ofNat 64 n))

def execTcls (c : CoreId) (gd ga : Reg) (s : State) : Host.Outcome State Fault Refusal :=
  issue c (.tcls c gd ga) (bodyTcls c gd ga) s

end Sys2Proof.Machine
end

