-- ==== Sys2Proof/Machine/WeirOps.lean ====
section
/-! DEFINITION. The Weir instructions (08 R215 to R227): `RDT`, `WAITT`, `ARMT` and the group instructions. -/

namespace Sys2Proof.Machine

/-- RDT (R216). -/
def bodyRdt (c : CoreId) (gd : Reg) : CM Flow := thenNext do
  setReg c gd (fix (tickOf (← sget) (clusterOf c)))

def execRdt (c : CoreId) (gd : Reg) (s : State) : Host.Outcome State Fault Refusal :=
  issue c (.rdt c gd) (bodyRdt c gd) s

/-- WAITT (R217). -/
def bodyWaitt (c : CoreId) (ga : Reg) : CM Flow := thenNext do
  let w ← regC c ga 0
  if (tickOf (← sget) (clusterOf c)).toNat < w.payload.toNat then waitFor (.tick w.payload)

def execWaitt (c : CoreId) (ga : Reg) (s : State) : Host.Outcome State Fault Refusal :=
  issue c (.waitt c ga) (bodyWaitt c ga) s

/-- ARMT (R218). -/
def bodyArmt (c : CoreId) (ga : Reg) (n : Fin 4) : CM Flow := thenNext do
  let w ← regC c ga 0
  let k ← cget c
  let a := k.alarm.get n
  if !isSys k && !bit a 61 then raise c 0x03 0x10 0 0
  cmod c fun k => { k with
    alarm := k.alarm.set n.val (setFld (setFld a 0 60 (fld w.payload 0 60)) 60 3 (1 + 2 * (bit a 61).toNat)) n.isLt }

def execArmt (c : CoreId) (ga : Reg) (n : Fin 4) (s : State) : Host.Outcome State Fault Refusal :=
  issue c (.armt c ga n) (bodyArmt c ga n) s

/-! ## Group instructions (R220, Table 8.6) -/

/-- Whether a core may use a group (R220). -/
def mayUse (s : State) (c : CoreId) (g : GroupId) : Bool :=
  let e := groupOf s g
  let k := getCore s c
  e.valid && e.compart == k.compart && bit e.cores c.val && (isSys k || e.user)

/-- The group that an operand selects (R220). -/
def groupArg (c : CoreId) (w : Word) : CM GroupId := do
  let g : GroupId := Fin.ofNat 64 (fld w.payload 0 6)
  if !mayUse (← sget) c g then raise c 0x03 0x11 0 (BitVec.ofNat 64 g.val)
  return g

/-- The report of a failed group or of a mismatch. -/
def groupFault {α : Type} (c : CoreId) (g : GroupId) (sub : Byte) : CM α :=
  raise c 0x05 sub 0 (BitVec.ofNat 64 g.val)

def groupMismatch {α : Type} (c : CoreId) (g : GroupId) : CM α := do
  smod fun s => setMemberSt s g (coreKey c) .idle
  groupFault c g 0x11

/-- `BARW`, `BCST` and `RDUC`: join, wait, and take the result (Table 8.6). -/
def groupWait (c : CoreId) (g : GroupId) (a : GroupArrival) (done : Word → CM Unit) : CM Unit := do
  let m := memberOf (← sget) g (coreKey c)
  match m.st with
  | .idle => do
    smod fun s => joinGroup s g (coreKey c) a
    waitFor (.group g)
  | .arrived => waitFor (.group g)
  | .done => do
    smod fun s => setMemberSt s g (coreKey c) .idle
    done m.latch
  | .mismatch => groupMismatch c g
  | .failed => groupFault c g 0x10

/-- What a barrier joins with. -/
def barrierArrival : GroupArrival := { kind := some .barrier, senders := 0, word := fixZero }

/-- BARW (R221). -/
def bodyBarw (c : CoreId) (ga : Reg) : CM Flow := thenNext do
  let g ← groupArg c (← regC c ga 0)
  groupWait c g barrierArrival fun _ => pure ()

def execBarw (c : CoreId) (ga : Reg) (s : State) : Host.Outcome State Fault Refusal :=
  issue c (.barw c ga) (bodyBarw c ga) s

/-- BARA (R221). -/
def bodyBara (c : CoreId) (ga : Reg) : CM Flow := thenNext do
  let g ← groupArg c (← regC c ga 0)
  match (memberOf (← sget) g (coreKey c)).st with
  | .idle => smod fun s => joinGroup s g (coreKey c) barrierArrival
  | .arrived => pure ()
  | .done => smod fun s => joinGroup s g (coreKey c) barrierArrival
  | .mismatch => groupMismatch c g
  | .failed => groupFault c g 0x10

def execBara (c : CoreId) (ga : Reg) (s : State) : Host.Outcome State Fault Refusal :=
  issue c (.bara c ga) (bodyBara c ga) s

/-- What `BART` delivers (Table 8.6). -/
def bartCode : MemberState → W64
  | .idle => 0
  | .arrived => 1
  | .done => 2
  | .failed => 3
  | .mismatch => 4

/-- BART (R221). -/
def bodyBart (c : CoreId) (gd ga : Reg) : CM Flow := thenNext do
  let g ← groupArg c (← regC c ga 0)
  let st := (memberOf (← sget) g (coreKey c)).st
  if st == .done || st == .mismatch then smod fun s => setMemberSt s g (coreKey c) .idle
  setReg c gd (fix (bartCode st))

def execBart (c : CoreId) (gd ga : Reg) (s : State) : Host.Outcome State Fault Refusal :=
  issue c (.bart c gd ga) (bodyBart c gd ga) s

/-- BCST (R226): the sender's gb is moved whole; a receiver's is not read. -/
def bodyBcst (c : CoreId) (gd ga gb : Reg) : CM Flow := thenNext do
  let a ← regC c ga 0
  let g ← groupArg c a
  let sender := bit a.payload 6
  let w ← if sender then reg c gb else pure fixZero
  groupWait c g { kind := some .broadcast, senders := sender.toNat, word := w } (setReg c gd)

def execBcst (c : CoreId) (gd ga gb : Reg) (s : State) : Host.Outcome State Fault Refusal :=
  issue c (.bcst c gd ga gb) (bodyBcst c gd ga gb) s

/-- RDUC (R227). -/
def bodyRduc (c : CoreId) (gd ga gb : Reg) (f : BitVec 3) : CM Flow := thenNext do
  let a ← regC c ga 0
  let b ← regC c gb 1
  let g ← groupArg c a
  groupWait c g { kind := some (.reduce (Fin.ofNat 5 f.toNat)), senders := 0, word := fix b.payload } (setReg c gd)

def execRduc (c : CoreId) (gd ga gb : Reg) (f : BitVec 3) (s : State) : Host.Outcome State Fault Refusal :=
  issue c (.rduc c gd ga gb f) (bodyRduc c gd ga gb f) s

end Sys2Proof.Machine
end

