-- ==== Sys2Proof/Machine/Resume.lean ====
section
/-! DEFINITION. The operation of every instruction by its command, and what runs again when a wait of a core ends. -/

namespace Sys2Proof.Machine

/-- The operation of an instruction; a command that is no instruction of a core has none. -/
def bodyOf : Instr → CM Flow
  | .syscall c n => bodySyscall c n
  | .retx c => bodyRetx c
  | .isync c => bodyIsync c
  | .fenceL c => bodyFenceL c
  | .fenceS c => bodyFenceS c
  | .fenceA c => bodyFenceA c
  | .mfc c gd n => bodyMfc c gd n
  | .mtc c n ga => bodyMtc c n ga
  | .wdset c ga => bodyWdset c ga
  | .wdclr c ga => bodyWdclr c ga
  | .irouteWr c ga => bodyIrouteWr c ga
  | .swi c ga => bodySwi c ga
  | .swclr c ga => bodySwclr c ga
  | .mfb c gd r => bodyMfb c gd r
  | .mtb c r ga => bodyMtb c r ga
  | .invtlb c ga sel => bodyInvtlb c ga sel
  | .invtlbB c ga sel => bodyInvtlbB c ga sel
  | .halt c => bodyHalt c
  | .brk c n => bodyBrk c n
  | .dret c ga => bodyDret c ga
  | .add c gd ga gb => bodyAdd c gd ga gb
  | .sub c gd ga gb => bodySub c gd ga gb
  | .and c gd ga gb => bodyAnd c gd ga gb
  | .or c gd ga gb => bodyOr c gd ga gb
  | .xor c gd ga gb => bodyXor c gd ga gb
  | .shl c gd ga gb => bodyShl c gd ga gb
  | .shr c gd ga gb => bodyShr c gd ga gb
  | .sar c gd ga gb => bodySar c gd ga gb
  | .rol c gd ga gb => bodyRol c gd ga gb
  | .cmps c gd ga gb => bodyCmps c gd ga gb
  | .cmpu c gd ga gb => bodyCmpu c gd ga gb
  | .mul c gd ga gb => bodyMul c gd ga gb
  | .mulh c gd ga gb => bodyMulh c gd ga gb
  | .div c gd ga gb => bodyDiv c gd ga gb
  | .divu c gd ga gb => bodyDivu c gd ga gb
  | .rem c gd ga gb => bodyRem c gd ga gb
  | .remu c gd ga gb => bodyRemu c gd ga gb
  | .addi c gd imm => bodyAddi c gd imm
  | .andi c gd imm => bodyAndi c gd imm
  | .ori c gd imm => bodyOri c gd imm
  | .xori c gd imm => bodyXori c gd imm
  | .shli c gd imm => bodyShli c gd imm
  | .shri c gd imm => bodyShri c gd imm
  | .sari c gd imm => bodySari c gd imm
  | .movi c gd imm => bodyMovi c gd imm
  | .movhi c gd imm h => bodyMovhi c gd imm h
  | .gadd c gd ga b => bodyGadd c gd ga b
  | .gsub c gd ga b => bodyGsub c gd ga b
  | .gmul c gd ga b => bodyGmul c gd ga b
  | .gdiv c gd ga b => bodyGdiv c gd ga b
  | .gquo c gd ga b => bodyGquo c gd ga b
  | .grem c gd ga b => bodyGrem c gd ga b
  | .gneg c gd ga => bodyGneg c gd ga
  | .glt c gd ga b => bodyGlt c gd ga b
  | .gle c gd ga b => bodyGle c gd ga b
  | .geq c gd ga b => bodyGeq c gd ga b
  | .gcmp c gd ga b => bodyGcmp c gd ga b
  | .eq c gd ga b => bodyEq c gd ga b
  | .gtag c gd ga => bodyGtag c gd ga
  | .stag c gd ga t => bodyStag c gd ga t
  | .tcls c gd ga => bodyTcls c gd ga
  | .car c gd ga => bodyCar c gd ga
  | .cdr c gd ga => bodyCdr c gd ga
  | .cons c gd ga gb => bodyCons c gd ga gb
  | .rplaca c ga gb => bodyRplaca c ga gb
  | .rplacd c ga gb => bodyRplacd c ga gb
  | .lwalk c rep gd ga gb => bodyLwalk c rep gd ga gb
  | .alloc c gd ga p => bodyAlloc c gd ga p
  | .hdr c gd ga => bodyHdr c gd ga
  | .vref c gd ga gb => bodyVref c gd ga gb
  | .vset c gd ga gb => bodyVset c gd ga gb
  | .vlen c gd ga => bodyVlen c gd ga
  | .ldw c gd ga disp _ => bodyLdw c gd ga disp
  | .ldwNb c gd ga disp rsv => bodyLdwNb c gd ga disp rsv
  | .stw c gd ga disp _ => bodyStw c gd ga disp
  | .stwNb c gd ga disp rsv => bodyStwNb c gd ga disp rsv
  | .ldB c gd ga u disp => bodyLdB c gd ga u disp
  | .ldH c gd ga u disp => bodyLdH c gd ga u disp
  | .ldW c gd ga u disp => bodyLdW c gd ga u disp
  | .ldD c gd ga u disp => bodyLdD c gd ga u disp
  | .stB c gd ga disp => bodyStB c gd ga disp
  | .stH c gd ga disp => bodyStH c gd ga disp
  | .stW c gd ga disp => bodyStW c gd ga disp
  | .stD c gd ga disp => bodyStD c gd ga disp
  | .casw c gd ga gb => bodyCasw c gd ga gb
  | .movw c rep gd ga gb => bodyMovw c rep gd ga gb
  | .fillw c rep gd ga gb => bodyFillw c rep gd ga gb
  | .scanw c rep gd ga gb => bodyScanw c rep gd ga gb
  | .cmpw c rep gd ga gb => bodyCmpw c rep gd ga gb
  | .movb c rep gd ga gb => bodyMovb c rep gd ga gb
  | .pref c h ga disp => bodyPref c h ga disp
  | .beq c ga gb disp => bodyBeq c ga gb disp
  | .bne c ga gb disp => bodyBne c ga gb disp
  | .bnil c ga disp => bodyBnil c ga disp
  | .bnnil c ga disp => bodyBnnil c ga disp
  | .bz c ga disp => bodyBz c ga disp
  | .bnz c ga disp => bodyBnz c ga disp
  | .bltf c ga gb disp => bodyBltf c ga gb disp
  | .bgef c ga gb disp => bodyBgef c ga gb disp
  | .btag c ga t disp => bodyBtag c ga t disp
  | .bntag c ga t disp => bodyBntag c ga t disp
  | .bcls c ga k disp => bodyBcls c ga k disp
  | .jmp c disp => bodyJmp c disp
  | .call c disp => bodyCall c disp
  | .jr c ga => bodyJr c ga
  | .callr c ga => bodyCallr c ga
  | .ret c ga => bodyRet c ga
  | .rdt c gd => bodyRdt c gd
  | .waitt c ga => bodyWaitt c ga
  | .armt c ga n => bodyArmt c ga n
  | .barw c ga => bodyBarw c ga
  | .bara c ga => bodyBara c ga
  | .bart c gd ga => bodyBart c gd ga
  | .bcst c gd ga gb => bodyBcst c gd ga gb
  | .rduc c gd ga gb f => bodyRduc c gd ga gb f
  | .vaddD c vd va vb => bodyVaddD c vd va vb
  | .vsubD c vd va vb => bodyVsubD c vd va vb
  | .vmulD c vd va vb => bodyVmulD c vd va vb
  | .vdivD c vd va vb => bodyVdivD c vd va vb
  | .vfmaD c vd va vb => bodyVfmaD c vd va vb
  | .vsqrtD c vd va => bodyVsqrtD c vd va
  | .vminD c vd va vb => bodyVminD c vd va vb
  | .vmaxD c vd va vb => bodyVmaxD c vd va vb
  | .vcmpltD c vd va vb => bodyVcmpltD c vd va vb
  | .vcmpeqD c vd va vb => bodyVcmpeqD c vd va vb
  | .vcvtLd c vd va => bodyVcvtLd c vd va
  | .vcvtDl c vd va => bodyVcvtDl c vd va
  | .vaddL c vd va vb => bodyVaddL c vd va vb
  | .vsubL c vd va vb => bodyVsubL c vd va vb
  | .vmulL c vd va vb => bodyVmulL c vd va vb
  | .vand c vd va vb => bodyVand c vd va vb
  | .vor c vd va vb => bodyVor c vd va vb
  | .vxor c vd va vb => bodyVxor c vd va vb
  | .vldF c vd ga gb => bodyVldF c vd ga gb
  | .vldB c vd ga gb => bodyVldB c vd ga gb
  | .vstF c vd ga gb => bodyVstF c vd ga gb
  | .vstB c vd ga gb => bodyVstB c vd ga gb
  | .vins c vd ga l => bodyVins c vd ga l
  | .vextF c gd va l => bodyVextF c gd va l
  | .vextL c gd va l => bodyVextL c gd va l
  | .vsplat c vd ga => bodyVsplat c vd ga
  | .nrdf c gd => bodyNrdf c gd
  | .nwrf c ga => bodyNwrf c ga
  | _ => return {}

/-- What waited runs again, with the answers it has had; the marks that it pushed before are passed over as it comes to them. -/
def runAgain (c : CoreId) (s : State) : State :=
  match (getCore s c).wait with
  | none => s
  | some w =>
    let s := modCore s c fun k => { k with wait := none, replay := { k.replay with seen := 0 } }
    match w.resume with
    | .instr i => finish c i (bodyOf i) s
    | .entry e => runEntry c e s
    | .flip => flipRun c s
    | .snap => dumpRun c s

/-- A wait has ended: what waited runs again, unless a cause that ends the wait is due, which comes first (06 R161). -/
def resumeCore (c : CoreId) (s : State) : State :=
  if abandonable (getCore s c) then (takeDue c s).getD (runAgain c s) else runAgain c s

/-- What a core waits for. -/
def waitOf (s : State) (c : CoreId) : Option WaitFor := (getCore s c).wait.map (·.what)

/-- Resume every core whose wait satisfies a test. -/
def resumeWhere (p : CoreId → WaitFor → Bool) (s : State) : State :=
  allCores.foldl (fun s c => match waitOf s c with
    | some w => if p c w then resumeCore c s else s
    | none => s) s

end Sys2Proof.Machine
end

