-- ==== Sys2Proof/Machine/TimedActions.lean ====
section
/-! DEFINITION. Timed actions (08 R229 to R232): installs and the end of a post, what an action does as it falls due, the phase
flip (06 R166) and the snapshot stop (07 R200, R201). -/

namespace Sys2Proof.Machine

/-! ## Installing (R229) -/

/-- ACTION_INSTALL: a member device installs what another device posted, where it has an entry free. -/
def execActionInstall (a : ActionInstall) (s : State) : Host.Outcome State Fault Refusal :=
  let e := groupOf s a.group
  let lk := a.comp == 0 || lkOnly a.act
  let comp := if a.comp = 0 then e.compart else compNo a.comp
  if a.origin = s.devid.toFin ∨ !e.valid ∨ !ownMember s e ∨ e.compart ≠ comp then .next s
  else match entryFor s (compId comp) lk with
    | some i => .next (putAction s i { origin := a.origin, id := a.id, comp := comp, byLk := lk, act := a.act,
                                       group := BitVec.ofNat 6 a.group.val, arg := a.arg, tick := a.tick, order := 0, due := none })
    | none => .next s

/-- ACTION_CANCEL_FLOOD: a cancel that another device floods removes its install. -/
def execActionCancelFlood (d : DevId) (id : Nat) (s : State) : Host.Outcome State Fault Refusal :=
  .next (dropActions s fun x => x.origin == d && x.id == id && x.origin != s.devid.toFin)

/-- The end of a `WEIR_SCHEDULE` (15 R375): `OK`, with the post's result in `DETAIL`. -/
def schedEnd (r : State × ActPort) : State :=
  let s := r.1
  respond { s with weir := { s.weir with sched := none } } 0x00 r.2.result.toNat []

/-- ACTION_POST_COMPLETE (R229): the older of the posts in progress of a compartment, at its port or by the mailbox, ends. -/
def execActionPostComplete (p : CompId) (full failed : BitVec 16) (s : State) : Host.Outcome State Fault Refusal :=
  let a := getActPort s p
  match s.weir.sched with
  | some (q, b) =>
    if q = p ∧ b.busy ∧ !(a.busy && a.id < b.id) then .next (schedEnd (postEnd s full failed b))
    else if a.busy then .next (putPort p (postEnd s full failed a))
    else .next s
  | none => if a.busy then .next (putPort p (postEnd s full failed a)) else .next s

/-! ## Falling due (R230, R231) -/

/-- Whether every island that an action acts on has reached its tick: the hub alone for the timer channels. -/
def actionDue (s : State) (a : Action) : Bool :=
  if a.act = 5 ∨ a.act = 6 then hubDue s a else s.weir.tick.toList.all fun t => a.tick.toNat ≤ t.toNat

/-- The action of entry `e`, of the given code, where it falls due next; its entry is freed. -/
def takeAction (s : State) (e : Fin 32) (act : BitVec 4) : Option (Action × State) :=
  match actionAt s e with
  | none => none
  | some a =>
    if a.act == act && actionDue s a && s.weir.actions.all (fun b => !(actionDue s b.2 && actsBefore b.2 a)) then
      some (a, dropAction s e.val)
    else none

def actGroup (a : Action) : GroupId := Fin.ofNat 64 a.group.toNat

/-- Whether a core is neither held in reset nor stopped for good. -/
def isLive (k : Core) : Bool := k.run != .held && k.run != .locked && k.run != .stub

/-- The live core members of an action's group. -/
def liveMembers (s : State) (a : Action) : List CoreId :=
  allCores.filter fun c => bit (groupOf s (actGroup a)).cores c.val && isLive (getCore s c)

/-- The cores an action of a compartment reaches: the members and every core of the compartment. -/
def liveCores (s : State) (a : Action) : List CoreId :=
  allCores.filter fun c => (bit (groupOf s (actGroup a)).cores c.val || bit (getComp s (compId a.comp)).res.cores c.val)
    && isLive (getCore s c)

/-- SET_GOODCOL (R230, 06 R166): the flip becomes pending on the cores, and every engine has the new colour. -/
def execSetGoodcol (e : Fin 32) (s : State) : Host.Outcome State Fault Refusal :=
  match takeAction s e 1 with
  | none => .next s
  | some (a, s) =>
    let col := BitVec.ofNat 2 (fld a.arg 0 2)
    let s := (liveCores s a).foldl (fun s c => modCore s c fun k => { k with pend := { k.pend with flip := some col } }) s
    .next (allClusters.foldl (fun s k => modPerc s k (compId a.comp) fun x => { x with col := col }) s)

/-- GROUP_INTERRUPT (R230). -/
def execGroupInterrupt (e : Fin 32) (s : State) : Host.Outcome State Fault Refusal :=
  match takeAction s e 2 with
  | none => .next s
  | some (a, s) => .next ((liveMembers s a).foldl (fun s c =>
      modCore s c fun k => { k with irq := { k.irq with group := bvSet k.irq.group a.group.toNat true } }) s)

/-- START_CULVERT_CHANNEL (R230, 16 R396): nothing where the compartment does not hold the channel or is quiesced (16 R395). -/
def execStartCulvertChannel (e : Fin 32) (s : State) : Host.Outcome State Fault Refusal :=
  match takeAction s e 3 with
  | none => .next s
  | some (a, s) =>
    let n : ChanId := Fin.ofNat 64 (fld a.arg 0 6)
    if bit (getComp s (compId a.comp)).res.culvert n.val && !(getChan s n).stopped then
      let s := modChan s n fun h => { h with en := true, startTick := some (hubTick s) }
      .next (if cvLogOk (getChan s n) then s else cvRingError s n)
    else .next s

/-- START_PERCOLATOR_COMMAND (R230, 07 R180). -/
def execStartPercolatorCommand (e : Fin 32) (s : State) : Host.Outcome State Fault Refusal :=
  match takeAction s e 4 with
  | none => .next s
  | some (a, s) =>
    let p := compId a.comp
    let ks : List ClusterId := if bit a.arg 4 then allClusters.filter fun k => bit (groupOf s (actGroup a)).engmask k.val
                               else [Fin.ofNat 16 (fld a.arg 0 4)]
    .next (ks.foldl (fun s k => advanceTail s k p) s)

/-- START_TIMER_CHANNELS (R230, 14 R358): the start acts in the hub's tick, after its register writes. -/
def execStartTimerChannels (e : Fin 32) (s : State) : Host.Outcome State Fault Refusal :=
  match takeAction s e 5 with
  | none => .next s
  | some (a, s) => .next (actTimer s (e.val, a))

/-- STAGGER_TIMER_CHANNELS (R230, 14 R359). -/
def execStaggerTimerChannels (e : Fin 32) (s : State) : Host.Outcome State Fault Refusal :=
  match takeAction s e 6 with
  | none => .next s
  | some (a, s) => .next (actTimer s (e.val, a))

/-- COMPARTMENT_RESET (R230, R231, 15 R371): the abort starts; the compartment's other actions of this tick are discarded. -/
def execCompartmentReset (e : Fin 32) (s : State) : Host.Outcome State Fault Refusal :=
  match takeAction s e 8 with
  | none => .next s
  | some (a, s) =>
    let s := dropActions s fun b => hubDue s b && discards a b
    .next (startAbort s (compId a.comp) false true)

/-! ## The phase flip on a core (06 Table 6.5) -/

/-- A core whose halt or quiesce stands, or whose issue has stopped: it is at a boundary and issues nothing. -/
def standsStill (k : Core) (r : RunState) : Bool := k.run == r || k.run == .halted || k.run == .stopped

/-- Issue stops at the core's boundary, or out of a wait that it may abandon; then the mark buffer drains as far as the engine takes
it. -/
def stopIssue (s : State) (c : CoreId) (r : RunState) : State :=
  let s := if (getCore s c).run = .running then (takeDue c s).getD s else s
  if standsStill (getCore s c) r then drainMarks 16 s c else s

/-- PHASE_FLIP_STOP (06 R166 steps 2 and 3). -/
def execPhaseFlipStop (c : CoreId) (s : State) : Host.Outcome State Fault Refusal :=
  if (getCore s c).pend.flip.isSome then .next (stopIssue s c .flipStop) else .next s

/-- PHASE_FLIP_RESUME (06 R166 steps 4 and 5): once the mark buffer is empty and every heal write has completed. -/
def execPhaseFlipResume (c : CoreId) (s : State) : Host.Outcome State Fault Refusal :=
  let k := getCore s c
  if k.pend.flip.isSome ∧ standsStill k .flipStop ∧ k.wait.isNone ∧ k.mark.isEmpty ∧ !healing s c then .next (flipRun c s)
  else .next s

/-! ## The snapshot stop (07 R200, Table 7.8) -/

/-- SNAPSHOT_STOP: the regions become pending and the stop becomes pending on the cores of the group. What the compartment's cores have
stored so far is performed before the stop (06 R174). -/
def execSnapshotStop (e : Fin 32) (s : State) : Host.Outcome State Fault Refusal :=
  match takeAction s e 7 with
  | none => .next s
  | some (a, s) =>
    let p := compId a.comp
    let fromAfar : Snapshot :=
      { t := a.tick, base := Config.snapBase a.id, group := a.group, due := true, reported := false, seq := 0, copied := [] }
    let s := (compCores s p).foldl drainAll s
    let s := modComp s p fun x => { x with snap := some (match x.snap with
      | some y => if y.t = a.tick then { y with due := true, reported := false, copied := [] } else fromAfar
      | none => fromAfar) }
    .next ((liveMembers s a).foldl (fun s c =>
      modCore s c fun k => { k with pend := { k.pend with snap := true, snapTick := none } }) s)

/-- SNAPSHOT_CORE_STOP (steps 2 and 3): long operations complete, and what they report stays pending. -/
def execSnapshotCoreStop (c : CoreId) (s : State) : Host.Outcome State Fault Refusal :=
  let k := getCore s c
  if !(k.pend.snap && k.pend.snapTick.isNone) then .next s
  else
    let s := stopIssue s c .snapStop
    let k := getCore s c
    if standsStill k .snapStop ∧ k.pend.snapTick.isNone then
      let t := tickOf s (clusterOf c)
      .next (modCore s c fun k => completeAll { k with pend := { k.pend with snapTick := some t } })
    else .next s

/-- SNAPSHOT_DUMP (steps 4 to 6), once the mark buffer is empty and every heal write has completed. -/
def execSnapshotDump (c : CoreId) (s : State) : Host.Outcome State Fault Refusal :=
  let k := getCore s c
  if k.pend.snap ∧ k.pend.snapTick.isSome ∧ standsStill k .snapStop ∧ k.wait.isNone ∧ k.mark.isEmpty ∧ !healing s c then
    .next (dumpRun c s)
  else .next s

/-- SNAPSHOT_STOP_REPORT (08 R236, 15 Table 15.12): once every core of the stop has gone on. -/
def execSnapshotStopReport (p : CompId) (s : State) : Host.Outcome State Fault Refusal :=
  match (getComp s p).snap with
  | some x =>
    if x.due ∧ !x.reported ∧ (allCores.all fun c => !((getCore s c).compart == compNo p && isLive (getCore s c) && (getCore s c).pend.snap)) then
      let s := modComp s p fun y => { y with snap := some { x with reported := true } }
      .next (postEvent s 0x0004 p.val x.seq x.t)
    else .next s
  | none => .next s

end Sys2Proof.Machine
end

