-- ==== Sys2Proof/Machine/FlitBytes.lean ====
section
/-! DEFINITION. The bytes of a flit (17 R407, Tables 17.2 to 17.4): its header, address extension, body and trailer, little-endian, with
its CRC-32C. -/

namespace Sys2Proof.Machine

/-! ## CRC-32C (Table 17.3) -/

/-- One bit of the CRC, least significant bit first: the polynomial `0x1EDC_6F41` reversed. -/
def crcBit (c : Nat) : Nat := if c % 2 = 1 then (c / 2) ^^^ 0x82F63B78 else c / 2

def crcBits : Nat → Nat → Nat
  | 0, c => c
  | n + 1, c => crcBits n (crcBit c)

def crcByte (c : Nat) (b : Byte) : Nat := crcBits 8 (c ^^^ b.toNat)

/-- CRC-32C of bytes: it starts from all ones and is inverted at the end (log 56). -/
def crc32c (l : List Byte) : Nat := l.foldl crcByte 0xFFFFFFFF ^^^ 0xFFFFFFFF

/-! ## The parts of a flit -/

/-- Requests have an address extension (Table 17.4). -/
def isRequest (f : Flit) : Bool := f.typ.toNat ≤ 6

/-- The header (Table 17.2). -/
def flitHeader (f : Flit) : Nat :=
  f.typ.toNat + f.dst.toNat * 2 ^ 4 + f.src.toNat * 2 ^ 8 + f.compart.toNat * 2 ^ 12 + f.tid.toNat * 2 ^ 16 + f.hops.toNat * 2 ^ 28
    + f.bytemask.toNat * 2 ^ 32 + f.wmask.toNat * 2 ^ 40 + f.nline.toNat * 2 ^ 48 + f.bodytag.toNat * 2 ^ 51 + f.status.toNat * 2 ^ 52
    + f.cls.toNat * 2 ^ 56 + f.rsv.toNat * 2 ^ 57

/-- The address extension and the trailer below its `CRC` (Table 17.3). -/
def flitExt (f : Flit) : Nat := f.pa.toNat + f.paRsv.toNat * 2 ^ 44

def flitTrailer (f : Flit) : Nat := f.seq.toNat + f.ack.toNat * 2 ^ 12 + f.nak.toNat * 2 ^ 24 + f.trRsv.toNat * 2 ^ 25

/-- A body: words 9 bytes apart, padded with zero bytes to a multiple of 8; the numbers of a `MSG` as they stand, 8 bytes each. -/
def flitBody (f : Flit) : List Byte :=
  if f.typ = 9 then f.body.flatMap fun w => leBytes 8 w.payload.toNat
  else
    let b := f.body.flatMap fun w => leBytes 8 w.payload.toNat ++ [w.tag]
    b ++ List.replicate ((8 - b.length % 8) % 8) 0

/-- The bytes of a flit as a port sends it. -/
def flitBytes (f : Flit) : List Byte :=
  let b := leBytes 8 (flitHeader f) ++ (if isRequest f then leBytes 8 (flitExt f) else []) ++ flitBody f ++ leBytes 4 (flitTrailer f)
  b ++ leBytes 4 (crc32c b)

/-! ## Reading a flit -/

/-- `n` words of 9 bytes each. -/
def bodyWords : Nat → List Byte → List Word
  | 0, _ => []
  | n + 1, l => ⟨l.getD 8 0, BitVec.ofNat 64 (ofLe (l.take 8))⟩ :: bodyWords n (l.drop 9)

/-- `n` numbers of 8 bytes each. -/
def bodyNumbers : Nat → List Byte → List Word
  | 0, _ => []
  | n + 1, l => bytesW (BitVec.ofNat 64 (ofLe (l.take 8))) :: bodyNumbers n (l.drop 8)

/-- The fields of a flit's bytes; none where there are too few for it or its `CRC` does not check (R408). -/
def parseFlit (raw : List Byte) : Option Flit :=
  let h := ofLe (raw.take 8)
  let req := decide (h % 16 ≤ 6)
  let head := if req then 16 else 8
  let n := raw.length
  let tr := ofLe ((raw.drop (n - 8)).take 4)
  let f (i w : Nat) : Nat := h / 2 ^ i % 2 ^ w
  let ext := if req then ofLe ((raw.drop 8).take 8) else 0
  let mid := (raw.drop head).take (n - head - 8)
  if n < head + 8 ∨ n % 8 ≠ 0 ∨ ofLe (raw.drop (n - 4)) ≠ crc32c (raw.take (n - 4)) then none
  else some
    { typ := BitVec.ofNat 4 h, dst := BitVec.ofNat 4 (f 4 4), src := BitVec.ofNat 4 (f 8 4), compart := BitVec.ofNat 4 (f 12 4)
      tid := BitVec.ofNat 12 (f 16 12), hops := BitVec.ofNat 4 (f 28 4), bytemask := BitVec.ofNat 8 (f 32 8)
      wmask := BitVec.ofNat 8 (f 40 8), nline := BitVec.ofNat 3 (f 48 3), bodytag := f 51 1 == 1, status := BitVec.ofNat 4 (f 52 4)
      cls := f 56 1 == 1, rsv := BitVec.ofNat 7 (f 57 7), pa := BitVec.ofNat 44 ext, paRsv := BitVec.ofNat 20 (ext / 2 ^ 44)
      body := if h % 16 = 9 then bodyNumbers (mid.length / 8) mid else bodyWords (mid.length / 9) mid
      seq := BitVec.ofNat 12 tr, ack := BitVec.ofNat 12 (tr / 2 ^ 12), nak := tr / 2 ^ 24 % 2 == 1, trRsv := BitVec.ofNat 7 (tr / 2 ^ 25) }

end Sys2Proof.Machine
end

