-- ==== Sys2Proof/Machine/XitexHome.lean ====
section
/-! DEFINITION. Xitex as it receives (17): the link layer (R408, R409), requests of other devices performed at their home (R410,
R413; 16 R386), responses, timeouts and credits (R410, R411), and standby (01 R25). -/

namespace Sys2Proof.Machine

/-! ## The link layer (R408, R409) -/

/-- The flits that an `ACK` leaves in the replay buffer. -/
def afterAck (sent : List Flit) (ack : BitVec 12) : List Flit :=
  match sent.findIdx? fun f => f.seq == ack with
  | some i => sent.drop (i + 1)
  | none => sent

/-- A replay or a retrain is logged (18 Table 18.1 class 0x08, R427). -/
def logReplay (s : State) (x : PortId) : State := logCorrected s (32 + x.val) 0x08 0 x.val 0 0

def logProtocol (s : State) (x : PortId) : State := logErr s 0x08 1 0 x.val 0 5

/-- A port starts to retrain: its traffic waits. -/
def startRetrain (s : State) (x : PortId) : State := logReplay (modPort s x fun p => { p with retrain := true }) x

/-- The flits of the replay buffer as they go out again: with the trailer's `ACK` and `NAK` as the port has them now. -/
def replayed (p : Port) : Port :=
  match p.sent with
  | [] => p
  | f :: r => { p with sent := { f with ack := p.rxSeq - 1, nak := p.nak } :: r.map fun g => { g with ack := p.rxSeq - 1, nak := false }
                       nak := false }

/-- What the trailer of a good flit says: flits acknowledged leave the replay buffer, and those that had no room there go out; a `NAK`
replays the rest, and the eighth failure of one flit in a row starts a retrain. -/
def takeTrailer (s : State) (x : PortId) (ack : BitVec 12) (nak : Bool) : State :=
  let old := (getPort s x).sent
  let sent := afterAck old ack
  let s := modPort s x fun p => { p with sent := sent, fails := if sent.length < old.length then 0 else p.fails }
  if nak && !sent.isEmpty then
    let s := logReplay (modPort s x fun p => replayed { p with fails := p.fails + 1 }) x
    if 8 ≤ (getPort s x).fails then startRetrain s x else flushQueue s x
  else flushQueue s x

/-- A response to the flit of a request, on the port that it came by (R405). -/
def reply (s : State) (x : PortId) (f : Flit) (typ status : BitVec 4) (body : List Word) : State :=
  sendFlit s x { newFlit s typ f.src f.compart (hopsVia s x f.src) with
    tid := f.tid, status := status, bodytag := !body.isEmpty, cls := f.cls, pa := 0, body := body }

/-- Whether a flit answers a request (Table 17.4). -/
def isResponse (f : Flit) : Bool := f.typ == 7 || f.typ == 8

/-- The record of a relayed request that a flit belongs to. -/
def relayOf (s : State) (src : BitVec 4) (tid : BitVec 12) : Option Relay :=
  s.xitex.relays.find? fun r => r.src == src && r.tid == tid

/-- A relay notes by which port a request came; the response takes the note with it. -/
def noteRelay (s : State) (x : PortId) (f : Flit) : State :=
  let others (d : BitVec 4) : List Relay := s.xitex.relays.filter fun r => !(r.src == d && r.tid == f.tid)
  if isRequest f then { s with xitex := { s.xitex with relays := others f.src ++ [{ src := f.src, tid := f.tid, port := x }] } }
  else if isResponse f then { s with xitex := { s.xitex with relays := others f.dst } }
  else s

/-- The port by which a relay passes a flit on, and the hops that remain: a response goes back by the port that its request came by. -/
def relayPort (s : State) (x : PortId) (f : Flit) : Option (PortId × Nat) :=
  match (if isResponse f then relayOf s f.dst f.tid else none) with
  | some r => some (r.port, f.hops.toNat - 1)
  | none => onward s x f

/-- A flit for another device goes on its way (R405). -/
def relay (s : State) (x : PortId) (f : Flit) : State :=
  match relayPort s x f with
  | some (y, hops) => sendFlit (noteRelay s x f) y { f with hops := BitVec.ofNat 4 hops }
  | none => s

/-- Whether a flit breaks the protocol: a reserved `TYPE` or a RSV bit that is not zero (Table 17.5). -/
def malformed (f : Flit) : Bool := f.rsv != 0 || f.trRsv != 0 || (isRequest f && f.paRsv != 0) || decide (0x0A ≤ f.typ.toNat)

/-- A flit that is accepted: relayed, refused, or put before the unit that it is for (R405, R407, Table 17.5). -/
def acceptFlit (s : State) (x : PortId) (f : Flit) : State :=
  if malformed f ∨ (f.dst ≠ s.devid ∧ f.hops = 0) then
    let s := logProtocol s x
    if isRequest f ∨ 0x0A ≤ f.typ.toNat then reply s x f 0x8 5 [] else s
  else if f.dst = s.devid then { s with xitex := { s.xitex with rxq := s.xitex.rxq ++ [(x, f)] } }
  else relay s x f

/-- A flit that cannot be accepted: the port owes a `NAK`, which goes out in the trailer of its next flit (R408). -/
def owesNak (s : State) (x : PortId) : State := modPort s x fun p => { p with nak := true }

/-- FLIT_RECEIVE (R408): the bytes of a flit, and those of its trailer. One whose `CRC` checks and whose `SEQ` is the next one is accepted;
any other is refused. -/
def execFlitReceive (x : PortId) (body trailer : List Byte) (s : State) : Host.Outcome State Fault Refusal :=
  let p := getPort s x
  if !p.trained ∨ p.down then .next s
  else match parseFlit (body ++ trailer) with
    | none => .next (owesNak s x)
    | some f =>
      let s := takeTrailer s x f.ack f.nak
      if f.seq = p.rxSeq then .next (acceptFlit (modPort s x fun p => { p with rxSeq := p.rxSeq + 1, nak := false }) x f)
      else .next (owesNak s x)

/-- ACK_TIMEOUT (R409). -/
def execAckTimeout (x : PortId) (s : State) : Host.Outcome State Fault Refusal :=
  let p := getPort s x
  if p.trained ∧ !p.down ∧ !p.retrain ∧ (!p.sent.isEmpty ∨ 8 ≤ p.fails) then .next (startRetrain s x) else .next s

/-! ## The end of a request at the requester (R410) -/

/-- The key under which an answer is kept for the instruction that waits. -/
def answerKey (r : Remote) : BitVec 44 :=
  wordPa r.pa + (if r.typ.toNat < 3 then 0 else if r.typ = 6 then 2 else 1)

/-- The result code that an engine takes from the end of a request (Table 17.5): 0, `FENCE` or `BUS_ERROR` (07 Table 7.5). -/
def engineCode (status : Nat) (a : Option (List Word)) : Byte := if a.isSome then 0 else if status = 2 then 0x08 else 0x06

/-- The answer to a request of an engine's unit, and what waits for it alone: a copy under a claim (07 R194), or
of a card ahead of a write, goes on. -/
def deliverEngine (s : State) (k : ClusterId) (u : EngUnit) (r : Remote) (status : Nat) (a : Option (List Word)) : State :=
  let mine (g : EngGot) : Bool := g.unit == u && g.comp == r.comp && g.ans.isNone && match g.ask with
    | .access typ pa _ _ _ => typ == r.typ && pa == r.pa
    | _ => false
  match (getEng s k).got.find? mine with
  | none => s
  | some g =>
    let s := gotAnswer s k g.no (engineCode status a) (a.getD [])
    match u with
    | .copy slot => match copyAt? s k slot with
      | some c => match copyGo k (compId c.comp) c s with
        | .ok _ t => t
        | .error _ t => t
      | none => s
    | .guard => guardsGo s k
    | _ => s

/-- The answer to a request of a channel: the words that it has read, or the result with which its descriptor ends. -/
def deliverChan (s : State) (n : ChanId) (status : Nat) (a : Option (List Word)) : State :=
  modChan s n fun h => { h with run := h.run.map fun x => match a with
    | some ws => if x.ask.isSome && !ws.isEmpty then { x with got := some ws } else x
    | none => { x with result := some (if status = 2 then 2 else 3) } }

/-- An answer reaches the unit that waits for it: words, or none for an error; one that no longer waits discards it. -/
def deliver (s : State) (tid : Nat) (r : Remote) (status : Nat) (a : Option (List Word)) : State :=
  match r.user with
  | .core c =>
    if waitOf s c = some (.remote (BitVec.ofNat 12 tid)) then
      resumeCore c (modCore s c fun k =>
        { k with replay := { k.replay with remote := k.replay.remote ++ [(answerKey r, a)] } })
    else s
  | .chan n => deliverChan s n status a
  | .engine k u => deliverEngine s k u r status a
  | .sq _ => s
  | .heal _ => s

def dropTid (s : State) (tid : Nat) : State :=
  { s with xitex := { s.xitex with outstanding := smDel s.xitex.outstanding tid } }

/-- A request fails as a bus error. -/
def failRemote (s : State) (tid : Nat) : State :=
  match smGet? s.xitex.outstanding tid with
  | some r => deliver (dropTid s tid) tid r 3 none
  | none => s

/-- A word as the requester receives it: `POISON` comes with `SRC` = 0x02 (R413, 02 R58). -/
def received (w : Word) : Word := if w.tag = 0x08 then ⟨0x08, setFld w.payload 48 8 2⟩ else w

/-- What a response answers (Table 17.5). -/
def responseOf (r : Remote) (f : Flit) : Option (List Word) :=
  if r.typ = 6 then
    (if f.status = 0 then some [trueW] else if f.status = 1 then some [falseW] else none)
  else if f.status = 0 then some (f.body.map received)
  else none

/-- The units that take the flits of a device: requests in the order in which they came, and so responses and messages, each past the
others. -/
def flitClass (typ : BitVec 4) : Nat := if typ.toNat ≤ 6 then 0 else if typ = 9 then 2 else 1

/-- Take the first of the flits received that its unit takes, where it is of a type. -/
def takeFlit (s : State) (typ : BitVec 4) : Option (PortId × Flit × State) :=
  match s.xitex.rxq.findIdx? fun r => flitClass r.2.typ == flitClass typ with
  | some i => match s.xitex.rxq[i]? with
    | some (x, f) => if f.typ = typ then some (x, f, { s with xitex := { s.xitex with rxq := s.xitex.rxq.eraseIdx i } }) else none
    | none => none
  | none => none

/-- A response ends its request, one from a relay among them (Table 17.5); one that comes too late is discarded. -/
def takeResponse (s : State) (typ : BitVec 4) : State :=
  match takeFlit s typ with
  | none => s
  | some (x, f, s) =>
    let s := if f.status = 5 then logProtocol s x else s
    match smGet? s.xitex.outstanding f.tid.toNat with
    | some r =>
      if paDev r.pa = f.src ∨ f.status = 5 then deliver (dropTid s f.tid.toNat) f.tid.toNat r f.status.toNat (responseOf r f) else s
    | none => s

/-- RESP_DATA (R410). -/
def execRespData (s : State) : Host.Outcome State Fault Refusal := .next (takeResponse s 0x7)

/-- RESP_ACK (R410). -/
def execRespAck (s : State) : Host.Outcome State Fault Refusal := .next (takeResponse s 0x8)

/-- REMOTE_REQUEST_TIMEOUT (R410): 100 µs after it was issued. -/
def execRemoteRequestTimeout (tid : BitVec 12) (s : State) : Host.Outcome State Fault Refusal :=
  match smGet? s.xitex.outstanding tid.toNat with
  | some r => .next (if r.issued + 100000 ≤ s.now then failRemote s tid.toNat else s)
  | none => .next s

/-- CREDIT_FREE (R411, R412): requests that wait for a credit are tried again. -/
def execCreditFree (x : PortId) (s : State) : Host.Outcome State Fault Refusal :=
  let free (c : CoreId) : Bool :=
    let comp := (getCore s c).compart
    decide (creditsUsed s comp x < creditsHeld s comp x)
  .next (resumeWhere (fun c w => w == .credit && free c) s)

/-- MSG (R407, Table 17.4): a message arrives. What engines of other devices say is carried out here; what the Weir and the Lockkeepers say
is the command of its own that carries it out. -/
def execMsg (s : State) : Host.Outcome State Fault Refusal :=
  match takeFlit s 0x9 with
  | some (_, f, t) => .next (engineMessage t f.src f.compart (f.body.map (·.payload)))
  | none => .next s

/-! ## A port that goes down (R409) -/

/-- A flit that a port down had still to send moves to another route; a request of this device without one fails. -/
def reroute (s : State) (f : Flit) : State :=
  let own := isRequest f && f.src == s.devid
  match firstHop s f.dst f.pa with
  | some (y, hops) =>
    let out := match smGet? s.xitex.outstanding f.tid.toNat with
      | some r => if own then smSet s.xitex.outstanding f.tid.toNat { r with port := y } else s.xitex.outstanding
      | none => s.xitex.outstanding
    sendFlit { s with xitex := { s.xitex with outstanding := out } } y { f with hops := BitVec.ofNat 4 hops }
  | none => if own then failRemote s f.tid.toNat else s

/-- A port goes down: its unacknowledged flits are discarded, and `LINK_DOWN` is posted. -/
def portDown (s : State) (x : PortId) : State :=
  let q := (getPort s x).queued
  let s := modPort s x fun p => { p with
    down := true, retrain := false, training := false, standby := false, waking := false, sent := [], queued := [], fails := 0 }
  let s := logErr s 0x08 1 0 x.val 0 0
  let s := postEvent s 0x0009 0 0 (BitVec.ofNat 64 x.val)
  q.foldl reroute s

/-- LINK_RETRAIN_COMPLETE (R409). -/
def execLinkRetrainComplete (x : PortId) (ok : Bool) (s : State) : Host.Outcome State Fault Refusal :=
  if !(getPort s x).retrain then .next s
  else if ok then .next (flushQueue (modPort s x fun p => { p with retrain := false, fails := 0 }) x)
  else .next (portDown s x)

/-! ## Standby (01 R25) -/

/-- Whether every compartment that holds credits on a port has requested standby. -/
def standbyAgreed (s : State) (x : PortId) : Bool :=
  allComps.all fun p => creditsHeld s (compNo p) x == 0 || bit (getComp s p).res.modes 2

/-- STANDBY_ENTRY. -/
def execStandbyEntry (x : PortId) (s : State) : Host.Outcome State Fault Refusal :=
  let p := getPort s x
  if canSend p ∧ p.sent.isEmpty ∧ p.queued.isEmpty ∧ standbyAgreed s x then
    .next (modPort s x fun p => { p with standby := true })
  else .next s

/-- STANDBY_WAKE: traffic waits for the port. -/
def execStandbyWake (x : PortId) (s : State) : Host.Outcome State Fault Refusal :=
  let p := getPort s x
  if p.standby ∧ !p.queued.isEmpty then .next (modPort s x fun p => { p with standby := false, waking := true })
  else .next s

/-- STANDBY_WAKE_COMPLETE. -/
def execStandbyWakeComplete (x : PortId) (s : State) : Host.Outcome State Fault Refusal :=
  if (getPort s x).waking then .next (flushQueue (modPort s x fun p => { p with waking := false }) x) else .next s

/-! ## Requests performed at their home (R410, R413) -/

/-- Whether a device may act for a compartment here (16 R386). -/
def deviceMay (s : State) (comp d : BitVec 4) : Bool :=
  comp == 0 || match (getComp s (compId comp)).res.home with
    | some g => (groupOf s g).valid && bit (groupOf s g).devmask d.toNat
    | none => false

/-- The status with which `n` words from an address are refused, if they are (16 R385, R386, R402; Table 17.5). -/
def homeStatus (s : State) (f : Flit) (n : Nat) : Option (BitVec 4) :=
  let last := f.pa + BitVec.ofNat 44 (8 * (n - 1))
  let gone (q : BitVec 4) : Bool :=
    (getComp s (compId q)).st == .aborting || (getComp s (compId q)).st == .aborted
  match classify s f.pa, classify s last with
  | .dram a, .dram b =>
    if !installed s a || !installed s b then some 3
    else if f.compart ≠ 0 ∧ (ownerAt s a ≠ f.compart ∨ ownerAt s b ≠ f.compart) then some 2
    else if f.compart ≠ 0 ∧ gone f.compart then some 4
    else none
  | _, _ => some 3

/-- Take a request of a type, with the words that it is for; refused ones are answered. -/
def takeRequest (s : State) (typ : BitVec 4) (n : Flit → Nat) : Option (PortId × Flit) × State :=
  match takeFlit s typ with
  | none => (none, s)
  | some (x, f, s) =>
    if !deviceMay s f.compart f.src then
      (none, reply (logErr s 0x0C 1 f.compart.toNat f.src.toNat (f.pa.setWidth 64) 2) x f 0x8 2 [])
    else match homeStatus s f (n f) with
      | some st => (none, reply s x f 0x8 st [])
      | none => (some (x, f), s)

/-- Read words at the home. -/
def homeRead (s : State) (pa : BitVec 44) : Nat → List Word × State
  | 0 => ([], s)
  | n + 1 =>
    let (w, s) := wordRead pa s
    let (l, s) := homeRead s (pa + 8) n
    (w :: l, s)

def bulkLines (f : Flit) : Nat := f.nline.toNat + 1

/-- The line that a line or bulk request names. -/
def lineBase (f : Flit) : BitVec 44 := f.pa &&& ~~~63#44

def serveRead (s : State) (typ : BitVec 4) (n : Flit → Nat) (base : Flit → BitVec 44) : State :=
  match takeRequest s typ n with
  | (some (x, f), s) =>
    let (ws, s) := homeRead s (base f) (n f)
    reply s x f 0x7 0 ws
  | (none, s) => s

/-- RD_WORD (R413). -/
def execRdWord (s : State) : Host.Outcome State Fault Refusal :=
  .next (serveRead s 0x0 (fun _ => 1) fun f => wordPa f.pa)

/-- RD_LINE (R413). -/
def execRdLine (s : State) : Host.Outcome State Fault Refusal := .next (serveRead s 0x1 (fun _ => 8) lineBase)

/-- RD_BULK (R413). -/
def execRdBulk (s : State) : Host.Outcome State Fault Refusal :=
  .next (serveRead s 0x2 (fun f => 8 * bulkLines f) lineBase)

/-- The tag row of 02 Table 2.9 for a raw write that another device sends: whether it may land on a word. A flit does not say at which
privilege its core ran, so the column of a pointer target is free (log 57). -/
def rawLands (sys : Bool) (old : Word) (mask : Byte) : Bool :=
  !isReserved old.tag && (sys || !isPtr old.tag) && (old.tag != 0x08 || mask == 0xFF)

/-- One write at the home, card-checked (06 R172): it is done, refused with a status where the card cannot be copied or a raw write may not
land, or waits for the copy. DESIGN CHOICE (log 57): that status is 3; Table 17.5 names none. -/
def homeWrite (comp : BitVec 4) (w : WordWrite) (s : State) : EngOut Unit :=
  let (old, s) := if w.tagged then (uninit, s) else wordRead w.pa s
  let (n, s) := if !w.tagged && isPtr old.tag then fresh s else (0, s)
  if !w.tagged && !rawLands (Config.rawSystem n) old w.mask then .stop 3 s
  else match cardService s (compId comp) w.pa with
    | .done _ t => .done () (memStore t [w])
    | .stop _ t => .stop 3 t
    | .wait t => .wait t

/-- Writes in order; the status they end with. -/
def homeWrites (comp : BitVec 4) : List WordWrite → State → EngOut Unit
  | [], s => .done () s
  | w :: r, s => match homeWrite comp w s with
    | .done _ t => homeWrites comp r t
    | .stop n t => .stop n t
    | .wait t => .wait t

/-- A request that waits for a card's copy stays the first of those received, and is taken again (06 R173). -/
def stays (s : State) (x : PortId) (f : Flit) : State := { s with xitex := { s.xitex with rxq := (x, f) :: s.xitex.rxq } }

/-- The response to writes. -/
def ackWrites (x : PortId) (f : Flit) : EngOut Unit → State
  | .done _ t => reply t x f 0x8 0 []
  | .stop n t => reply t x f 0x8 (n.setWidth 4) []
  | .wait t => stays t x f

def serveWrite (s : State) (typ : BitVec 4) (n : Flit → Nat) (writes : Flit → List WordWrite) : State :=
  match takeRequest s typ n with
  | (some (x, f), s) => ackWrites x f (homeWrites f.compart (writes f) s)
  | (none, s) => s

/-- The whole-word writes of a body from a line on, those that a mask keeps. -/
def bodyWrites (f : Flit) (keep : Nat → Bool) : List WordWrite :=
  (List.range f.body.length).filterMap fun i =>
    if keep i then some (wholeWrite (lineBase f + BitVec.ofNat 44 (8 * i)) (f.body.getD i uninit)) else none

/-- WR_WORD (R413): a whole tagged word, or the bytes of a raw store. -/
def execWrWord (s : State) : Host.Outcome State Fault Refusal :=
  .next (serveWrite s 0x3 (fun _ => 1) fun f =>
    [{ pa := wordPa f.pa, mask := f.bytemask, w := f.body.headD uninit, tagged := f.bodytag }])

/-- WR_LINE (R413). -/
def execWrLine (s : State) : Host.Outcome State Fault Refusal :=
  .next (serveWrite s 0x4 (fun _ => 8) fun f => bodyWrites f fun i => i < 8 && bit f.wmask i)

/-- WR_BULK (R413). -/
def execWrBulk (s : State) : Host.Outcome State Fault Refusal :=
  .next (serveWrite s 0x5 (fun f => 8 * bulkLines f) fun f => bodyWrites f fun i => i < 8 * bulkLines f)

/-- The cluster whose L2 holds a line at its home as a compare-and-swap is performed: one that has it, else that of the region's engine
(log 57). -/
def casCluster (s : State) (pa : BitVec 44) : ClusterId := ((holders s (lineOf pa)).head?).getD (homeEngine pa)

/-- The word of a compare-and-swap from the home's L2, which obtains the line in E or M (12 R314). -/
def casRead (s : State) (f : Flit) (pa : BitVec 44) : Word × State :=
  let k := casCluster s pa
  let (ws, s) := l2Fill k (compWays s k f.compart) (lineOf pa) true .demand s
  (ws.getD (fld pa 3 3) uninit, s)

/-- CAS (R413): the word is compared on all its 72 bits, and replaced where it is as expected. DESIGN CHOICE (log 57): a `CASW` and a heal
are compared alike; Table 17.4 does not say how. -/
def execCas (s : State) : Host.Outcome State Fault Refusal :=
  match takeRequest s 0x6 (fun _ => 1) with
  | (some (x, f), s) =>
    let pa := wordPa f.pa
    let (old, s) := casRead s f pa
    if f.body[0]? = some old then .next (ackWrites x f (homeWrites f.compart [wholeWrite pa (f.body.getD 1 uninit)] s))
    else .next (reply s x f 0x8 1 [])
  | (none, s) => .next s

end Sys2Proof.Machine
end

