-- ==== Sys2Proof/Machine/Compartment.lean ====
section
/-! DEFINITION. The life of a compartment (15 R369, R370; 16 R379 to R384, R395, R401): what the mailbox commands that create,
load, start, quiesce and destroy it do, and the events that follow them. A command here works on the arguments in the command
buffer, with the executing command recorded. -/

namespace Sys2Proof.Machine

/-! ## COMPARTMENT_CREATE (15 Table 15.8, 16 R381) -/

def crCores (s : State) : BitVec 128 := BitVec.ofNat 128 (argN s 0 16)
def crL2 (s : State) (k : ClusterId) : Nat := argN s (16 + k.val) 1
def crCarafe (s : State) (k : ClusterId) : Nat := argN s (32 + k.val) 1
def crGib (s : State) : Nat := argN s 48 4
def crIlv (s : State) : Bool := argN s 52 1 == 1
def crChmask (s : State) : Byte := BitVec.ofNat 8 (argN s 53 1)
def crShare (s : State) : Nat := argN s 54 1
def crCred (s : State) (x : PortId) : Nat := argN s (56 + x.val) 1
def crGroups (s : State) : Nat := argN s 74 1

/-- Whether a core of the request lies in a cluster. -/
def crHas (s : State) (k : ClusterId) : Bool := (List.finRange 8).any fun j => bit (crCores s) (coreOf k j).val

/-- Whether a request is malformed (R381). -/
def createBad (s : State) : Bool :=
  crCores s == 0
    || allClusters.any (fun k => (crHas s k && crL2 s k == 0) || decide (16 < crL2 s k + crCarafe s k)
        || decide (8 < crCarafe s k))
    || crShare s == 0 || decide (16 < crShare s)
    || decide (1 < argN s 52 1) || (crIlv s == (crChmask s == 0))
    || crGib s == 0 || decide (63 < crGroups s) || decide (8 ≤ argN s 55 1)
    || (List.finRange 8).any (fun x => decide (64 < crCred s x)) || argN s 75 5 != 0

/-- The cache ways of a cluster that compartments hold. -/
def heldWays (s : State) (k : ClusterId) : BitVec 16 := (l2Of s k).ways.foldl (fun m w => m ||| w.2) 0

/-- The free Carafe ways that a request reuses: those with `OWN` = 0, lowest first (Table 16.2). -/
def reuseWays (s : State) (k : ClusterId) : List Nat :=
  ((List.range (l2Of s k).carafeN.toNat).filter fun j => carafeOwner (l2Of s k) j == 0).take (crCarafe s k)

/-- `L2_CARAFE.N` after a request. -/
def grownN (s : State) (k : ClusterId) : Nat := (l2Of s k).carafeN.toNat + (crCarafe s k - (reuseWays s k).length)

/-- Whether a cluster cannot give the Carafe ways (Table 16.2). -/
def carafeShort (s : State) (k : ClusterId) : Bool :=
  let n := (l2Of s k).carafeN.toNat
  decide (8 < grownN s k) || decide (16 < popcount (heldWays s k) + crL2 s k + grownN s k)
    || (List.range (grownN s k - n)).any (fun j => bit (heldWays s k) (8 + n + j))

/-- The 1 GiB units without an owner, lowest first. -/
def freeUnits (s : State) : List Nat := (List.range s.dram.units).filter fun u => (smGet? s.dram.owner u).isNone

/-- Whether a compartment holds anything. -/
def holds (s : State) (q : CompId) : Bool := q != 0 && (getComp s q).st != .empty

/-- Whether memory falls short: of units, or of the capacity of the channels (R387). -/
def memShort (s : State) : Bool :=
  decide ((freeUnits s).length < crGib s)
    || (crIlv s && decide (popcount (crChmask s) * s.dram.units / 8 < crGib s))

/-- The channel conditions of R387. -/
def ilvShort (s : State) : Bool :=
  allComps.any fun q => holds s q &&
    (if crIlv s then !(getComp s q).res.ilv || ((getComp s q).res.chmask &&& crChmask s) != 0 else (getComp s q).res.ilv)

/-- The sixteenths of engine `k` that compartments hold. -/
def shareUsed (s : State) (k : ClusterId) : Nat := (allComps.map (percShare s k)).foldl (· + ·) 0

/-- The groups that no compartment holds and no entry uses. -/
def freeGroups (s : State) : List GroupId :=
  (List.finRange 64).filter fun g => !(groupOf s g).valid && !allComps.any fun q => bit (getComp s q).res.groups g.val

/-- The first field of Table 15.8 whose pool falls short. -/
def createShort (s : State) : Option Nat :=
  let any (f : Resources → Bool) : Bool := allComps.any fun q => f (getComp s q).res
  let cores := bitsSet (crCores s)
  if any (fun r => (r.cores &&& crCores s) != 0) || cores.any (fun c => (getCore s (Fin.ofNat 128 c)).mcHeld) then some 0
  else if allClusters.any (fun k =>
      decide (16 < popcount (heldWays s k) + crL2 s k + (l2Of s k).carafeN.toNat)) then some 16
  else if allClusters.any (carafeShort s) then some 32
  else if memShort s then some 48
  else if ilvShort s then some 52
  else if allClusters.any (fun k => crHas s k && decide (16 < shareUsed s k + crShare s)) then some 54
  else if (List.finRange 8).any (fun x =>
      decide (64 < (allComps.map fun q => creditsHeld s (compNo q) x).foldl (· + ·) (crCred s x))) then some 56
  else if any (fun r => (r.culvert &&& BitVec.ofNat 64 (argN s 64 8)) != 0) then some 64
  else if any (fun r => (r.timers &&& BitVec.ofNat 16 (argN s 72 2)) != 0) then some 72
  else if (freeGroups s).length < crGroups s + 1 then some 74
  else none

/-- A mask from the numbers of its bits. -/
def maskOf (n : Nat) (l : List Nat) : BitVec n := l.foldl (fun m i => bvSet m i true) 0

/-- The Carafe and the cache ways of one cluster are taken, Carafe first (Table 16.2). -/
def takeWays (s : State) (p : CompId) (k : ClusterId) : State :=
  let n := (l2Of s k).carafeN.toNat
  let mine := reuseWays s k ++ (List.range (grownN s k - n)).map (n + ·)
  let free := (List.range 16).filter fun w => !bit (heldWays s k) w && !(8 ≤ w && w < 8 + grownN s k)
  let ways := maskOf 16 (free.take (crL2 s k))
  let s := if grownN s k = n then s else setCarafeN s k (BitVec.ofNat 4 (grownN s k))
  modL2 s k fun l => { l with
    cown := mine.foldl (fun m j => (setFld (m.setWidth 64) (4 * j) 4 p.val).setWidth 32) l.cown
    ways := smPut 0 l.ways p.val ways }

/-- The pages that creation sets to their Reset values (07 R178). -/
def resetPages (s : State) (p : CompId) : State :=
  let s := allClusters.foldl (fun s k =>
    modMntEng (modMnt (modPerc s k p fun _ => Perc.reset) k p fun _ => Mnt.reset) k fun e =>
      { e with queue := e.queue.filter (· != p) }) s
  let s := modActPort s p fun _ => ActPort.reset
  let s := (compChans s p).foldl (fun s n => modChan s n fun _ => Channel.reset) s
  resetTimers s p

/-- The entry of the home group (R384). -/
def homeEntry (s : State) (p : CompId) : GroupEntry :=
  { valid := true, compart := compNo p, user := false, devmask := bvSet 0 s.devid.toNat true, engmask := 0,
    cores := (getComp s p).res.cores, d := 0, failed := false }

/-- Everything that a request asks for becomes the compartment's (R381). -/
def takeAll (s : State) (p : CompId) : State :=
  let units := (freeUnits s).take (crGib s)
  let groups := (freeGroups s).take (crGroups s + 1)
  let res : Resources :=
    { cores := crCores s, l2ways := allClusters.map fun k => BitVec.ofNat 5 (crL2 s k)
      carafe := allClusters.map fun k => BitVec.ofNat 4 (crCarafe s k), memgib := BitVec.ofNat 32 (crGib s)
      ilv := crIlv s, chmask := crChmask s, pshare := BitVec.ofNat 8 (crShare s), modes := BitVec.ofNat 3 (argN s 55 1)
      lcred := (List.finRange 8).map fun x => BitVec.ofNat 8 (crCred s x), culvert := BitVec.ofNat 64 (argN s 64 8)
      timers := BitVec.ofNat 16 (argN s 72 2), groups := maskOf 64 (groups.map (·.val)), home := groups.head? }
  let layout : Byte := if res.ilv then res.chmask else 0xFF
  let s := allClusters.foldl (fun s k => takeWays s p k) s
  let s := modComp s p fun c => { Comp.reset with st := c.st, vf := c.vf, res := res }
  let s := { s with dram := units.foldl (fun d u =>
    { d with owner := smPut 0 d.owner u (compNo p), layout := smPut 0xFF d.layout u layout }) s.dram }
  let s := (compCores s p).foldl (fun s c => modCore (resetCore s c) c fun k => { k with compart := compNo p }) s
  let s := resetPages s p
  match res.home with
  | some g => { s with weir := { s.weir with groups := smPut GroupEntry.none s.weir.groups g.val (homeEntry s p) } }
  | none => s

/-- A port in standby wakes where a compartment that has not requested standby takes credits on it (01 R25). -/
def wakePorts (s : State) (p : CompId) : State :=
  (List.finRange 8).foldl (fun s x =>
    if (getPort s x).standby && !standbyAgreed s x && creditsHeld s (compNo p) x != 0 then
      modPort s x fun q => { q with standby := false, waking := true }
    else s) s

/-- The units of a compartment, as PA[38:30]. -/
def compUnits (s : State) (p : CompId) : List Nat := (s.dram.owner.filter fun u => u.2 == compNo p).map (·.1)

/-- The result of a creation. -/
def createResult (s : State) (p : CompId) : List Byte :=
  let us := compUnits s p
  [BitVec.ofNat 8 p.val, 0] ++ leBytes 2 us.length ++ leBytes 8 (getComp s p).res.groups.toNat ++ us.flatMap (leBytes 2)

/-- COMPARTMENT_CREATE: everything or nothing; a malformed request is refused before anything else is looked at (15 R366). -/
def cmdCreate (s : State) : State :=
  let named := curComp s
  let found : Option CompId :=
    if named = 0 then allComps.find? fun q => q != 0 && (getComp s q).st == .empty else some named
  if createBad s then answer s stBadArg
  else match found with
  | none => respond s stNoResource 0xFFFF []
  | some p =>
    if (getComp s p).st ≠ .empty then answer s stState
    else match createShort s with
      | some d => respond s stNoResource d []
      | none =>
        let s := setCompState (wakePorts (takeAll s p) p) p .created
        let s := { s with lk := { s.lk with cur := s.lk.cur.map fun c => { c with comp := BitVec.ofNat 8 p.val } } }
        respond s stOk 0 (createResult s p)

/-! ## COMPARTMENT_LOAD (15 Table 15.9, R369) -/

/-- Whether a range lies wholly in a compartment's memory on this device. -/
def insideComp (s : State) (p : CompId) (a : W64) (bytes : Nat) : Bool :=
  let last := a.toNat + max bytes 8 - 1
  decide (last < 2 ^ 44) && last / 2 ^ 40 == s.devid.toNat && a.toNat / 2 ^ 40 == s.devid.toNat
    && ((List.range (last % 2 ^ 40 / 2 ^ 30 + 1)).drop (a.toNat % 2 ^ 40 / 2 ^ 30)).all fun u =>
      decide (u < s.dram.units) && smGet 0 s.dram.owner u == compNo p

/-- Ask for the bytes of a load: reads of at most 512 bytes and of the Max Read Request Size with the requester ID of the physical function,
as many as may be outstanding (17 R415, R416). -/
def loadReads (s : State) (src : W64) : Nat → Nat → Nat → State
  | 0, _, _ => s
  | n + 1, off, left =>
    if left = 0 then s
    else
      let k := min left (min 512 s.pcie.maxRead)
      let x : HostRead := { fn := 0, chan := none, addr := src + BitVec.ofNat 64 off, len := k, issued := s.now }
      loadReads { s with pcie := { s.pcie with reads := s.pcie.reads ++ [x] } } src n (off + k) (left - k)

/-- The bytes that a word of a load takes from the host. -/
def loadRec (stream : Bool) : Nat := if stream then 9 else 8

def cmdLoad (s : State) : State :=
  let p := curComp s
  let bytes := argN s 8 4
  let stream := argN s 12 1 == 1
  let flags := argN s 13 1
  let dest := BitVec.ofNat 64 (argN s 16 8)
  if 1 < argN s 12 1 ∨ 4 ≤ flags ∨ argN s 14 2 ≠ 0 ∨ 2 ^ 30 < bytes ∨ bytes % loadRec stream ≠ 0 ∨ fld dest 0 3 ≠ 0 then
    answer s stBadArg
  else if (getComp s p).st ≠ .created then answer s stState
  else if !insideComp s p dest (bytes / loadRec stream * 8) then answer s stBadArg
  else if allComps.any (fun q => (getComp s q).load.isSome) then answer s stBusy
  else
    let entry := if flags / 2 % 2 = 1 then
        some (BitVec.ofNat 64 (argN s 24 8), BitVec.ofNat 64 (argN s 32 8)) else none
    let l : Load := { src := BitVec.ofNat 64 (argN s 0 8), dest := dest.toNat, bytes := bytes, stream := stream, trust := flags % 2 == 1, entry := entry,
                      seq := BitVec.ofNat 32 (cmdSeq s) }
    answer (loadReads (modComp s p fun c => { c with load := some l }) l.src 256 0 bytes) stOk

/-- The word that a record of a load becomes, and whether its tag is rejected (02 R59, R60). -/
def loadWord (l : Load) (r : List Byte) : Word × Bool :=
  let v := BitVec.ofNat 64 (ofLe (r.take 8))
  let t := r.getD 8 0
  if !l.stream then (bytesW v, false)
  else if isReserved t || (!l.trust && (isPtr t || t == 0x08)) then (bytesW v, true)
  else (⟨t, v⟩, false)

/-- Write `n` records from an address on; the count of the tags rejected. -/
def copyRecords (l : Load) : Nat → Nat → List Byte → Nat → State → Nat × State
  | 0, _, _, rej, s => (rej, s)
  | n + 1, a, data, rej, s =>
    let (w, bad) := loadWord l (data.take (loadRec l.stream))
    copyRecords l n (a + 8) (data.drop (loadRec l.stream)) (rej + bad.toNat)
      (memStore s [wholeWrite (BitVec.ofNat 44 a) w])

/-- The load copy ends, with the bytes that it took from the host; one that copied all of its source sets the entry addresses. -/
def endLoad (s : State) (p : CompId) (l : Load) (data : List Byte) : State :=
  let n := data.length / loadRec l.stream
  let (rej, s) := copyRecords l n l.dest data 0 (dropReads s fun x => x.chan == none)
  let s := modComp s p fun c =>
    let c := { c with load := none }
    match l.entry with
    | some (b, a) => if data.length = l.bytes then { c with bootepc := b, apepc := a, entryDone := true } else c
    | none => c
  postEvent s 0x0001 p.val l.seq (BitVec.ofNat 64 (8 * n + 2 ^ 32 * rej))

/-- LOAD_DONE (R369): the copy completes with all of its source, or, once quiesce has stopped it, with whole 4 KiB blocks of it
(16 R395). -/
def execLoadDone (data : List Byte) (s : State) : Host.Outcome State Fault Refusal :=
  match allComps.find? fun q => (getComp s q).load.isSome with
  | none => .next s
  | some p => match (getComp s p).load with
    | none => .next s
    | some l =>
      let stopped := ((getComp s p).quiesce.map (·.stopped)).getD false
      let partial' := stopped && decide (data.length < l.bytes) && data.length / loadRec l.stream % 512 == 0
        && data.length % loadRec l.stream == 0
      if (data.length = l.bytes ∨ partial') ∧ s.pcie.trained ∧ s.pins.perstN then .next (endLoad s p l data) else .next s

/-! ## COMPARTMENT_START (15 R369, R370) -/

def cmdStart (s : State) : State :=
  let p := curComp s
  let mask := BitVec.ofNat 128 (argN s 0 16)
  let x := getComp s p
  if mask = 0 then
    if x.st ≠ .created ∨ !x.entryDone then answer s stState
    else
      let s := (compCores s p).foldl (releaseCore p true) s
      answer (setCompState (modComp s p fun c => { c with booted := true }) p .running) stOk
  else if x.st ≠ .running then answer s stState
  else
    let cs := allCores.filter fun c => bit mask c.val
    if cs.all fun c => bit x.res.cores c.val && (getCore s c).lockHeld then answer (cs.foldl (releaseCore p false) s) stOk
    else answer s stBadArg

/-! ## Quiesce (16 R395) -/

/-- Whether the executing command is a quiesce of a compartment. -/
def quiesceCmd (s : State) (p : CompId) : Bool :=
  s.lk.cur.any fun c => c.opcode == 0x0023 && c.comp.toNat == p.val

def cmdQuiesce (s : State) : State :=
  let p := curComp s
  match (getComp s p).st with
  | .running =>
    let s := modComp s p fun c => { c with quiesce := some { start := s.now, stopped := false } }
    setCompState (notify s p 1) p .quiescing
  | .quiescing => notify s p 1
  | _ => answer s stState

/-- Whether a core stands at a boundary: halted, between instructions, or in a wait that it may abandon. -/
def atBoundary (k : Core) : Bool := k.run == .halted || (k.run == .running && (k.wait.isNone || abandonable k))

/-- A core stops at its boundary, its mark buffer and its stores with it; one that is not at a boundary stops at its next. -/
def quiesceCore (s : State) (c : CoreId) : State :=
  let k := getCore s c
  if !isLive k || k.run == .stopped then s
  else if atBoundary k && k.pend.flip.isNone && !k.pend.snap then
    let s := drainAll (drainMarks 16 (if k.wait.isSome then abandon c s else s) c) c
    modCore s c fun k => completeAll { k with run := .stopped, pend := { k.pend with stop := false } }
  else modCore s c fun k => { k with pend := { k.pend with stop := true } }

/-- The oldest entry of the mark stack cache goes to memory, where the memory stack has room for it. -/
def spillOne (k : ClusterId) (p : CompId) : EM Bool := do
  let e := getPerc (← eget) k p
  match e.stack.getLast? with
  | none => return false
  | some x =>
    if e.memCount < (e.mstkLim.toNat - e.mstkBase.toNat) / 8 then
      tabWrite k p (e.mstkBase + BitVec.ofNat 44 (8 * e.memCount)) x
      emod fun s => modPerc s k p fun e => { e with memCount := e.memCount + 1, stack := e.stack.dropLast }
      return true
    else return false

/-- The mark stack cache goes to memory, oldest entry first, as far as the memory stack reaches (07 R206); whether it waits. -/
def spillStack (k : ClusterId) (p : CompId) : Nat → State → Bool × State
  | 0, s => (false, s)
  | n + 1, s => match engRun (spillOne k p) (cmdUnit k) p s with
    | .done true t => spillStack k p n t
    | .done false t => (false, t)
    | .stop _ t => (false, t)
    | .wait t => (true, t)

/-- Whether an engine's command of a compartment has ended, or there is none. -/
def cmdEnded (s : State) (k : ClusterId) (p : CompId) : Bool :=
  match (getPerc s k p).run with
  | some r => r.result.isSome
  | none => true

/-- A command in progress stops at its boundary: once no replacement of a word and no question to another device is under way. -/
def stopCommand (s : State) (k : ClusterId) (p : CompId) : State :=
  match (getPerc s k p).run with
  | some r => if r.result.isNone && r.put.isNone && !cmdAsks s k p then setResult s k p 0x09 else s
  | none => s

/-- An engine stops (07 R206): no further command, the one in progress at its boundary, and the mark stack cache in memory. -/
def quiesceEngine (p : CompId) (s : State) (k : ClusterId) : State :=
  let s := stopCommand (modPerc s k p fun e => { e with stopped := true }) k p
  if cmdEnded s k p then (spillStack k p (getPerc s k p).stack.length s).2 else s

/-- Whether an engine has still to finish something of a compartment that stops: a command, a service, a claimed copy, a card copy, or the
spill of its mark stack (07 R206). -/
def engineBusy (s : State) (p : CompId) (k : ClusterId) : Bool :=
  let c := compNo p
  let e := getEng s k
  (getPerc s k p).run.isSome || e.cards.any (fun r => r.comp == c) || e.fwd.any (fun r => r.comp == c)
    || e.copies.any (fun r => r.comp == c) || e.guards.any (fun r => r.1 == c) || (spillStack k p (getPerc s k p).stack.length s).1

/-- A channel stops: a descriptor that waits for its `NBT`, or stands at a boundary of 512 bytes, completes with `STOPPED`
(R401). -/
def quiesceChan (s : State) (n : ChanId) : State :=
  modChan s n fun h =>
    let h := { h with stopped := true, nbwait := false }
    { h with run := h.run.map fun r =>
        if r.result.isSome then r else if r.started then cvEnd h r else { r with result := some 5 } }

/-- QUIESCE_STOP: step 2, 200 µs after the start. -/
def execQuiesceStop (p : CompId) (s : State) : Host.Outcome State Fault Refusal :=
  match (getComp s p).quiesce with
  | some q =>
    if (getComp s p).st ≠ .quiescing ∨ q.stopped ∨ s.now < q.start + 200000 then .next s
    else
      let s := modComp s p fun c => { c with quiesce := some { q with stopped := true } }
      let s := (compChans s p).foldl quiesceChan s
      let s := (compCores s p).foldl quiesceCore s
      .next (allClusters.foldl (quiesceEngine p) s)
  | none => .next s

/-- The first blocker of a quiesce with its unit (Table 16.5). -/
def quiesceBlocker (s : State) (p : CompId) : Option (Nat × Nat) :=
  let c := compNo p
  let moving (k : Core) : Bool := isLive k && (k.run != .stopped || !k.mark.isEmpty || !k.sq.isEmpty)
  match (compCores s p).find? fun c => moving (getCore s c) with
  | some i => some (1, i.val)
  | none => match (compChans s p).find? fun n => (getChan s n).run.isSome with
    | some n => some (2, n.val)
    | none => match s.xitex.outstanding.find? fun r => r.2.comp == c with
      | some r => some (3, r.2.port.val)
      | none => match allClusters.find? fun k => (s.mnt.get k).queue.contains p with
        | some k => some (4, k.val)
        | none => match allClusters.find? fun k => engineBusy s p k with
          | some k => some (5, k.val)
          | none => match s.weir.actions.find? fun a => actionOf s c a.2 && (a.2.act == 1 || a.2.act == 7) with
            | some a => some (6, a.1)
            | none => if (getComp s p).load.isSome then some (7, 0) else none

/-- QUIESCED: cores and engines that have still to stop do so, and with no blocker left the compartment is `QUIESCED`. -/
def execQuiesced (p : CompId) (s : State) : Host.Outcome State Fault Refusal :=
  if (getComp s p).st ≠ .quiescing ∨ !((getComp s p).quiesce.map (·.stopped)).getD false then .next s
  else
    let s := allClusters.foldl (quiesceEngine p) ((compCores s p).foldl quiesceCore s)
    match quiesceBlocker s p with
    | some _ => .next s
    | none =>
      let s := setCompState (modComp s p fun c => { c with quiesce := none }) p .quiesced
      .next (if quiesceCmd s p && !s.lk.restarting then respond s stOk 0 [] else s)

/-- QUIESCE_TIMEOUT (15 R370): 1 ms after its doorbell the command completes; the compartment stays `QUIESCING`. -/
def execQuiesceTimeout (p : CompId) (s : State) : Host.Outcome State Fault Refusal :=
  match s.lk.cur with
  | some cur =>
    if (getComp s p).st = .quiescing ∧ quiesceCmd s p ∧ !s.lk.restarting ∧ cur.start + 1000000 ≤ s.now then
      let d := match quiesceBlocker s p with
        | some (code, unit) => code + 256 * unit
        | none => 0
      .next (respond s stTimeout d [])
    else .next s
  | none => .next s

/-! ## COMPARTMENT_DESTROY (16 R382, R383) -/

def cmdDestroy (s : State) : State :=
  let p := curComp s
  let x := getComp s p
  if x.st ≠ .created ∧ x.st ≠ .quiesced ∧ x.st ≠ .aborted then answer s stState
  else if x.load.isSome then answer s stBusy
  else
    let gs := groupsOf s (compNo p)
    let s := dropActions s (actionOf s (compNo p))
    let s := gs.foldl idleMembers s
    let s := { s with weir := { s.weir with
      groups := gs.foldl (fun m g => smPut GroupEntry.none m g.val GroupEntry.none) s.weir.groups } }
    let s := modComp (resetTimers s p) p fun c => { c with scrubSeq := BitVec.ofNat 32 (cmdSeq s) }
    answer (setCompState s p .scrubbing) stOk

/-- The memory of a compartment becomes `UNINIT` 0, copies of it with it, and its units have no owner. -/
def scrubMemory (s : State) (p : CompId) : State :=
  let mine (off : Nat) : Bool := ownerAt s off == compNo p
  let us := compUnits s p
  let held := (allClusters.flatMap fun k => (l2Of s k).lines.map (·.2.line)).filter fun l =>
    mine (lineOff l) && decide (classify s (BitVec.ofNat 44 (l * 64)) = .dram (lineOff l))
  let s := held.foldl invalLine s
  let s := { s with dram := { s.dram with words := s.dram.words.filter (fun w => !mine (8 * w.1)) } }
  let free (d : Dram) (u : Nat) : Dram := { d with owner := smPut 0 d.owner u 0, layout := smPut 0xFF d.layout u 0xFF }
  { s with dram := us.foldl free s.dram }

/-- Free Carafe ways return to the cache from the top (R382). -/
def lowerCarafe : Nat → State → ClusterId → State
  | 0, s, _ => s
  | n + 1, s, k =>
    let l := l2Of s k
    if l.carafeN = 0 ∨ carafeOwner l (l.carafeN.toNat - 1) ≠ 0 then s
    else lowerCarafe n (setCarafeN s k (l.carafeN - 1)) k

/-- The Carafe ways of a compartment in one cluster are scrubbed, and its cache ways are free. -/
def scrubWays (p : CompId) (s : State) (k : ClusterId) : State :=
  let mine := (List.range 8).filter fun j => carafeOwner (l2Of s k) j == compNo p
  let s := modL2 s k fun l =>
    let l := mine.foldl clearCarafeWay l
    { l with cown := mine.foldl (fun m j => (setFld (m.setWidth 64) (4 * j) 4 0).setWidth 32) l.cown
             ways := smPut 0 l.ways p.val 0 }
  lowerCarafe 8 s k

/-- DESTROY_DONE (R382): the scrub completes, and everything returns to its pool. -/
def execDestroyDone (p : CompId) (s : State) : Host.Outcome State Fault Refusal :=
  let x := getComp s p
  if x.st ≠ .scrubbing then .next s
  else
    let s := scrubMemory s p
    let s := allClusters.foldl (scrubWays p) s
    let s := (compCores s p).foldl (fun s c => modCore (resetCore s c) c fun k =>
      { k with compart := 0, lock := none, lockHeld := false }) s
    let s := dropTlbs (resetPages s p) p
    let s := allClusters.foldl (fun s k => discardEngine s p k) s
    let s := allClusters.foldl (fun s k => modPerc s k p fun _ => Perc.reset) s
    let s := modComp s p fun c => { Comp.reset with st := c.st }
    .next (setCompState (postEvent s 0x0002 p.val x.scrubSeq 0) p .empty)

end Sys2Proof.Machine
end

