-- ==== Sys2Proof/Machine/WeirEvents.lean ====
section
/-! DEFINITION. Events of the Weir: group messages and completion (08 R222, R234), the time base (R209 to R214) and the failure
of a device (R237, R238). -/

namespace Sys2Proof.Machine

/-! ## Group operations -/

/-- GROUP_MESSAGE (R234): another device's arrival; one that comes before the operation in progress has completed here stands
for the next. -/
def execGroupMessage (g : GroupId) (d : DevId) (a : GroupArrival) (s : State) : Host.Outcome State Fault Refusal :=
  let e := groupOf s g
  let d := BitVec.ofFin d
  if !e.valid || e.failed || !(otherDevs s e).contains d then .next s
  else if arrived s g (deviceKey d) then
    .next { s with weir := { s.weir with early := smSet s.weir.early (earlyKey g d) a } }
  else .next (deviceArrives s g d a)

/-- Engines and waiting cores take up a change of their member state (R224, R225). -/
def takeUp (s : State) (g : GroupId) : State :=
  let e := groupOf s g
  let s := (allClusters.filter fun k => bit e.engmask k.val).foldl (fun s k => consumeRound s g k) s
  resumeWhere (fun c w => w == .group g && bit e.cores c.val) s

/-- GROUP_OPERATION_COMPLETE (R222): every member has joined. -/
def execGroupOperationComplete (g : GroupId) (s : State) : Host.Outcome State Fault Refusal :=
  .next (if groupReady s g then takeUp (completeGroup s g) g else s)

/-! ## The time base -/

/-- Every island counter stepped by an offset. -/
def stepTicks (s : State) (off : Int) : State :=
  setTicks s (s.weir.tick.map fun t => BitVec.ofInt 64 (t.toNat + off))

/-- WEIR_SYNC_PULSE (R212 step 3): in calibration `TICK` is loaded with 0; no counter is stepped back after `READY` (R210). -/
def execWeirSyncPulse (s : State) : Host.Outcome State Fault Refusal :=
  if s.pins.ready ∨ s.lk.boot ≠ .calibration then .next s
  else .next (setTicks s (Vector.replicate 34 0))

/-- ON_DIE_RESYNCHRONISATION (R209): each island corrects its difference from the hub's counter. -/
def execOnDieResynchronisation (s : State) : Host.Outcome State Fault Refusal :=
  let hub := hubTick s
  if s.pins.ready then
    let corr (m : SMap Int) (i : Fin 34) : SMap Int :=
      smPut 0 m i.val (smGet 0 s.weir.corr 33 + (hub.toNat : Int) - ((s.weir.tick.get i).toNat : Int))
    .next { s with weir := { s.weir with corr := (List.finRange 34).foldl corr s.weir.corr } }
  else .next (setTicks s (Vector.replicate 34 hub))

/-- WEIR_PLL_LOSS_OF_LOCK (R214). -/
def execWeirPllLossOfLock (s : State) : Host.Outcome State Fault Refusal :=
  if s.weir.lock then
    .next (logErr { s with weir := { s.weir with lock := false } } 0x0D 1 0 s.devid.toNat 0 0)
  else .next s

/-! ## Failure of a device (R237, R238) -/

/-- A group that lists the failed device: every member fails, waiters are told, and the group's interrupt is pending. -/
def failGroup (s : State) (g : GroupId) : State :=
  let e := { groupOf s g with failed := true }
  let s := { s with weir := { s.weir with groups := smPut GroupEntry.none s.weir.groups g.val e } }
  let s := (ownKeys e).foldl (fun s k => setMemberSt s g k .failed) s
  let s := allCores.foldl (fun s c => if bit e.cores c.val && isLive (getCore s c) then
      modCore s c fun k => { k with irq := { k.irq with group := bvSet k.irq.group g.val true } } else s) s
  takeUp (notify s (compId e.compart) 3) g

/-- Refuse the requests of an engine that wait on a failed device, oldest first; `n` bounds them. -/
def refuseWaiting (d : BitVec 4) (k : ClusterId) : Nat → State → State
  | 0, s => s
  | n + 1, s =>
    match (getEng s k).fwd.zipIdx.find? fun r => r.1.waiting && paDev r.1.pa == d with
    | some (r, i) => refuseWaiting d k n (answerFwd s k i r none)
    | none => s

/-- The forwarding requests of an engine that wait on a failed device are refused (07 R194); those that it has passed on end with it. -/
def refuseForwards (d : BitVec 4) (s : State) (k : ClusterId) : State :=
  let s := modEng s k fun e => { e with fwd := e.fwd.filter fun r => !r.origin.any (·.dev == d) }
  refuseWaiting d k (getEng s k).fwd.length s

/-- Whether a post waits over a group that lists a device. -/
def postWaits (s : State) (d : BitVec 4) (a : ActPort) : Bool :=
  a.busy && bit (groupOf s (Fin.ofNat 64 a.postGroup.toNat)).devmask d.toNat

/-- A compartment's post in progress over a group that lists the failed device ends as `FAILED`. -/
def failPort (d : BitVec 4) (s : State) (p : CompId) : State :=
  if postWaits s d (getActPort s p) then putPort p (postEnd s 0 (bvSet 0 d.toNat true) (getActPort s p)) else s

/-- So does the one that the Lockkeeper's schedule posts. -/
def failSched (d : BitVec 4) (s : State) : State :=
  match s.weir.sched with
  | some (_, b) => if postWaits s d b then schedEnd (postEnd s 0 (bvSet 0 d.toNat true) b) else s
  | none => s

/-- A post in progress over a group that lists the failed device ends as `FAILED`. -/
def failPosts (s : State) (d : BitVec 4) : State := failSched d (allComps.foldl (failPort d) s)

/-- The live devices of the board, this one among them, ascending. -/
def liveDevs (s : State) : List Nat := bitsSet (bvSet s.weir.live s.devid.toNat true)

/-- The declaration goes to every live device (R237). -/
def floodFailed (s : State) (d : BitVec 4) : State :=
  ((liveDevs s).filter (· != s.devid.toNat)).foldl (fun s j =>
    sendMsg s (BitVec.ofNat 4 j) 0 (Config.msgBody 7 [d.toNat])) s

/-- A device is declared failed. -/
def declareFailed (s : State) (d : BitVec 4) : State :=
  if d = s.devid ∨ bit s.weir.faildev d.toNat then s
  else
    let s := { s with weir := { s.weir with
      faildev := bvSet s.weir.faildev d.toNat true, live := bvSet s.weir.live d.toNat false } }
    let s := floodFailed s d
    let s := failPosts s d
    let gs := (List.finRange 64).filter fun g => (groupOf s g).valid && bit (groupOf s g).devmask d.toNat
    let s := gs.foldl failGroup s
    let s := allClusters.foldl (refuseForwards d) s
    postEvent (logErr s 0x0D 1 0 d.toNat 0 0) 0x000A 0 0 (d.setWidth 64)

/-- DEVICE_FAILED (R237). -/
def execDeviceFailed (d : DevId) (s : State) : Host.Outcome State Fault Refusal :=
  .next (declareFailed s (BitVec.ofFin d))

/-- ROOT_CHANGE (R213, R238): the device that `WEIR_CONFIG` named, or the lowest live one after a failed root, takes over; no
counter steps. -/
def execRootChange (d : DevId) (s : State) : Host.Outcome State Fault Refusal :=
  let d := BitVec.ofFin d
  let named := s.weir.rootTo == some d
  let heir := bit s.weir.faildev s.weir.rdev.toNat && (liveDevs s).head? == some d.toNat
  if named || heir then
    .next { s with weir := { s.weir with rdev := d, root := d == s.devid, rootTo := none } }
  else .next s

/-- TIMING_SYMBOL_EXCHANGE (R212, R214): before `READY` the counters step by the measured offset, over lane 0 of a link whose port
`LINK_TRAIN` has still to train; afterwards they are corrected by it, and a peer found more than 4 ticks off is declared failed
(R237). The root's own counters stand. -/
def execTimingSymbolExchange (x : PortId) (off : Int) (s : State) : Host.Outcome State Fault Refusal :=
  let p := getPort s x
  if !s.pins.ready then
    .next (if s.weir.root ∨ !s.weir.lock ∨ !clocksRun s then s else stepTicks s off)
  else if !p.trained ∨ p.down then .next s
  else if 4 < off.natAbs then .next (declareFailed s p.peer)
  else if s.weir.root then .next s
  else
    .next { s with weir := { s.weir with
      corr := (List.range 34).foldl (fun m i => smPut 0 m i off) s.weir.corr } }

end Sys2Proof.Machine
end

