-- ==== Sys2Proof/Machine/WeirCommands.lean ====
section
/-! DEFINITION. The mailbox commands of the Weir (15 R375, Table 15.10): `WEIR_CONFIG`, `WEIR_SCHEDULE` and `SNAPSHOT`. -/

namespace Sys2Proof.Machine

/-! ## WEIR_CONFIG (08 R213, R219, R235; 16 R386) -/

/-- A group record: the group, words 0 to 2 of its entry, and whether its RSV bytes and bits are zero. -/
structure GroupRecord where
  g : GroupId
  valid : Bool
  compart : BitVec 4
  user : Bool
  devmask : BitVec 16
  engmask : BitVec 16
  cores : BitVec 128
  clean : Bool

/-- Record `i` of the arguments. -/
def recordAt (s : State) (i : Nat) : GroupRecord :=
  let o := 16 + 40 * i
  let w := BitVec.ofNat 64 (argN s (o + 8) 8)
  { g := Fin.ofNat 64 (argN s o 1), valid := bit w 0, compart := BitVec.ofNat 4 (fld w 1 4), user := bit w 5
    devmask := BitVec.ofNat 16 (fld w 8 16), engmask := BitVec.ofNat 16 (fld w 24 16)
    cores := BitVec.ofNat 128 (argN s (o + 16) 16)
    clean := argN s o 1 < 64 && argN s (o + 1) 7 == 0 && fld w 6 2 == 0 && fld w 40 24 == 0 && argN s (o + 32) 8 == 0 }

def configRecords (s : State) : List GroupRecord := (List.range (argN s 9 1)).map (recordAt s)

/-- The peer that the arguments name on a port. -/
def configPeer (s : State) (x : PortId) : Option (BitVec 4) :=
  let v := argN s (1 + x.val) 1
  if v = 0xFF then none else some (BitVec.ofNat 4 v)

/-- Whether a byte is a `DEVID` or `0xFF`. -/
def devByte (v : Nat) : Bool := v < 16 || v == 0xFF

/-- The compartment that holds a group, if one does. -/
def groupHolder (s : State) (g : GroupId) : Option CompId :=
  allComps.find? fun q => holds s q && bit (getComp s q).res.groups g.val

/-- The hops between two devices (Table 17.1, R405). -/
def hopsBetween (s : State) (a b : Nat) : Nat :=
  if a = b then 0
  else if isHypercube s then popcount (BitVec.ofNat 4 a ^^^ BitVec.ofNat 4 b)
  else if isPair s (BitVec.ofNat 4 (if a = s.devid.toNat then b else a)) then 1
  else
    let n := boardSize s
    let f := (b + n - a % n) % n
    min f (n - f)

/-- `D` of a set of devices (08 R235). -/
def diameter (s : State) (devs : BitVec 16) : Nat :=
  let ds := bitsSet devs
  (ds.flatMap fun a => ds.map fun b => hopsBetween s a b).foldl max 0

/-- Whether a path leads from this device to the root (08 R213). -/
def rootReached (s : State) : Bool := s.weir.rdev == s.devid || (firstHop s s.weir.rdev 0).isSome

/-- A device that is not live yet, named by the command, is calibrated where a route reaches it: the steps of 08 Table 8.2 run again
(R212), this device's own alignment among them. -/
def addDevice (s : State) (d : BitVec 4) : State :=
  let s := { s with weir := { s.weir with board := bvSet s.weir.board d.toNat true } }
  if d = s.devid ∨ bit s.weir.live d.toNat ∨ (firstHop s d 0).isNone then s
  else
    let (n, s) := fresh s
    let s := driveSync { s with weir := { s.weir with lock := true } }
    if Config.peerCal n && rootReached s then
      { s with weir := { s.weir with live := bvSet (bvSet s.weir.live d.toNat true) s.devid.toNat true, cal := true } }
    else s

/-- The devices that a command names: peers, and members of its groups. -/
def configDevices (s : State) : List (BitVec 4) :=
  let peers := (List.finRange 8).filterMap (configPeer s)
  let members := (configRecords s).flatMap fun r => if r.valid then (bitsSet r.devmask).map (BitVec.ofNat 4) else []
  (peers ++ members).eraseDups

/-- The command's peers take effect; failures are forgotten, and devices are added. -/
def configLinks (s : State) : State :=
  let devs := configDevices s
  let s := { s with weir := { s.weir with peers := Vector.ofFn (configPeer s), faildev := 0 } }
  devs.foldl addDevice s

/-- Whether the Lockkeepers of the devices that a record adds to a home group confirm the compartment (16 R386). -/
def confirmed (r : GroupRecord) (s : State) : Bool × State :=
  let p := compId r.compart
  if !r.valid || (getComp s p).res.home != some r.g then (true, s)
  else
    let new := (bitsSet r.devmask).filter fun d => d != s.devid.toNat && !bit (groupOf s r.g).devmask d
    new.foldl (fun (b : Bool × State) _ =>
      let (n, s) := fresh b.2
      (b.1 && Config.peerHolds n, s)) (true, s)

/-- The member devices of a record, this one among them. -/
def recordDevs (s : State) (r : GroupRecord) : BitVec 16 := bvSet r.devmask s.devid.toNat true

/-- Whether a record may stand (R375), as far as this device knows; a group that spans devices needs every member calibrated, this
device too (08 R213). -/
def recordOk (s : State) (r : GroupRecord) : Bool :=
  r.clean && (groupHolder s r.g).all (fun q => compNo q == r.compart)
    && (!r.valid || (r.compart != 0 && (r.cores &&& ~~~(getComp s (compId r.compart)).res.cores) == 0
        && (recordDevs s r == bvSet 0 s.devid.toNat true
          || (s.weir.cal && (bitsSet r.devmask).all fun d => bit s.weir.live d || d == s.devid.toNat))))

/-- A record's entry is written: one that is cleared, or that had failed, has its members idle. -/
def putRecord (s : State) (r : GroupRecord) : State :=
  let devs := recordDevs s r
  let e : GroupEntry :=
    if r.valid then
      { valid := true, compart := r.compart, user := r.user, devmask := devs, engmask := r.engmask, cores := r.cores
        d := BitVec.ofNat 4 (diameter s devs), failed := false }
    else GroupEntry.none
  let s := if !r.valid || (groupOf s r.g).failed then idleMembers s r.g else s
  { s with weir := { s.weir with groups := smPut GroupEntry.none s.weir.groups r.g.val e } }

def cmdWeirConfig (s : State) : State :=
  let root := argN s 0 1
  let rs := configRecords s
  if !devByte root || !(List.finRange 8).all (fun x => devByte (argN s (1 + x.val) 1)) || 64 < argN s 9 1
      || argN s 10 6 != 0 || !rs.all (·.clean) then answer s stBadArg
  else
    let t := configLinks s
    let (ok, t) := rs.foldl (fun (b : Bool × State) r =>
      let (c, u) := confirmed r b.2
      (b.1 && c, u)) (true, t)
    if !ok || !rs.all (recordOk t) then answer { s with free := t.free } stBadArg
    else
      let t := rs.foldl putRecord t
      let t := if root = 0xFF ∨ root = t.weir.rdev.toNat then t
               else { t with weir := { t.weir with rootTo := some (BitVec.ofNat 4 root) } }
      answer t stOk

/-! ## WEIR_SCHEDULE (08 R229 to R232) -/

/-- A port as a post of the mailbox sees it. -/
def freshPort (tick cmd : W64) : ActPort := { ActPort.reset with tick := tick, cmd := cmd }

def cmdWeirSchedule (s : State) : State :=
  let p := curComp s
  let st := (getComp s p).st
  let a := freshPort (BitVec.ofNat 64 (argN s 0 8)) (BitVec.ofNat 64 (argN s 8 8))
  if 1 < argN s 16 1 ∨ 32 ≤ argN s 17 1 ∨ argN s 18 6 ≠ 0 then answer s stBadArg
  else if st ≠ .created ∧ st ≠ .running then answer s stState
  else
    let (t, b) := if argN s 16 1 = 0 then postRun s p false a else cancelRun s p false (Fin.ofNat 32 (argN s 17 1)) a
    if b.busy then { t with weir := { t.weir with sched := some (p, b) } } else schedEnd (t, b)

/-! ## SNAPSHOT (07 R200) -/

/-- Whether a snapshot of a compartment has still to stop, or its stop has still to be reported. -/
def snapPending (s : State) (p : CompId) : Bool :=
  s.weir.actions.any (fun a => a.2.act == 7 && a.2.comp == compNo p)
    || (getComp s p).snap.any fun x => x.due && !x.reported

/-- The Lockkeeper posts the snapshot stop through port 0, for the compartment's group. Regions of an earlier snapshot stay
pending. -/
def cmdSnapshot (s : State) : State :=
  let p := curComp s
  let t := BitVec.ofNat 64 (argN s 0 8)
  let base := BitVec.ofNat 64 (argN s 8 8)
  let g := argN s 16 1
  let e := groupOf s (Fin.ofNat 64 g)
  if fld base 0 19 ≠ 0 ∨ 64 ≤ g ∨ argN s 17 7 ≠ 0 then answer s stBadArg
  else if (getComp s p).st ≠ .running then answer s stState
  else if !insideComp s p base 0x80000 ∨ !e.valid ∨ e.compart ≠ compNo p then answer s stBadArg
  else if snapPending s p ∨ (getActPort s 0).busy then answer s stBusy
  else
    let (u, b) := postRun s 0 false (freshPort t (BitVec.ofNat 64 (7 + 16 * g)))
    if b.busy ∨ b.result = 0 then
      let u := modActPort u 0 fun _ => b
      let x : Snapshot :=
        { t := t, base := base.setWidth 44, group := BitVec.ofNat 6 g
          due := (getComp s p).snap.any (·.due), reported := true, seq := (s.lk.cur.map (·.seq)).getD 0
          copied := ((getComp s p).snap.map (·.copied)).getD [] }
      answer (modComp u p fun c => { c with snap := some x }) stOk
    else respond u (if b.result = 2 then stNoResource else stBadArg) b.result.toNat []

end Sys2Proof.Machine
end

