-- ==== Sys2Proof/Machine/Microcode.lean ====
section
/-! DEFINITION. Patch images (13 R331 to R347) and the commands that stage images (15 R376): the checks of an image, the load
of every core at start-up, `FW_UPDATE`, `MICROCODE_STAGE` and key slot 2. -/

namespace Sys2Proof.Machine

/-! ## Microwords (13 R335 to R338) -/

/-- A field of a microword. -/
def mwFld (w : BitVec 160) (lo len : Nat) : Nat := fld w lo len

/-- The values of `COND` (Table 13.5). -/
def condKnown (v : Nat) : Bool := v ≤ 0x0A || (0x10 ≤ v && v ≤ 0x13) || (0x15 ≤ v && v ≤ 0x19)

/-- The register addresses of Table 13.7. -/
def mregKnown (v : Nat) : Bool := v ≤ 0x23 || (0x40 ≤ v && v ≤ 0x47) || 0x60 ≤ v

/-- Whether no field of a microword holds a reserved value. -/
def mwFields (w : BitVec 160) : Bool :=
  let f := mwFld w
  f 0 4 ≤ 11 && condKnown (f 18 6) && f 26 2 ≤ 2 && f 28 6 ≤ 0x11 && f 34 6 ≤ 0x11 && f 40 6 ≤ 0x0D && f 46 5 ≤ 6
    && f 56 5 ≤ 0x0C && f 63 2 ≤ 2 && mregKnown (f 65 7) && mregKnown (f 72 7) && mregKnown (f 79 7)
    && (ctlNumbers.contains (f 88 12) || f 88 12 == 0xF00 || f 88 12 == 0xF01)
    && f 134 4 ≤ 5 && f 138 3 ≤ 3 && (f 141 6 == 0 || (2 ≤ f 141 6 && f 141 6 ≤ 0x18))
    && (f 147 4 ≤ 6 || f 147 4 == 8 || f 147 4 == 9) && f 151 2 ≤ 1 && f 153 7 == 0

/-- Whether the fields of a microword of patch RAM go together (R335 to R337, Table 13.4). -/
def mwPairs (w : BitVec 160) : Bool :=
  let f := mwFld w
  let nxt := f 0 4
  let mem := f 56 5
  let wait := f 25 1 == 1
  (!wait || !(nxt == 2 || nxt == 6 || nxt == 9))
    && (f 26 2 == 0 || nxt == 0 || nxt == 6)
    && (nxt != 5 || f 4 6 == 0) && (nxt != 11 || f 4 3 == 0)
    && (!([1, 2, 3, 5, 11].contains nxt || f 26 2 == 1) || f 15 3 == 0)
    && (!([2, 3, 4, 5, 8, 9, 11].contains mem) || f 61 2 == 3)
    && (f 63 2 != 1 || mem == 2 || mem == 3)
    && (f 63 2 != 2 || [4, 5, 8, 11].contains mem)
    && (f 147 4 != 4 || wait)

/-! ## Images (R342, R343, R345) -/

def imgN (b : List Byte) (off n : Nat) : Nat := ofLe ((b.drop off).take n)

def imgMatches (b : List Byte) : Nat := imgN b 16 2
def imgWords (b : List Byte) : Nat := imgN b 18 2

/-- The key of a slot, if it is programmed. -/
def slotKey (s : State) (keyid : Nat) : Option (List Byte) :=
  if keyid = 1 then (if s.lk.key1 then some Config.key1 else none)
  else if keyid = 2 then s.lk.key2
  else none

/-- Whether the signature at the image's end is one of header and ciphertext under the slot's public key, which follows the AES key
(R343, R344). -/
def imageSigned (key b : List Byte) : Bool :=
  ecdsaOk (key.drop 32) (b.take (b.length - 96)) (b.drop (b.length - 96))

/-- The plaintext of the body, none where the tag does not match (R343). -/
def imagePlain (key b : List Byte) : Option (List Byte) :=
  gcmOpen (key.take 32) ((b.drop 24).take 12) (b.take 24) ((b.drop 64).take (imgN b 20 4)) ((b.drop 36).take 16)

/-- A patch-match entry of the plaintext (Table 13.2), none with a RSV bit set. -/
def matchAt (p : List Byte) (i : Nat) : Option PatchMatch :=
  let v := imgN p (8 * i) 8
  let w := BitVec.ofNat 64 v
  if bit w 14 ∨ fld w 27 37 ≠ 0 then none
  else some { romaddr := BitVec.ofNat 14 v, valid := bit w 15, paddr := BitVec.ofNat 11 (fld w 16 11) }

/-- The content of an image, where check 6 passes. -/
def imgContent (b p : List Byte) : Option Ucode :=
  let nm := imgMatches b
  let nw := imgWords b
  let base := imgN b 10 2
  let table := (List.range nm).map (matchAt p)
  let words := (List.range nw).map fun i => BitVec.ofNat 160 (imgN p (8 * nm + 20 * i) 20)
  let es := table.filterMap id
  if es.length = nm ∧ base + nw ≤ 2048 ∧ words.all (fun w => mwFields w && mwPairs w)
      ∧ es.all (fun e => decide (base ≤ e.paddr.toNat ∧ e.paddr.toNat < base + nw))
      ∧ ((es.map (·.romaddr)).eraseDups).length = nm then
    some { iver := BitVec.ofNat 32 (imgN b 12 4), pbase := base, table := es, words := words }
  else none

/-- Checks 1 to 6 of R345: the reason of a rejection, or the content. -/
def checkImage (s : State) (b : List Byte) : Nat ⊕ Ucode :=
  let nm := imgMatches b
  let nw := imgWords b
  let keyid := imgN b 9 1
  if imgN b 0 4 ≠ 0x31505A54 ∨ imgN b 4 2 ≠ 1 ∨ imgN b 20 4 ≠ 8 * nm + 20 * nw ∨ imgN b 52 12 ≠ 0
      ∨ b.length ≠ 160 + 8 * nm + 20 * nw then .inl 1
  else if imgN b 6 2 ≠ 0x0572 ∨ imgN b 8 1 ≠ 0 then .inl 2
  else match slotKey s keyid with
    | none => .inl 3
    | some key =>
      if !imageSigned key b then .inl 4
      else match imagePlain key b with
        | none => .inl 5
        | some p => match imgContent b p with
          | none => .inl 6
          | some u => .inr u

/-- Check 7: room for the entries, and no conflict with the Kerom image where it was accepted (R345, R346). -/
def fits (k : Option Ucode) (u : Ucode) : Bool :=
  match k with
  | none => decide (u.table.length ≤ 64)
  | some k =>
    (u.table.all fun e => k.table.all fun f => e.romaddr != f.romaddr)
      && (u.words.isEmpty || k.words.isEmpty || decide (u.pbase + u.words.length ≤ k.pbase)
        || decide (k.pbase + k.words.length ≤ u.pbase))
      && decide (u.table.length + k.table.length ≤ 64)

/-- What becomes of a staged image: nothing staged, a reason, or the content. -/
def examine (s : State) (k : Option Ucode) (b : List Byte) : Nat × Option Ucode :=
  if b.isEmpty then (0, none)
  else match checkImage s b with
    | .inl r => (r, none)
    | .inr u => if fits k u then (0, some u) else (7, none)

/-! ## The load (R347) -/

/-- The micro-state of a core that holds the accepted images. -/
def loadedMicro (us : List Ucode) : Micro :=
  let words := us.flatMap fun u => (List.range u.words.length).map fun i => (u.pbase + i, u.words.getD i 0)
  let table := us.flatMap (·.table)
  let none' : PatchMatch := { romaddr := 0, valid := false, paddr := 0 }
  { run := none
    saved := none
    stack := []
    patch := words.foldl (fun m w => smPut 0 m w.1 w.2) []
    table := (List.range table.length).foldl (fun m i => smPut none' m i (table.getD i none')) [] }

/-- A rejected image is logged (18 Table 18.1 class 0x10). -/
def logReason (s : State) (r : Nat) : State := if r = 0 then s else logErr s 0x10 1 0 0 0 (BitVec.ofNat 64 r)

/-- A core whose readback does not match is held out of every compartment, and logged. -/
def holdOut (s : State) (c : CoreId) : State :=
  logErr (modCore s c fun k => { k with mcHeld := true }) 0x10 1 0 c.val 0 0

/-- Step 7 of start-up (19 Table 19.6): every L2 `ON`, `READY` raised. A selected bank that the ROM has passed over stays one that
failed (15 R362). -/
def raiseReady (s : State) : State :=
  let s := allClusters.foldl l2On s
  { s with pins := { s.pins with ready := true }, lk := { s.lk with
    boot := .ready, lastFailed := s.lk.lastFailed && s.lk.bank != s.lk.selected } }

/-- MICROCODE_LOAD (R345 to R347): both images are checked, the accepted ones loaded into every core, and the device is ready. -/
def execMicrocodeLoad (bad : List CoreId) (s : State) : Host.Outcome State Fault Refusal :=
  if s.lk.boot ≠ .microcode ∨ s.lk.restarting ∨ !s.pins.resetN then .next s
  else
    let (r1, u1) := examine s none (s.lk.ucFlash.getD 0 [])
    let (r2, u2) := examine s u1 (s.lk.ucFlash.getD 1 [])
    let s := logReason (logReason s r1) r2
    let s := { s with lk := { s.lk with
      accepted := [u1, u2], reasons := [BitVec.ofNat 8 r1, BitVec.ofNat 8 r2] } }
    let m := loadedMicro ([u1, u2].filterMap id)
    let s := allCores.foldl (fun s c => modCore s c fun k => { k with micro := m, mcHeld := false }) s
    .next (raiseReady ((allCores.filter bad.contains).foldl holdOut s))

/-! ## Chunks (15 Table 15.11, R376) -/

def chunkFirst (s : State) : Bool := argN s 2 1 % 2 == 1
def chunkLast (s : State) : Bool := argN s 2 1 / 2 % 2 == 1
def chunkBytes (s : State) : List Byte := argBytes s 16 (argN s 8 4)

/-- Whether the fields of a chunk are in their ranges. -/
def chunkOk (s : State) : Bool :=
  decide (argN s 2 1 < 4) && argN s 3 1 == 0 && argN s 12 4 == 0 && decide (1 ≤ argN s 8 4 ∧ argN s 8 4 ≤ 4064)

/-- The bytes of the image with this chunk, none where it comes out of order or the flash area is full (Table 15.1). -/
def withChunk (s : State) (fw : Bool) (slot : Byte) : Option (List Byte) :=
  let off := argN s 4 4
  let old : Option (List Byte) :=
    if chunkFirst s then some []
    else match s.lk.stage with
      | some g => if g.firmware = fw ∧ g.slot = slot then some g.bytes else none
      | none => none
  match old with
  | some b =>
    let n := b ++ chunkBytes s
    if off = b.length ∧ n.length ≤ (if fw then 0x1000000 else 0x100000) then some n else none
  | none => none

def setStage (s : State) (g : Option Stage) : State := { s with lk := { s.lk with stage := g } }

/-- The bank that is not running. -/
def otherBank (s : State) : Nat := if s.lk.bank then 0 else 1

/-- `FW_UPDATE` (R376): a bank that has not had its last chunk is not whole, and does not verify (19 Table 19.8). -/
def cmdFwUpdate (s : State) : State :=
  if !chunkOk s || argN s 0 2 != 0 then answer s stBadArg
  else match withChunk s true 0 with
    | none => answer (setStage s none) stBadArg
    | some b =>
      let s := { s with lk := { s.lk with
        fwBank := listSet s.lk.fwBank (otherBank s) b, fwWhole := bvSet s.lk.fwWhole (otherBank s) (chunkLast s) } }
      if !chunkLast s then answer (setStage s (some { firmware := true, slot := 0, bytes := b })) stOk
      else if Config.fwSigOk b then
        answer (setStage { s with lk := { s.lk with selected := !s.lk.bank, lastFailed := false } } none) stOk
      else answer (setStage s none) stAuth

/-- `SUB` = 1: key slot 2 is programmed once. -/
def cmdKeySlot2 (s : State) : State :=
  if argN s 8 4 ≠ 85 ∨ argN s 97 4 ≠ 0x4F545031 then answer s stBadArg
  else if s.lk.key2.isSome then answer s stState
  else answer { s with lk := { s.lk with key2 := some (argBytes s 16 81) } } stOk

def cmdMicrocodeStage (s : State) : State :=
  let slot := argN s 1 1
  if !chunkOk s || decide (1 < argN s 0 1) || (slot != 1 && slot != 2) then answer s stBadArg
  else if argN s 0 1 = 1 then cmdKeySlot2 s
  else match withChunk s false (BitVec.ofNat 8 slot) with
    | none => answer (setStage s none) stBadArg
    | some b =>
      if !chunkLast s then
        answer (setStage s (some { firmware := false, slot := BitVec.ofNat 8 slot, bytes := b })) stOk
      else
        let s := setStage s none
        match checkImage s b with
        | .inl r => respond s (if 3 ≤ r ∧ r ≤ 5 then stAuth else stBadArg) r []
        | .inr _ => answer { s with lk := { s.lk with ucFlash := listSet s.lk.ucFlash (slot - 1) b } } stOk

end Sys2Proof.Machine
end

