-- ==== Sys2Proof/Machine/Power.lean ====
section
/-! DEFINITION. Power, clocks and limits (19 R433 to R439, R446 to R449; 18 R429; 01 R18, R22, R23): the regulator controller, the
rails, cluster clocks, the current limiter and the thermal actions. -/

namespace Sys2Proof.Machine

/-! ## Cluster clocks (R437 to R439), in units of 50 MHz -/

/-- The fallback clock, 0.8 GHz. -/
def fallbackClk : Nat := 16

/-- The ceiling of the profile (01 Table 1.9). -/
def ceilingOf (profile : BitVec 2) : Nat := if profile = 0 then 52 else if profile = 1 then 40 else 24

/-- The input power cap of the profile, in mW. -/
def profileCap (profile : BitVec 2) : Nat := if profile = 0 then 440000 else if profile = 1 then 340000 else 250000

/-- The input power that 37 A gives at an input voltage in mV, in mW (01 R18). -/
def currentCap (mv : Nat) : Nat := 37 * mv

/-- The input power cap of a profile at the input voltage that was sampled last (01 R18, Table 1.9). -/
def capLimit (s : State) (profile : BitVec 2) : Nat :=
  if s.lk.sample = Sample.reset then profileCap profile else min (profileCap profile) (currentCap s.lk.sample.s.vin)

def modClk (s : State) (k : ClusterId) (f : Clock → Clock) : State := modCl s k fun x => { x with clk := f x.clk }

/-- Whether a hardware limit holds a cluster on the fallback clock. -/
def latched (s : State) (k : ClusterId) : Bool := bit s.power.curLatch k.val || bit s.power.hotLatch k.val

/-- A cluster goes to the fallback clock. -/
def toFallback (s : State) (k : ClusterId) : State := modClk s k fun c => { c with fallback := true, freq := fallbackClk }

/-- A cluster goes back to its PLL, where it has one that is locked and no limit holds it. -/
def fromFallback (s : State) (k : ClusterId) : State :=
  if latched s k || !(getCl s k).clk.locked then s
  else modClk s k fun c => { c with fallback := false, freq := c.target, vcore := Config.vcoreFor c.target }

/-- Whether a flip or a snapshot stop is in progress in a cluster (01 R23). -/
def flipBusy (s : State) (k : ClusterId) : Bool :=
  (List.finRange 8).any fun j => let p := (getCore s (coreOf k j)).pend
    p.flip.isSome || p.snap

/-- A change of a cluster PLL's frequency: it waits for a limit's release (R449), for the PLL, and for a flip or snapshot stop. -/
def mayChange (s : State) (k : ClusterId) : Bool := !latched s k && (getCl s k).clk.locked && !flipBusy s k

def setFreq (s : State) (k : ClusterId) (f : Nat) : State :=
  modClk s k fun c => { c with target := f, freq := f, fallback := false, vcore := Config.vcoreFor f }

/-- CLUSTER_FREQUENCY_CHANGE (R439): 0.8 GHz up to the profile's ceiling. -/
def execClusterFrequencyChange (k : ClusterId) (f : Nat) (s : State) : Host.Outcome State Fault Refusal :=
  if lkRuns s ∧ mayChange s k ∧ fallbackClk ≤ f ∧ f ≤ ceilingOf s.lk.profile then .next (setFreq s k f) else .next s

/-- CLUSTER_PLL_LOSS_OF_LOCK (R439). -/
def execClusterPllLossOfLock (k : ClusterId) (s : State) : Host.Outcome State Fault Refusal :=
  if (getCl s k).clk.locked then
    .next (logErr (toFallback (modClk s k fun c => { c with locked := false }) k) 0x0F 0 0 k.val 0 3)
  else .next s

/-- CLUSTER_PLL_RELOCK (R439). -/
def execClusterPllRelock (k : ClusterId) (s : State) : Host.Outcome State Fault Refusal :=
  if clocksRun s ∧ s.lk.boot ≠ .rom ∧ s.lk.boot ≠ .calibration then
    .next (fromFallback (modClk s k fun c => { c with locked := true }) k)
  else .next s

/-- PROFILE_CLUSTER_SWITCH (01 R22, R23): a cluster takes the clock of the new profile; with the last one `SET_PROFILE`
completes. -/
def execProfileClusterSwitch (k : ClusterId) (s : State) : Host.Outcome State Fault Refusal :=
  if !bit s.lk.switching k.val ∨ !lkRuns s ∨ flipBusy s k then .next s
  else
    let f := min (ceilingOf s.lk.profile) 48
    let s := modClk s k fun c => { c with target := f }
    let s := fromFallback s k
    let s := { s with lk := { s.lk with switching := bvSet s.lk.switching k.val false } }
    .next (if s.lk.switching = 0 ∧ s.lk.cur.any (fun c => c.opcode == 0x0010) then answer s stOk else s)

/-! ## The power cap and the current limit (R446, R447; 01 R18) -/

/-- Whether a cluster holds a core of a compartment in deterministic mode. -/
def detCluster (s : State) (k : ClusterId) : Bool :=
  allComps.any fun p => bit (getComp s p).res.modes 1
    && (List.finRange 8).any fun j => bit (getComp s p).res.cores (coreOf k j).val

/-- Whether a step down may fall on a cluster: the deterministic ones come last. -/
def stepsFirst (s : State) (k : ClusterId) : Bool :=
  !detCluster s k || allClusters.all fun j => detCluster s j || decide ((getCl s j).clk.target ≤ fallbackClk)

/-- POWER_CAP_STEP (R446): one step of 50 MHz in one cluster, or the release of a cluster that the current limit holds (R447). -/
def execPowerCapStep (k : ClusterId) (up : Bool) (s : State) : Host.Outcome State Fault Refusal :=
  let f := (getCl s k).clk.target
  let p := s.lk.sample.s.power
  if !lkRuns s then .next s
  else if bit s.power.curLatch k.val then
    if s.power.overSamples = 0 then
      .next (fromFallback { s with power := { s.power with curLatch := bvSet s.power.curLatch k.val false } } k)
    else .next s
  else if !mayChange s k then .next s
  else if up then
    if p < s.power.cap ∧ f < ceilingOf s.lk.profile ∧ !bit s.power.throttle k.val then .next (setFreq s k (f + 1))
    else .next s
  else if s.power.cap < p ∧ fallbackClk < f ∧ stepsFirst s k then .next (setFreq s k (f - 1))
  else .next s

/-- CURRENT_SAMPLE (R447): after ten samples in a row above 37 A every cluster goes to the fallback clock. -/
def execCurrentSample (ma : Nat) (s : State) : Host.Outcome State Fault Refusal :=
  if s.power.reg ≠ .on then .next s
  else
    let n := if 37000 < ma then s.power.overSamples + 1 else 0
    let s := { s with power := { s.power with overSamples := n } }
    if n < 10 then .next s
    else .next (allClusters.foldl toFallback { s with power := { s.power with curLatch := 0xFFFF } })

/-! ## Telemetry (15 R377) -/

/-- The highest of the sensors that belong to no cluster. -/
def sharedTemp (t : ThermalReading) : Int := (t.controller ++ t.port).foldl max t.hub

/-- The temperature that a cluster acts on, in 0.1 °C: its own sensor or a shared one (Table 19.7). -/
def clusterTemp (t : ThermalReading) (k : ClusterId) : Int := max (t.cluster.getD k.val (-2732)) (sharedTemp t)

/-- The millisecond step of a throttled cluster (Table 19.7): 100 MHz down at 98 °C and above, 50 MHz up below 95 °C, until the
ceiling ends the episode. -/
def throttleStep (s : State) (k : ClusterId) : State :=
  match s.power.temps with
  | none => s
  | some t =>
    let f := (getCl s k).clk.target
    if !bit s.power.throttle k.val || !mayChange s k then s
    else if 980 ≤ clusterTemp t k then setFreq s k (max fallbackClk (f - 2))
    else if clusterTemp t k < 950 then
      let s := setFreq s k (min (ceilingOf s.lk.profile) (f + 1))
      if ceilingOf s.lk.profile ≤ f + 1 then
        { s with power := { s.power with throttle := bvSet s.power.throttle k.val false } }
      else s
    else s

/-- MR4 is read with the sample (15 Table 15.14): the subchannels of the channels above 85 °C (17 R417). -/
def readMr4 (s : State) (temps : List Int) : State :=
  { s with dram := { s.dram with
    hot := (List.range 16).foldl (fun m i => bvSet m i (decide (850 < temps.getD (i / 2) 0))) 0 } }

/-- TELEMETRY_SAMPLE (15 R377, 19 R446, R448): every 1 ms the Lockkeeper samples its sensors, sets the cap and steps the clusters
that are throttled. -/
def execTelemetrySample (r : SensorSample) (s : State) : Host.Outcome State Fault Refusal :=
  let first := s.lk.sample = Sample.reset
  if !lkRuns s ∨ s.lk.boot = .recovery ∨ !(first ∨ s.lk.sample.tick.toNat + 1000000 ≤ (hubTick s).toNat) then .next s
  else
    let pc := profileCap s.lk.profile
    let limit := min pc (currentCap r.vin)
    let capped := decide (limit ≤ r.power)
    let flags : BitVec 3 := BitVec.ofNat 3
      ((capped && limit == pc).toNat + 2 * (s.power.throttle != 0 || s.power.hotLatch != 0).toNat
        + 4 * ((capped && limit != pc) || s.power.curLatch != 0).toNat)
    let x : Sample :=
      { tick := hubTick s, s := r, clusterT := (s.power.temps.map (·.cluster)).getD []
        freq := allClusters.map fun k => 50 * (getCl s k).clk.freq, flags := flags }
    let s := readMr4 { s with lk := { s.lk with sample := x }, power := { s.power with cap := limit } } r.dramT
    .next (allClusters.foldl throttleStep s)

/-! ## Thermal limits (R448, 18 R429) -/

/-- Whether some sensor reads at or above a temperature. -/
def anyAbove (t : ThermalReading) (v : Int) : Bool := t.cluster.any (v ≤ ·) || decide (v ≤ sharedTemp t)

/-- An episode of throttling begins: it is logged, and the host told. -/
def beginThrottle (s : State) (mask : BitVec 16) (unit : Nat) (t : Int) : State :=
  let s := { s with power := { s.power with throttle := s.power.throttle ||| mask } }
  postEvent (logErr s 0x0F 0 0 unit 0 0) 0x0008 0 0 (BitVec.ofNat 64 ((BitVec.ofInt 16 t).toNat + 2 ^ 16))

/-- The Lockkeeper's part of Table 19.7: throttling where a sensor reaches 100 °C. -/
def startThrottles (s : State) (t : ThermalReading) : State :=
  if !lkRuns s then s
  else
    let s := allClusters.foldl (fun s k =>
      let v := t.cluster.getD k.val (-2732)
      if 1000 ≤ v ∧ !bit s.power.throttle k.val then beginThrottle s (bvSet 0 k.val true) k.val v else s) s
    if 1000 ≤ sharedTemp t ∧ s.power.throttle ≠ 0xFFFF then beginThrottle s 0xFFFF 0 (sharedTemp t) else s

/-- The hub's part: the fallback clock everywhere from 110 °C on, until every sensor reads below 100 °C. -/
def hotLimit (s : State) (t : ThermalReading) : State :=
  if anyAbove t 1100 then
    let s := allClusters.foldl toFallback { s with power := { s.power with hotLatch := 0xFFFF } }
    if lkRuns s then
      allClusters.foldl (fun s k => modClk s k fun c => { c with vcore := Config.vcoreFor fallbackClk }) s
    else s
  else if s.power.hotLatch ≠ 0 ∧ lkRuns s ∧ !anyAbove t 1000 then
    allClusters.foldl fromFallback { s with power := { s.power with hotLatch := 0 } }
  else s

/-- THERMAL_SAMPLE (R448). -/
def execThermalSample (t : ThermalReading) (s : State) : Host.Outcome State Fault Refusal :=
  if s.power.reg ≠ .on ∨ !s.pins.resetN then .next s
  else
    let s := { s with power := { s.power with temps := some t } }
    .next (startThrottles (hotLimit s t) t)

/-- The regulator controller trips: the record on the 12 V side stands, and the rails are removed (R435). -/
def trip (s : State) (code : Byte) : State :=
  powerLost { s with power := { s.power with tripRec := some code, rails := 0 } } .trip

/-- THERMAL_TRIP (18 R429): a sensor has reached 115 °C. -/
def execThermalTrip (s : State) : Host.Outcome State Fault Refusal :=
  match s.power.temps with
  | some t =>
    if s.power.reg = .on ∧ anyAbove t 1150 then
      .next (trip { s with pins := { s.pins with thermtripN := false } } 1)
    else .next s
  | none => .next s

/-! ## The regulator controller (R435, R436) -/

/-- REGULATOR_COMMAND: a setpoint in the range and steps of `VCORE` (Table 19.1), or the cap. -/
def execRegulatorCommand (r : RegCommand) (s : State) : Host.Outcome State Fault Refusal :=
  if s.power.reg ≠ .on ∨ !lkRuns s then .next s
  else match r with
    | .setVcore k mv =>
      if 700 ≤ mv ∧ mv ≤ 950 ∧ mv % 5 = 0 then .next (modClk s k fun c => { c with vcore := mv }) else .next s
    | .setCap mw => if mw ≤ capLimit s s.lk.profile then .next { s with power := { s.power with cap := mw } } else .next s

/-- How many rails are up once a rail is (Table 19.3). -/
def railNo : Rail → Nat
  | .vaux => 1
  | .vsram => 2
  | .vcore => 3
  | .vio => 4
  | .vddq => 5

/-- RAIL_FAULT: a rail that is up, or is coming up, is out of its range. -/
def execRailFault (r : Rail) (s : State) : Host.Outcome State Fault Refusal :=
  if s.power.reg = .on ∨ (s.power.reg = .ramp ∧ railNo r ≤ s.power.rails + 1) then .next (trip s 2) else .next s

/-- INPUT_POWER_APPLIED (Table 19.2). -/
def execInputPowerApplied (s : State) : Host.Outcome State Fault Refusal :=
  if s.pins.input12 then .next s
  else .next { s with pins := { s.pins with input12 := true }, power := { s.power with reg := .off, rails := 0 } }

/-- INPUT_POWER_REMOVED: `TRIP` is left, and `THERMTRIP_N` is released (18 R429). -/
def execInputPowerRemoved (s : State) : Host.Outcome State Fault Refusal :=
  if s.pins.input12 then
    let s := powerLost { s with power := { s.power with rails := 0 } } .off
    .next { s with pins := { s.pins with input12 := false, thermtripN := true } }
  else .next s

/-- PWRGOOD_RISE (R436): from `OFF` the rails come up, and the straps are sampled. -/
def execPwrgoodRise (d : DevId) (s : State) : Host.Outcome State Fault Refusal :=
  if s.pins.pwrgood then .next s
  else
    let s := { s with pins := { s.pins with pwrgood := true } }
    if s.pins.input12 ∧ s.power.reg = .off then .next (startRamp { s with devid := BitVec.ofFin d })
    else if s.power.reg = .down then .next { s with devid := BitVec.ofFin d }
    else .next s

/-- RAIL_GOOD (Table 19.3): the next rail ramps; with `VIO` `DRAM_PWR_EN` is driven; `VDDQ` waits for `DRAM_PG`, and with it the
Lockkeeper leaves reset. -/
def execRailGood (s : State) : Host.Outcome State Fault Refusal :=
  let n := s.power.rails + 1
  if s.power.reg ≠ .ramp then .next s
  else if n < 4 then .next { s with power := { s.power with rails := n } }
  else if n = 4 then .next { s with power := { s.power with rails := 4, dramPwrEn := true, since := s.now } }
  else if s.pins.dramPg then
    .next { s with power := { s.power with rails := 5, reg := .on }, lk := { s.lk with boot := .rom, lastBeat := s.now } }
  else .next s

/-- DRAM_PG (R436). -/
def execDramPg (s : State) : Host.Outcome State Fault Refusal :=
  if s.power.dramPwrEn then .next { s with pins := { s.pins with dramPg := true } } else .next s

/-- DRAM_PG_TIMEOUT (R436): 2.5 ms after `DRAM_PWR_EN`; it is logged as a rail fault. -/
def execDramPgTimeout (s : State) : Host.Outcome State Fault Refusal :=
  if s.power.reg = .ramp ∧ s.power.rails = 4 ∧ !s.pins.dramPg ∧ s.power.since + 2500000 ≤ s.now then .next (trip s 2)
  else .next s

/-- PWRGOOD_FALL (R436, R440): every output inert, the rails down in reverse order. -/
def execPwrgoodFall (s : State) : Host.Outcome State Fault Refusal :=
  if !s.pins.pwrgood then .next s
  else
    let s := { s with pins := { s.pins with pwrgood := false } }
    if s.power.reg = .on ∨ s.power.reg = .ramp then
      .next (powerLost { s with power := { s.power with since := s.now } } .down)
    else .next s

end Sys2Proof.Machine
end

