-- ==== Sys2Proof/Machine/Lockkeeper.lean ====
section
/-! DEFINITION. The Lockkeeper (15): the doorbell and the dispatch of commands, the commands of the device, links, telemetry and
log, lockup reports, the heartbeat and restarts, and the abort timer. -/

namespace Sys2Proof.Machine

/-! ## Results (Tables 15.7 and 15.14) -/

/-- Device state of `GET_STATUS`. -/
def deviceCode (s : State) : Nat :=
  match s.lk.boot with
  | .ready => 1
  | .recovery => 2
  | _ => 0

/-- The code of a compartment state (Table 15.7). -/
def stateCode (st : CState) : Nat :=
  match st with
  | .empty => 0
  | .created => 1
  | .running => 2
  | .quiescing => 3
  | .quiesced => 4
  | .aborting => 5
  | .aborted => 6
  | .scrubbing => 7

/-- Memory rate code. -/
def rateCode (mts : Nat) : Nat := if mts = 4800 then 0 else if mts = 5600 then 1 else 2

/-- The version of the firmware that runs; in recovery none does. -/
def runningVersion (s : State) : BitVec 32 :=
  if s.lk.boot = .recovery then Config.fwVersion [] else Config.fwVersion (s.lk.fwBank.getD s.lk.bank.toNat [])

/-- `IVER` of an accepted image, 0 for none. -/
def iverOf (u : Option Ucode) : Nat :=
  match u with
  | some x => x.iver.toNat
  | none => 0

def infoBytes (s : State) : List Byte :=
  leBytes 2 0x0572 ++ [0, s.devid.setWidth 8] ++ leBytes 4 (runningVersion s).toNat
    ++ leBytes 4 (iverOf (s.lk.accepted.getD 0 none)) ++ leBytes 4 (iverOf (s.lk.accepted.getD 1 none))
    ++ leBytes 1 (s.lk.key1.toNat + 2 * s.lk.key2.isSome.toNat) ++ leBytes 1 (rateCode s.dram.rate)
    ++ leBytes 1 s.dram.ranks ++ leBytes 1 s.lk.bank.toNat ++ leBytes 4 s.dram.units
    ++ [s.lk.reasons.getD 0 0, s.lk.reasons.getD 1 0] ++ leBytes 6 0

/-- The mask of the cores with a property. -/
def coreMask (s : State) (f : Core → Bool) : BitVec 128 :=
  maskOf 128 ((allCores.filter fun c => f (getCore s c)).map (·.val))

/-- Cores locked up and held (09 R264, R265). -/
def lockedMask (s : State) : BitVec 128 := coreMask s (·.lockHeld)

def statusBytes (s : State) : List Byte :=
  leBytes 1 (deviceCode s) ++ leBytes 1 s.lk.profile.toNat
    ++ allComps.map (fun p => if p = 0 then 0 else BitVec.ofNat 8 (stateCode (getComp s p).st))
    ++ leBytes 16 (lockedMask s).toNat ++ leBytes 16 (coreMask s (·.mcHeld)).toNat
    ++ leBytes 4 (logEntries s).length ++ leBytes 2 0

/-- A signed 16-bit field. -/
def sbytes2 (v : Int) : List Byte := leBytes 2 (BitVec.ofInt 16 v).toNat

/-- `n` fields of two bytes, those missing 0. -/
def fields2 (n : Nat) (l : List Int) : List Byte := (List.range n).flatMap fun i => sbytes2 (l.getD i 0)

def telemetryBytes (s : State) : List Byte :=
  let x := s.lk.sample
  leBytes 8 x.tick.toNat ++ leBytes 4 x.s.vin ++ leBytes 4 x.s.current ++ leBytes 4 x.s.power ++ leBytes 4 x.s.logic
    ++ leBytes 8 x.s.energy ++ fields2 16 x.clusterT ++ fields2 16 (x.freq.map Int.ofNat) ++ fields2 8 x.s.dramT
    ++ fields2 5 (x.s.rails.map Int.ofNat) ++ leBytes 2 x.flags.toNat ++ leBytes 4 0

/-- `SMB_ALERT_N` is high (20 R453). -/
def smbAlertN (s : State) : Bool := !(bit s.lk.sample.flags 1 || bit s.lk.sample.flags 2)

/-- `LOCKUP_N` is high (09 R264, R265): no core is locked up; one that the recovery stub stopped does not drive it. -/
def lockupN (s : State) : Bool :=
  allCores.all fun c =>
    let k := getCore s c
    !(k.run == .locked || (k.lockHeld && k.lock.any fun r => r.cause != 0x06))

/-! ## Commands of the device -/

def cmdGetInfo (s : State) : State := respond s stOk 0 (infoBytes s)

def cmdGetStatus (s : State) : State := respond s stOk 0 (statusBytes s)

/-- `SET_PROFILE` (01 R22, R23): the cap changes, every live compartment is told, and the clusters switch one at a time; the
command completes with the last of them. -/
def cmdSetProfile (s : State) : State :=
  let v := argN s 0 1
  if 2 < v ∨ argN s 1 7 ≠ 0 then answer s stBadArg
  else
    let s := { s with
      lk := { s.lk with profile := BitVec.ofNat 2 v, switching := 0xFFFF }
      power := { s.power with cap := capLimit s (BitVec.ofNat 2 v) } }
    allComps.foldl (fun s p => if (getComp s p).st = .empty then s else notify s p 2) s

def cmdTelemetryRead (s : State) : State := respond s stOk 0 (telemetryBytes s)

def cmdErrorLogRead (s : State) : State :=
  let n := argN s 4 2
  if n = 0 ∨ 127 < n then answer s stBadArg else respond s stOk 0 ((logFrom s (argN s 0 4) n).flatMap entryBytes)

def cmdErrorLogClear (s : State) : State := answer (clearLog s (argN s 0 4)) stOk

/-- `DEVICE_RESET`: the reset begins after `DONE`. -/
def cmdDeviceReset (s : State) : State :=
  if 1 < argN s 0 1 ∨ argN s 1 7 ≠ 0 then answer s stBadArg
  else if argN s 0 1 = 1 ∨ allComps.all (fun p => (getComp s p).st == .empty) then
    answer { s with lk := { s.lk with resetDue := true } } stOk
  else answer s stState

/-! ## Links (17 R406) -/

/-- `LINK_TRAINED` of a port. -/
def linkTrainedEvent (s : State) (x : PortId) (ok : Bool) (width : Nat) (seq : BitVec 32) : State :=
  postEvent s 0x0003 0 seq (BitVec.ofNat 64 (x.val + 8 * ok.toNat + 256 * width))

/-- One port of a `LINK_TRAIN`: a port that is up trains again only where that is asked. -/
def trainPort (again : Bool) (seq : BitVec 32) (s : State) (x : PortId) : State :=
  let p := getPort s x
  if p.trained && !p.down && !again then linkTrainedEvent s x true p.width.toNat seq
  else modPort s x fun p => { p with training := true, trainSeq := seq }

def cmdLinkTrain (s : State) : State :=
  let mask := argN s 0 1
  if 1 < argN s 1 1 then answer s stBadArg
  else
    let seq := BitVec.ofNat 32 (cmdSeq s)
    let ports := (List.finRange 8).filter fun x => mask / 2 ^ x.val % 2 == 1
    ports.foldl (trainPort (argN s 1 1 == 1) seq) (answer s stOk)

/-- Whether two ports may join the same two devices: the ports towards one neighbour of a ring or a hypercube, or every port of a
point-to-point pair (Table 17.1). -/
def mayShare (s : State) (x y : PortId) (d : BitVec 4) : Bool :=
  x.val / 4 == y.val / 4 || (List.finRange 8).all fun z => z == x || !(getPort s z).trained || (getPort s z).peer == d

/-- Whether training fails (R406). -/
def trainFails (s : State) (x : PortId) (r : TrainResult) : Bool :=
  let d := BitVec.ofFin r.peer
  !r.lane0 || !(r.width == 4 || r.width == 8 || r.width == 16) || d == s.devid
    || (List.finRange 8).any fun y => y != x && (getPort s y).trained && (getPort s y).peer == d && !mayShare s x y d

/-- LINK_TRAINED: a port that trains becomes idle at its first sequence numbers; one that was up resumes from the last flit
acknowledged. -/
def execLinkTrained (x : PortId) (r : TrainResult) (s : State) : Host.Outcome State Fault Refusal :=
  let p := getPort s x
  if !p.training then .next s
  else if trainFails s x r then
    let s := if p.trained && !p.down then portDown s x else modPort s x fun p => { p with training := false, trained := false }
    .next (linkTrainedEvent s x false r.width.toNat p.trainSeq)
  else
    let (n, s) := fresh s
    let up := p.trained && !p.down
    let p' : Port :=
      { Port.reset with
        trained := true, width := r.width, peer := BitVec.ofFin r.peer, half := Config.linkHalf n, trainSeq := p.trainSeq
        txSeq := if up then p.txSeq else 0, rxSeq := if up then p.rxSeq else 0, sent := if up then p.sent else []
        queued := p.queued }
    .next (linkTrainedEvent (flushQueue (modPort s x fun _ => p') x) x true r.width.toNat p.trainSeq)

/-! ## The abort command (15 R371, R372) -/

/-- The abort that the executing command started or joined no longer answers it. -/
def unlinkAbort (s : State) (p : CompId) : State :=
  modComp s p fun c => { c with abort := c.abort.map fun a => { a with byCmd := false, joined := false } }

/-- The part of `COMPARTMENT_ABORT` that the firmware has: the abort that runs answers the command. -/
def cmdAbort (s : State) : State :=
  match (getComp s (curComp s)).st with
  | .aborting => modComp s (curComp s) fun c =>
      { c with abort := c.abort.map fun a => { a with joined := a.joined || !a.byCmd } }
  | .aborted => answer s stOk
  | _ => answer s stState

/-! ## The doorbell and the dispatch (15 R365 to R367, R371) -/

/-- What an opcode does once its header has been checked. -/
def runMailbox (s : State) : State :=
  match cmdOpcode s with
  | 0x0001 => cmdGetInfo s
  | 0x0002 => cmdGetStatus s
  | 0x0010 => cmdSetProfile s
  | 0x0020 => cmdCreate s
  | 0x0021 => cmdLoad s
  | 0x0022 => cmdStart s
  | 0x0023 => cmdQuiesce s
  | 0x0024 => cmdAbort s
  | 0x0025 => cmdDestroy s
  | 0x0030 => cmdWeirConfig s
  | 0x0031 => cmdWeirSchedule s
  | 0x0040 => cmdLinkTrain s
  | 0x0041 => answer s stOk
  | 0x0050 => cmdTelemetryRead s
  | 0x0060 => cmdErrorLogRead s
  | 0x0061 => cmdErrorLogClear s
  | 0x0070 => cmdFwUpdate s
  | 0x0071 => cmdMicrocodeStage s
  | 0x0080 => cmdSnapshot s
  | 0x00F0 => cmdDeviceReset s
  | _ => answer s stUnsupported

/-- Whether the header fits the command: `LEN`, RSV bytes and `COMPART` (R366), which names a compartment for `WEIR_CONFIG` too
(R375). -/
def headerOk (s : State) (op n : Nat) : Bool :=
  hdrClean s && cmdLen s == n && (if compCommand op || op == 0x0030 then decide ((cmdComp s).toNat < 16) else cmdComp s == 0)

/-- A command that the Lockkeeper turns away before it does anything: its status, if it does. -/
def turnedAway (s : State) : Option Nat :=
  let op := cmdOpcode s
  match cmdArgLen s op with
  | none => some stUnsupported
  | some n =>
    if s.lk.boot = .recovery then
      if !([0x01, 0x02, 0x70, 0xF0].contains op) then some stUnsupported
      else if headerOk s op n then none else some stBadArg
    else if !s.pins.ready ∧ op ≠ 1 ∧ op ≠ 2 then some stNotReady
    else if headerOk s op n then none else some stBadArg

/-- The Lockkeeper takes the command in the buffer. -/
def execCommand (s : State) : State :=
  match turnedAway s with
  | some st => answer (if cmdOpcode s = 0x24 then unlinkAbort s (curComp s) else s) st
  | none => runMailbox s

/-- The part of an abort doorbell that the hardware decodes itself (R371): an abort starts, or joins the one that runs. -/
def abortDoorbell (s : State) : State :=
  let p := curComp s
  if cmdOpcode s ≠ 0x24 ∨ 16 ≤ (cmdComp s).toNat ∨ p = 0 then s
  else if (getComp s p).st = .aborting then
    modComp s p fun c => { c with abort := c.abort.map fun a => { a with joined := true } }
  else startAbort s p true false

/-- A command that was held executes, once the firmware runs and no other command executes (19 R442, R445). -/
def takeHeld (s : State) : State :=
  if s.lk.held && lkRuns s && !s.lk.cur.any (·.lost) then execCommand { s with lk := { s.lk with held := false } } else s

/-- A doorbell with `GO` = 1 (R365, 19 R445): a busy mailbox discards it; else the command is taken, or held until the firmware runs
and the command before it, whose response was lost, has ended. -/
def doorbell (s : State) : State :=
  if s.mbx.busy then { s with mbx := { s.mbx with rej := true } }
  else
    let cur : CurCmd :=
      { opcode := BitVec.ofNat 16 (cmdOpcode s), seq := BitVec.ofNat 32 (cmdSeq s), comp := cmdComp s, start := s.now
        lost := false }
    let lk := if s.lk.cur.isSome then { s.lk with next := some cur, held := true } else { s.lk with cur := some cur, held := true }
    takeHeld (abortDoorbell { s with mbx := { s.mbx with busy := true, done := false }, lk := lk })

/-- The host writes a command into the buffer and rings the doorbell. -/
def mailboxCommand (op : Nat) (m : MbxCmd) (s : State) : State :=
  if hostReaches s then doorbell (writeCmdBuf s 0 (cmdBytes op m)) else s

def execGetInfo (m : MbxCmd) (s : State) : Host.Outcome State Fault Refusal := .next (mailboxCommand 0x0001 m s)
def execGetStatus (m : MbxCmd) (s : State) : Host.Outcome State Fault Refusal := .next (mailboxCommand 0x0002 m s)
def execSetProfile (m : MbxCmd) (s : State) : Host.Outcome State Fault Refusal := .next (mailboxCommand 0x0010 m s)
def execCompartmentCreate (m : MbxCmd) (s : State) : Host.Outcome State Fault Refusal := .next (mailboxCommand 0x0020 m s)
def execCompartmentLoad (m : MbxCmd) (s : State) : Host.Outcome State Fault Refusal := .next (mailboxCommand 0x0021 m s)
def execCompartmentStart (m : MbxCmd) (s : State) : Host.Outcome State Fault Refusal := .next (mailboxCommand 0x0022 m s)
def execCompartmentQuiesce (m : MbxCmd) (s : State) : Host.Outcome State Fault Refusal := .next (mailboxCommand 0x0023 m s)
def execCompartmentAbort (m : MbxCmd) (s : State) : Host.Outcome State Fault Refusal := .next (mailboxCommand 0x0024 m s)
def execCompartmentDestroy (m : MbxCmd) (s : State) : Host.Outcome State Fault Refusal := .next (mailboxCommand 0x0025 m s)
def execWeirConfig (m : MbxCmd) (s : State) : Host.Outcome State Fault Refusal := .next (mailboxCommand 0x0030 m s)
def execWeirSchedule (m : MbxCmd) (s : State) : Host.Outcome State Fault Refusal := .next (mailboxCommand 0x0031 m s)
def execLinkTrain (m : MbxCmd) (s : State) : Host.Outcome State Fault Refusal := .next (mailboxCommand 0x0040 m s)
def execLinkStatus (m : MbxCmd) (s : State) : Host.Outcome State Fault Refusal := .next (mailboxCommand 0x0041 m s)
def execTelemetryRead (m : MbxCmd) (s : State) : Host.Outcome State Fault Refusal := .next (mailboxCommand 0x0050 m s)
def execErrorLogRead (m : MbxCmd) (s : State) : Host.Outcome State Fault Refusal := .next (mailboxCommand 0x0060 m s)
def execErrorLogClear (m : MbxCmd) (s : State) : Host.Outcome State Fault Refusal := .next (mailboxCommand 0x0061 m s)
def execFwUpdate (m : MbxCmd) (s : State) : Host.Outcome State Fault Refusal := .next (mailboxCommand 0x0070 m s)
def execMicrocodeStage (m : MbxCmd) (s : State) : Host.Outcome State Fault Refusal := .next (mailboxCommand 0x0071 m s)
def execProgramKeySlot2 (m : MbxCmd) (s : State) : Host.Outcome State Fault Refusal := .next (mailboxCommand 0x0071 m s)
def execSnapshot (m : MbxCmd) (s : State) : Host.Outcome State Fault Refusal := .next (mailboxCommand 0x0080 m s)
def execDeviceReset (m : MbxCmd) (s : State) : Host.Outcome State Fault Refusal := .next (mailboxCommand 0x00F0 m s)

/-! ## Lockups (09 R264, R265) -/

/-- The Lockkeeper's work on a core that has locked up or that the stub has stopped: the log, the notice, the event, and the reset
of the core alone, which stays held. Stores that have left the pipeline reach L2 first (12 R309). -/
def reportLock (s : State) (c : CoreId) (r : LockRecord) : State :=
  let k := getCore s c
  let s := logErr s 0x07 1 k.compart.toNat c.val r.epc (BitVec.ofNat 64 (r.cause.toNat + 256 * r.vec.toNat))
  let s := if k.compart = 0 then s else notify s (compId k.compart) 0
  let s := postEvent s 0x0006 k.compart.toNat 0 (BitVec.ofNat 64 (c.val + 256 * r.cause.toNat))
  resetCore (modCore (drainAll s c) c fun k => { k with lockHeld := true }) c

/-- LOCKUP_REPORT. -/
def execLockupReport (c : CoreId) (s : State) : Host.Outcome State Fault Refusal :=
  match (getCore s c).lock with
  | some r => if (getCore s c).run = .locked ∧ lkRuns s then .next (reportLock s c r) else .next s
  | none => .next s

/-- RECOVERY_STOP_REPORT. -/
def execRecoveryStopReport (c : CoreId) (s : State) : Host.Outcome State Fault Refusal :=
  match (getCore s c).lock with
  | some r => if (getCore s c).run = .stub ∧ lkRuns s then .next (reportLock s c r) else .next s
  | none => .next s

/-! ## Heartbeat and restart (15 R363, R378; 18 Table 18.1 class 0x0E) -/

/-- Whether firmware runs: the ROM of a recovery has no heartbeat. -/
def firmwareRuns (s : State) : Bool := lkRuns s && s.lk.boot != .recovery

/-- The Lockkeeper's turn: the aborts that lost state calls for start (12 R317), and a command that was held executes. -/
def lkTurn (s : State) : State := takeHeld (dueAborts s)

/-- HEARTBEAT. -/
def execHeartbeat (s : State) : Host.Outcome State Fault Refusal :=
  if firmwareRuns s ∧ s.lk.lastBeat + 1000000 ≤ s.now then
    .next (lkTurn { s with mbx := { s.mbx with hbeat := s.mbx.hbeat + 1 }, lk := { s.lk with lastBeat := s.now } })
  else .next s

/-- The Lockkeeper restarts alone: what it held in memory is gone, and an abort that runs is left to its timer. -/
def lkRestart (s : State) : State :=
  let s := { s with lk := { s.lk with restarting := true, stage := none }, weir := { s.weir with sched := none } }
  let s := allComps.foldl (fun s p => modComp s p fun c =>
    { c with abort := c.abort.map fun a => { a with lost := true, byCmd := false, joined := false } }) s
  logErr s 0x0E 1 0 0 0 0

/-- LOCKKEEPER_RESTART: no heartbeat for 10 ms. -/
def execLockkeeperRestart (s : State) : Host.Outcome State Fault Refusal :=
  if firmwareRuns s ∧ s.lk.lastBeat + 10000000 ≤ s.now then .next (lkRestart s) else .next s

/-- Post the events that waited. -/
def flushOwed (s : State) : State :=
  let l := s.lk.owed
  l.foldl (fun s e => postEvent s e.code e.comp e.seq e.data) { s with lk := { s.lk with owed := [] } }

/-- Releases that waited for the Lockkeeper (15 R374). -/
def pendingReleases (s : State) : State :=
  allComps.foldl (fun s p =>
    let n := (getComp s p).notice
    if n.reqBusy then doRelease s p (Fin.ofNat 128 n.reqCore.toNat) else s) s

/-- LOCKKEEPER_RESTART_DONE. -/
def execLockkeeperRestartDone (s : State) : Host.Outcome State Fault Refusal :=
  if !s.lk.restarting then .next s
  else
    let executed := !s.lk.held || s.lk.cur.any (·.lost)
    let s := { s with lk := { s.lk with restarting := false, lastBeat := s.now } }
    let s := if executed then answer s stHwError else s
    .next (lkTurn (pendingReleases (flushOwed (postEvent s 0x000B 0 0 0))))

/-- LOCKKEEPER_SRAM_ERROR. -/
def execLockkeeperSramError (correctable : Bool) (s : State) : Host.Outcome State Fault Refusal :=
  if !lkRuns s then .next s
  else if correctable then .next (logErr s 0x0E 0 0 0 0 0)
  else .next (lkRestart (logErr s 0x0E 1 0 0 0 0))

/-! ## The abort timer (15 R371, R372) -/

/-- ABORT_TIMER_EXPIRY. -/
def execAbortTimerExpiry (p : CompId) (s : State) : Host.Outcome State Fault Refusal :=
  match (getComp s p).abort with
  | some a => if !a.forced ∧ a.start + 4000000 ≤ s.now then .next (forceAbort s p) else .next s
  | none => .next s

/-- ABORT_COMPLETE: an abort whose firmware restarts is the timer's (R378). One that lost state calls for starts first (12 R317). -/
def execAbortComplete (p : CompId) (s : State) : Host.Outcome State Fault Refusal :=
  let s := dueAbort s p
  match (getComp s p).abort with
  | some a => if a.forced ∨ (!a.lost ∧ !s.lk.restarting) then .next (finishAbort s p a) else .next s
  | none => .next s

end Sys2Proof.Machine
end

