-- ==== Sys2Proof/Machine/Boot.lean ====
section
/-! DEFINITION. Resets from the board and the steps of start-up (19 R440 to R445; 15 R362; 08 R212, R213; 17 R419), and the SMBus and
JTAG ports (20 R453, R454). -/

namespace Sys2Proof.Machine

/-! ## Reset pins (Table 19.5) -/

/-- RESET_N: a device reset at the falling edge; start-up goes on from step 2 at the rising edge. -/
def execResetN (level : Bool) (s : State) : Host.Outcome State Fault Refusal :=
  let s := { s with pins := { s.pins with resetN := level } }
  .next (if level then { s with lk := { s.lk with lastBeat := s.now } } else deviceReset s)

/-- What `PERST_N` resets of the mailbox (R442): its registers; a command that executes goes on without a response, and one still
held is gone. -/
def resetMailbox (s : State) : State :=
  let executes := !s.lk.held || s.lk.cur.any (·.lost)
  { s with
    mbx := { Mailbox.reset with
      cmd := s.mbx.cmd, resp := s.mbx.resp, ring := s.mbx.ring }
    lk := { s.lk with
      cur := if executes then s.lk.cur.map fun c => { c with lost := true } else none
      next := none
      held := false } }

/-- PERST_N (R442): the port and every function are reset, transfers with a host side fail, and loads stop. -/
def execPerstN (level : Bool) (s : State) : Host.Outcome State Fault Refusal :=
  let s := { s with pins := { s.pins with perstN := level } }
  if level then .next s
  else
    let s := resetMailbox { s with pcie := { Pcie.reset with reads := s.pcie.reads, posted := s.pcie.posted } }
    let s := (List.finRange 64).foldl cvHostFail s
    .next (allComps.foldl (fun s p => stopLoad (modComp s p fun c => { c with vf := VirtFn.reset }) p) s)

/-! ## Start-up (Table 19.6) -/

/-- The trip that ended the last power-up is logged (19 R435). -/
def logTrip (s : State) : State :=
  match s.power.tripRec with
  | some c => logErr { s with power := { s.power with tripRec := none } } 0x0F 3 0 0 0 (c.setWidth 64)
  | none => s

/-- A firmware bank by number. -/
def bankImage (s : State) (b : Bool) : List Byte := s.lk.fwBank.getD b.toNat []

/-- Whether a firmware bank verifies (15 R362): its image is whole (19 Table 19.8), and its signature checks. -/
def bankOk (s : State) (b : Bool) : Bool := bit s.lk.fwWhole b.toNat && Config.fwSigOk (bankImage s b)

/-- Step 3 of start-up (15 R362): the selected bank, the other one, or recovery. -/
def bootFirmware (s : State) : State :=
  let sel := s.lk.selected
  let run (s : State) (b : Bool) : State :=
    { s with lk := { s.lk with boot := .calibration, bank := b, lastFailed := true, lastBeat := s.now } }
  if !s.lk.lastFailed && bankOk s sel then run s sel
  else if bankOk s !sel then logErr (run s !sel) 0x0E 0 0 0 0 0
  else { s with lk := { s.lk with boot := .recovery }, mbx := { s.mbx with recovery := true } }

/-- FIRMWARE_VERIFICATION: a command that was held executes as soon as the firmware runs (R445). -/
def execFirmwareVerification (s : State) : Host.Outcome State Fault Refusal :=
  if s.lk.boot ≠ .rom ∨ !clocksRun s then .next s
  else
    let s := bootFirmware (logTrip s)
    .next (takeHeld s)

/-- The lowest device of a set, with this device in it. -/
def lowestDev (s : State) (present : BitVec 16) : Nat := (bitsSet (bvSet present s.devid.toNat true)).headD s.devid.toNat

/-- The Weir after calibration (08 Table 8.2, R213): the root is the lowest device present. -/
def calibrateWeir (s : State) (r : CalResult) : Weir :=
  let root := lowestDev s r.present
  { s.weir with
    lock := true, cal := r.rootPath, root := root == s.devid.toNat, rdev := BitVec.ofNat 4 root, board := r.present
    live := bvSet r.present s.devid.toNat r.rootPath }

/-- The DRAM rates, highest first, from the one that the flash configuration area names (17 R417). -/
def rateFrom (start steps : Nat) : Nat := ((([6400, 5600, 4800] : List Nat).filter (· ≤ start)).drop steps).headD 4800

/-- The controllers take the configuration of the flash configuration area (17 R417); training lowers the rate by a step each time that a
subchannel fails (R419). -/
def trainDram (s : State) (steps : Nat) : State :=
  let c := s.lk.memCfg
  { s with dram := { s.dram with units := c.units, ranks := c.ranks, rate := rateFrom c.rate steps } }

/-- CALIBRATION (Table 19.6 step 4): every PLL, the DRAM (17 R419) and the Weir. -/
def execCalibration (r : CalResult) (s : State) : Host.Outcome State Fault Refusal :=
  if s.lk.boot ≠ .calibration ∨ s.lk.restarting ∨ !clocksRun s then .next s
  else
    match r.failedSub with
    | some x =>
      let s := trainDram s 2
      .next (logErr { s with lk := { s.lk with boot := .failed } } 0x10 3 0 x.val 0 0)
    | none =>
      let s := setTicks (trainDram s r.rateSteps) (Vector.replicate 34 0)
      let s := driveSync { s with weir := calibrateWeir s r, lk := { s.lk with boot := .memory } }
      .next (allClusters.foldl (fun s k => fromFallback (modClk s k fun c => { c with locked := true }) k) s)

/-- MEMORY_INITIALISATION (Table 19.6 step 5, 02 R42): every word is `UNINIT` 0. -/
def execMemoryInitialisation (s : State) : Host.Outcome State Fault Refusal :=
  if s.lk.boot ≠ .memory ∨ s.lk.restarting ∨ !clocksRun s then .next s
  else .next { s with dram := { s.dram with words := [] }, lk := { s.lk with boot := .microcode } }

/-! ## SMBus (20 R453) -/

/-- Whether the port answers: firmware verification has ended and the Lockkeeper does not restart. -/
def smbAnswers (s : State) : Bool := clocksRun s && lkRuns s

/-- SMBUS_BLOCK_READ (Table 20.3). -/
def execSmbusBlockRead (cmd : Byte) (s : State) : Host.Outcome State Fault Refusal :=
  let c := cmd.toNat
  let r : Option (List Byte) :=
    if !smbAnswers s then none
    else if 0x10 ≤ c ∧ c ≤ 0x13 then some (((telemetryBytes s).drop (32 * (c - 0x10))).take 32)
    else if c = 0x20 then some ((statusBytes s).take 32)
    else if c = 0x21 then some (((statusBytes s).drop 32).take 24)
    else none
  .next { s with pins := { s.pins with smb := r } }

/-! ## JTAG (20 R454) -/

/-- The instructions that drive pins. -/
def drivesPins (i : JtagInstr) : Bool :=
  match i with
  | .extest | .extestPulse | .extestTrain => true
  | .bypass | .idcode | .sample => false

/-- The `IDCODE` of the device. -/
def jtagIdcode : BitVec 32 := 0x005723AB

/-- What the selected data register captures where it does not scan pins, with its length: the `IDCODE`, or the one bit of `BYPASS`. -/
def jtagData (s : State) : Option (Nat × BitVec 32) :=
  match s.pins.ir with
  | .idcode => some (32, jtagIdcode)
  | .bypass => some (1, 0)
  | .sample | .extest | .extestPulse | .extestTrain => none

/-- JTAG_INSTRUCTION: works whenever `VAUX` is good; the forms that drive pins take effect only while `RESET_N` is low, and act as
`BYPASS` otherwise. -/
def execJtagInstruction (i : JtagInstr) (s : State) : Host.Outcome State Fault Refusal :=
  if s.power.rails = 0 then .next s
  else .next { s with pins := { s.pins with ir := if drivesPins i && s.pins.resetN then .bypass else i } }

end Sys2Proof.Machine
end

