-- ==== Sys2Proof/Machine/CoreEvents.lean ====
section
/-! DEFINITION. Events of a core that are no instruction: interrupts and machine checks, long operations that finish,
answers that arrive, alarms, and words that are no instruction. An event whose condition the state does not meet does not
come about (log 7). -/

namespace Sys2Proof.Machine

/-! ## Interrupts (09 R249, 04 R111, 06 R161) -/

/-- HALT_WAKE (04 R111, 09 R260, 18 R424): a halt ends when an interrupt routed above `IPL` is pending, whatever `IE` holds, or
an imprecise report or a machine check is. What is pending is then taken at the boundary where the core stands. -/
def haltWake (c : CoreId) (s : State) : State :=
  let k := getCore s c
  if k.run = .halted ∧ ((topIrq s c (ipl k).val).isSome || k.pend.mc.isSome || !k.pend.reports.isEmpty) then
    modCore s c fun k => { k with run := .running }
  else s

/-- INTERRUPT_ENTRY: the core takes what is due at its boundary, or out of a wait it may abandon. A halt ends when an
interrupt routed above `IPL` is pending, with `IE` = 0 without being taken (04 R111). -/
def execInterruptEntry (c : CoreId) (s : State) : Host.Outcome State Fault Refusal :=
  let s := haltWake c s
  .next ((takeDue c s).getD s)

/-! ## Machine checks (18 R424) -/

/-- The report of a core's own fault (18 Table 18.2), with its error class (Table 18.1). -/
def mcReport : McSource → Option (Nat × McReport)
  | .microStack upc low => some (0x06, stackReport upc.toNat low)
  | .controlStore upc q => some (0x06, ⟨0x02, 0, BitVec.ofNat 64 (upc.toNat + 2 ^ 17 * q.toNat)⟩)
  | .regFile r b num => some (0x05, ⟨0x04, 0, BitVec.ofNat 64 (r.toNat + 32 * b.toNat + 256 * num.toNat)⟩)
  | _ => none

/-- The vector of the entry that a core is about to make, or is making. -/
def entryVector (s : State) (c : CoreId) : Option Byte :=
  let k := getCore s c
  match k.wait with
  | some { what := _, resume := .entry e } => some e.vec
  | _ =>
    if k.pend.mc.isSome then some 0x00
    else match k.pend.reports.head? with
      | some r => some r.vec
      | none => if k.pend.step.isSome then some 0x18 else (admitted s c).map fun i => BitVec.ofNat 8 i.1

/-- Whether the core waits inside an entry. -/
def inEntry (k : Core) : Bool :=
  match k.wait with
  | some { what := _, resume := .entry _ } => true
  | _ => false

/-- Bad parity in the mark stack cache or the claim unit of a Percolator that works for a compartment (18 R424, Table 18.1 class `0x0A`):
every core of the compartment on the device gets the check, and its abort is due. -/
def engineCheck (s : State) (k : ClusterId) (p : CompId) : State :=
  loseComp s 0x0A k.val p 0 { sub := 5, eaddr := 0, einfo := BitVec.ofNat 64 (k.val + 16 * s.devid.toNat) }

/-- A dirty-line error that another device of the compartment has found (12 R317 step 4): that device logs it and starts the abort. -/
def otherCheck (s : State) (p : CompId) (line : BitVec 38) (info : BitVec 10) : State :=
  pendMcAll s p { sub := 3, eaddr := BitVec.ofNat 64 (line.toNat * 64), einfo := info.setWidth 64 }

/-- MACHINE_CHECK (18 R424): one that is pending is taken at the boundary, ending a halt; a fault of the core's own abandons
its instruction and is taken there, but for a wait that may not be abandoned, which completes first. -/
def execMachineCheck (c : CoreId) (src : McSource) (s : State) : Host.Outcome State Fault Refusal :=
  let k := getCore s c
  match src with
  | .pending =>
    if k.pend.mc.isNone then .next s
    else
      let s' := if k.run = .halted then modCore s c fun k => { k with run := .running } else s
      .next ((takeDue c s').getD s)
  | .engine p => .next (engineCheck s (clusterOf c) p)
  | .otherDevice p line info => .next (otherCheck s p line info)
  | .microStackInEntry upc low =>
    if k.run ≠ .running then .next s
    else match entryVector s c with
      | some v => .next (lockInEntry (logMc s c 0x06 (stackReport upc.toNat low)) c v)
      | none => .next s
  | src =>
    if k.run ≠ .running then .next s
    else match mcReport src with
      | none => .next s
      | some (cls, r) =>
        let s := logMc s c cls r
        if inEntry k then
          if cls = 0x06 then .next (lockInEntry s c ((entryVector s c).getD 0)) else .next (pendMc s c r)
        else .next ((takeDue c (pendMc s c r)).getD (pendMc s c r))

/-! ## Long operations (10 R274, R275) -/

/-- The oldest long operation that satisfies a test completes. -/
def completeFirst (p : LongOp → Bool) (k : Core) : Core :=
  match k.longs.findIdx? p with
  | some i => match k.longs[i]? with
    | some o => completeOp { k with longs := k.longs.eraseIdx i } o
    | none => k
  | none => k

/-- DIVIDE_COMPLETE (10 R275, 09 R253). The report of a zero divisor ends a halt (09 R260). -/
def execDivideComplete (c : CoreId) (s : State) : Host.Outcome State Fault Refusal :=
  .next (haltWake c (modCore s c (completeFirst fun o => o.divider && !o.numeric)))

/-- LONG_OPERATION_COMPLETE (10 R274). -/
def execLongOperationComplete (c : CoreId) (s : State) : Host.Outcome State Fault Refusal :=
  .next (modCore s c (completeFirst fun o => !(o.divider && !o.numeric)))

/-! ## Answers (06 R159, R173; 11 R305) -/

/-- MARK_BUFFER_ROOM (06 R159). -/
def execMarkBufferRoom (c : CoreId) (s : State) : Host.Outcome State Fault Refusal :=
  if waitOf s c = some .markRoom ∧ (getCore s c).mark.length < 16 then .next (resumeCore c s) else .next s

/-- Take the first answer of a kind for a core. -/
def takeAnswer (s : State) (c : CoreId) (p : Answer → Bool) : Option (Answer × State) :=
  match s.answers.findIdx? fun a => a.1 == c && p a.2 with
  | some i => (s.answers[i]?).map fun a => (a.2, { s with answers := s.answers.eraseIdx i })
  | none => none

/-- Whether a microprogram has asked for the forwarding of an address, or for a card, and has not taken the answer. -/
def microAsked (s : State) (c : CoreId) (t : W64) : Bool :=
  match (getCore s c).micro.run with
  | some m => (m.fwd.map (·.payload)) == some t
  | none => false

def microCard (s : State) (c : CoreId) (pa : BitVec 44) : Bool :=
  match (getCore s c).micro.run with
  | some m => m.card == some pa
  | none => false

/-- FORWARD_REPLY (06 R159): an answer to an instruction that has been abandoned is dropped. -/
def execForwardReply (c : CoreId) (s : State) : Host.Outcome State Fault Refusal :=
  match takeAnswer s c fun a => match a with
    | .fwd _ _ => true
    | .card _ _ => false with
  | some (.fwd t n, s) =>
    let s' := modCore s c fun k => { k with replay := { k.replay with fwd := k.replay.fwd ++ [(t, n)] } }
    if waitOf s c = some (.forward t) then .next (resumeCore c s')
    else if microAsked s c t then .next s'
    else .next s
  | _ => .next s

/-- CARD_CHECK_REPLY (06 R173). -/
def execCardCheckReply (c : CoreId) (s : State) : Host.Outcome State Fault Refusal :=
  match takeAnswer s c fun a => match a with
    | .fwd _ _ => false
    | .card _ _ => true with
  | some (.card pa ok, s) =>
    let s' := modCore s c fun k => { k with replay := { k.replay with cards := k.replay.cards ++ [(cardOf pa, ok)] } }
    if waitOf s c = some (.card pa) then .next (resumeCore c s')
    else if microCard s c pa then .next s'
    else .next s
  | _ => .next s

/-- INVTLB_B_COMPLETE (11 R305): every target has acknowledged, and the engines' TLBs lose their entries too. -/
def execInvtlbBComplete (c : CoreId) (s : State) : Host.Outcome State Fault Refusal :=
  let comp := (getCore s c).compart
  let gone (x : CoreId) : Bool := (getCore s x).run == .held || (getCore s x).run == .locked
  match servedBcast s comp with
  | some b =>
    if waitOf s c = some .invtlb ∧ b.core = c ∧ b.toAck.all gone then
      let s := invEngines { s with bcast := dropBcast comp s.bcast } comp b
      .next (resumeCore c (modCore s c fun k => { k with replay := { k.replay with done := true } }))
    else .next s
  | none => .next s

/-! ## Ticks and alarms (08 R217, R218) -/

/-- WAITT_EXPIRY (08 R217). -/
def execWaittExpiry (c : CoreId) (s : State) : Host.Outcome State Fault Refusal :=
  match waitOf s c with
  | some (.tick t) => if t.toNat ≤ (tickOf s (clusterOf c)).toNat then .next (resumeCore c s) else .next s
  | _ => .next s

/-- ALARM_FIRE (08 R218). -/
def execAlarmFire (c : CoreId) (n : Fin 4) (s : State) : Host.Outcome State Fault Refusal :=
  let k := getCore s c
  let a := k.alarm.get n
  if bit a 60 && decide (fld a 0 60 ≤ fld (tickOf s (clusterOf c)) 0 60) then
    .next (haltWake c (modCore s c fun k => { k with
      alarm := k.alarm.set n.val (setBit (setBit a 60 false) 62 true) n.isLt
      irq := { k.irq with alm := bvSet k.irq.alm n.val true } }))
  else .next s

/-! ## Words that are no instruction (04 R90, R91, R112) -/

/-- The run of a word that decoding refuses. -/
def bodyIllegal (c : CoreId) (w : BitVec 32) (sub : Byte) (info : BitVec 32) (pair : Bool) : CM Flow := do
  let pc := (← cget c).pc
  fetchCheck c pc
  if w.toNat / 2 ^ 26 = 0x01 then inRep (fetchCheck c (pc + 4))
  let m : CM Flow := raise c 0x02 sub 0 (info.setWidth 64)
  if pair then inRep m else m

/-- ILLEGAL_INSTRUCTION (04 R90): a word, with the word that follows it, that decodes to no instruction. It names no register
and never retires, so `FENCE.L`, which names none either, stands for it in the scoreboard. -/
def execIllegalInstruction (c : CoreId) (w nextw : BitVec 32) (s : State) : Host.Outcome State Fault Refusal :=
  match illegalOf w nextw with
  | none => .next s
  | some (sub, info, pair) =>
    match admission c (.fenceL c) s with
    | .other t => .next t
    | .ready s => .next (finish c (.fenceL c) (bodyIllegal c w sub info pair) s)

end Sys2Proof.Machine
end

