-- ==== Sys2Proof/Machine/MemEvents.lean ====
section
/-! DEFINITION. Events of the memory system: line fills, upsets and mispredicted paths (12 R309, R315; 10 R277), the store
queue (10 R273), and the memory controllers' reads, patrol, refresh and drift tracking (02 R57, 17 R417 to R420). -/

namespace Sys2Proof.Machine

/-! ## Upsets (12 R315, R316) -/

/-- An upset in an L1 entry of a line. -/
def ILine.upset (x : ILine) (line : Nat) (half : Fin 16) : ILine :=
  if x.line = line then { x with bad := x.bad ||| (1#16 <<< half.val) } else x

/-- A stored bit flips: what it belongs to reads with bad parity from then on, until it is written anew (R315). -/
def upset (s : State) (c : CoreId) : ParityHit → State
  | .clean => s
  | .l1 line half => modL1 s c fun l =>
      { l with dcache := l.dcache.map fun e => (e.1, e.2.upset line.toNat half)
               victim := l.victim.map fun x => x.upset line.toNat half
               icache := l.icache.map fun e => (e.1, e.2.upset line.toNat half) }
  | .l2 line half => l2Put s (clusterOf c) line.toNat fun x => { x with bad := x.bad ||| (1#16 <<< half.val) }
  | .l2State line => l2Put s (clusterOf c) line.toNat fun x => { x with sbad := true }
  | .carafe off upper => modL2 s (clusterOf c) fun l =>
      let o := off.toNat / 8
      { l with cbad := smPut 0 l.cbad o (smGet 0 l.cbad o ||| (1#2 <<< upper.toNat)) }
  | .coreTlb va => modCore s c fun k =>
      let f (e : Nat × TlbEntry) : Nat × TlbEntry :=
        (e.1, { e.2 with bad := e.2.bad || tlbMatch e.2 k.compart (coreSpace k false) (va48 va) })
      { k with tlb := { k.tlb with itlb := k.tlb.itlb.map f, dtlb := k.tlb.dtlb.map f, stlb := k.tlb.stlb.map f } }
  | .engineTlb va => modEng s (clusterOf c) fun e =>
      { e with tlb := e.tlb.map fun t => (t.1, { t.2 with bad := t.2.bad || t.2.vpn.toNat == fld va 12 36 }) }

/-! ## Mispredicted paths (10 R277) -/

/-- A walk on a mispredicted path: one that meets a condition of Table 11.7, or an entry with V = 0, is dropped (11 R299). -/
def wrongWalk (c : CoreId) (fetch : Bool) (va : W64) : State → State := fun s =>
  if bit (coreTable (getCore s c) fetch) 0 then
    match coreLookup c fetch (va48 va) s with
    | (.ok _, t) => t
    | (.error _, _) => s
  else s

/-- An access on a mispredicted path: one that would fault, and one that is not to cached memory of this device, is not sent; the others
fill the caches as their kind does. -/
def wrongAccess (c : CoreId) (fetch : Bool) (va : W64) : State → State := fun s =>
  let k := getCore s c
  match (translate c va (if fetch then .fetch else .load) (!isSys k)).run s with
  | .ok x t =>
    if x.mt == .cached && !isRemote t x.pa && localOk t k.compart x.pa then
      doFill c ⟨lineOf x.pa, if fetch then .fetch else .load⟩ t
    else t
  | .error _ _ => s

/-- What an instruction on a mispredicted path does; in deterministic mode the predictor is not trained (R280). -/
def wrongPath (c : CoreId) (w : WrongPath) (s : State) : State :=
  let teach (f : Predictor → Predictor) : State := modCore s c fun k => if stDET k then k else { k with pred := f k.pred }
  match w with
  | .walk fetch va => wrongWalk c fetch va s
  | .access fetch va => wrongAccess c fetch va s
  | .branch pc t taken => teach fun p =>
      let p := dirTrain p (va48 pc) taken
      if taken then btbPut p (va48 pc) (va48 t) else p
  | .jump pc t => teach fun p => btbPut p (va48 pc) (va48 t)
  | .call pc => teach fun p => retPush p (va48 (pc + 4))
  | .ret => teach retPop

/-! ## Fills, the store queue and the controllers -/

/-- The oldest line miss of a core is carried out. -/
def fillOldest (c : CoreId) (s : State) : State :=
  match (getCore s c).l1.miss with
  | [] => s
  | m :: rest => doFill c m (modL1 s c fun l => { l with miss := rest })

/-- LINE_FILL (12 R309, R330): an upset that strikes first, what a mispredicted path fills and trains, then the oldest line miss of the
core. The read that meets an upset handles it as Table 12.4 states. -/
def execLineFill (c : CoreId) (what : FillCause) (s : State) : Host.Outcome State Fault Refusal :=
  let s := upset s c what.upset
  let s := match what.wrong with
    | some w => if (getCore s c).run = .running then wrongPath c w s else s
    | none => s
  .next (fillOldest c s)

/-- STORE_QUEUE_DRAIN (10 R273): the oldest entry drains. -/
def execStoreQueueDrain (c : CoreId) (s : State) : Host.Outcome State Fault Refusal := .next (drainOne s c)

/-- DRAM_READ (02 R57, 18 R426, 12 R314): a demand read of a word at its controller; a full snoop filter set takes one L2's
copy of another line back first. -/
def execDramRead (pa : BitVec 44) (evict : Option (ClusterId × BitVec 44)) (s : State) :
    Host.Outcome State Fault Refusal :=
  match classify s pa with
  | .dram o =>
    if installed s o then
      let s := match evict with
        | some (k, a) => l2Evict s k (lineOf a)
        | none => s
      .next (dramRead false o s).2
    else .next s
  | _ => .next s

/-- Whether a 512-byte block lies on a channel (16 R387). -/
def onChannel (s : State) (m : Fin 8) (block : Nat) : Bool := subchannel s (block * 512) / 2 == m.val

/-- The first block from `b` on that lies on a channel: within its unit, else in a later unit. -/
def nextBlock (s : State) (m : Fin 8) (b : Nat) : Option Nat :=
  let here := (List.range 16).map (b + ·)
  let later := (List.range s.dram.units).flatMap fun u => (List.range 16).map (u * 2097152 + ·)
  match here.find? fun x => x / 2097152 == b / 2097152 && onChannel s m x with
  | some x => some x
  | none => match later.find? fun x => b / 2097152 < x / 2097152 && onChannel s m x with
    | some x => some x
    | none => later.find? fun x => onChannel s m x

/-- The patrol's pointer of a channel goes on behind the word at an offset. -/
def patrolPast (m : Fin 8) (o : Nat) (s : State) : State :=
  { s with dram := { s.dram with patrol := smPut 0 s.dram.patrol m.val (o + 8) } }

/-- The patrol reads the word at an offset. -/
def patrolAt (m : Fin 8) (o : Nat) (s : State) : State := patrolPast m o (dramRead true o s).2

/-- The patrol's pointer of a channel; one that names no installed memory starts again at the lowest offset. -/
def patrolPtr (m : Fin 8) (s : State) : Nat :=
  if installed s (smGet 0 s.dram.patrol m.val) then smGet 0 s.dram.patrol m.val else 0

/-- The patrol reads at its pointer, where that lies on its channel, else at the first word of the next block that does. -/
def patrolNext (m : Fin 8) (p : Nat) (s : State) : Option Nat → State
  | none => s
  | some b => patrolAt m (if b = p / 512 then p else b * 512) s

/-- PATROL_READ (17 R420): the controller reads the word its pointer names and goes on to the next word of its channel. -/
def execPatrolRead (m : Fin 8) (s : State) : Host.Outcome State Fault Refusal :=
  .next (patrolNext m (patrolPtr m s) s (nextBlock s m (patrolPtr m s / 512)))

/-- tREFI of a subchannel in ns, halved while its devices report above 85 °C in MR4 (17 R417). -/
def refreshInterval (s : State) (sub : Fin 16) : Nat := if bit s.dram.hot sub.val then 1950 else 3900

/-- REFRESH (17 R417): a subchannel whose tREFI has passed is refreshed; the time of it is kept, the contents stand. -/
def execRefresh (sub : Fin 16) (s : State) : Host.Outcome State Fault Refusal :=
  if smGet 0 s.dram.refreshed sub.val + refreshInterval s sub ≤ s.now then
    .next { s with dram := { s.dram with refreshed := smPut 0 s.dram.refreshed sub.val s.now } }
  else .next s

/-- DRIFT_TRACKING (17 R419): after `READY`, once every 1 ms for each subchannel. -/
def execDriftTracking (sub : Fin 16) (s : State) : Host.Outcome State Fault Refusal :=
  if s.pins.ready ∧ smGet 0 s.dram.drift sub.val + 1000000 ≤ s.now then
    .next { s with dram := { s.dram with drift := smPut 0 s.dram.drift sub.val s.now } }
  else .next s

end Sys2Proof.Machine
end

