-- ==== Sys2Proof/Machine/RegisterWrite.lean ====
section
/-! DEFINITION. A write of a register that has no row of its own (00 R4): by a core or the Lockkeeper in the MMIO window, or by the
host in BAR0 of a function (15 R364, 16 R391). -/

namespace Sys2Proof.Machine

/-! ## BAR0 of the physical function (15 Table 15.2) -/

/-- The bytes that a write enables, with their offsets. -/
def enabledBytes (off : Nat) (be : Byte) (v : W64) : List (Nat × Byte) :=
  ((List.range 8).filter fun i => bit be i).map fun i => (off + i, BitVec.ofNat 8 (fld v (8 * i) 8))

/-- A write of the command buffer: one that is locked discards it and sets `REJ` (R365). -/
def cmdBufWrite (s : State) (off : Nat) (be : Byte) (v : W64) : State :=
  (enabledBytes off be v).foldl (fun s b => writeCmdBuf s b.1 [b.2]) s

/-- Whether an access is an aligned one of 32 or 64 bits (R364). -/
def regAccess (be : Byte) : Bool := be == 0xFF || be == 0x0F || be == 0xF0

/-- A host write of BAR0 of the physical function: the response buffer, the event ring and RSV space ignore it. -/
def pfWrite (s : State) (a : Nat) (be : Byte) (v : W64) : State :=
  let off := a / 8 * 8
  if 0x1000 ≤ off ∧ off < 0x2000 then cmdBufWrite s (off - 0x1000) be v
  else if !regAccess be then s
  else if off = 0 then (if bit (v &&& byteMask be) 0 then doorbell s else s)
  else mbxWrite s off be v

/-! ## The BAR of a virtual function (16 R391) -/

/-- A vector whose mask has gone signals what was pending. -/
def unmasked (s : State) (p : CompId) (n : Nat) : State :=
  if bit (getComp s p).vf.msixPend n ∧ !bit (msixCtl s p n) 32 then
    post (modComp s p fun x => { x with vf := { x.vf with msixPend := bvSet x.vf.msixPend n false } }) (.msix p n)
  else s

/-- A host write of an MSI-X table entry: the message address, then the message data and the vector control. -/
def msixWrite (s : State) (p : CompId) (off : Nat) (be : Byte) (v : W64) : State :=
  let n := off / 16
  if off % 16 < 8 then
    modComp s p fun x =>
      { x with vf := { x.vf with msixAddr := smPut 0 x.vf.msixAddr n (mergeBytes (smGet 0 x.vf.msixAddr n) v be) } }
  else
    let c := mergeBytes (msixCtl s p n) v be
    unmasked (modComp s p fun x => { x with vf := { x.vf with msixData := smPut 0x100000000 x.vf.msixData n c } }) p n

/-- What the host reads in the BAR of a virtual function (16 R391): a queue pair, `VF_STATE`, the MSI-X table and its pending bits. -/
def vfRead (s : State) (p : CompId) (a : Nat) : W64 :=
  let off := a / 8 * 8
  let x := getComp s p
  if off < 0x800 then qpRead s p (Fin.ofNat 8 (off / 0x100)) (off % 0x100)
  else if off = 0x1000 then BitVec.ofNat 64 (stateCode x.st)
  else if 0x2000 ≤ off ∧ off < 0x2200 then
    (if off % 16 < 8 then smGet 0 x.vf.msixAddr ((off - 0x2000) / 16) else msixCtl s p ((off - 0x2000) / 16))
  else if off = 0x3000 then x.vf.msixPend.setWidth 64
  else 0

/-! ## Configuration space (00 R12, 17 Table 17.6) -/

/-- Whether configuration requests are answered: from training on, whatever `READY` holds (17 R416). -/
def configAnswers (s : State) : Bool := s.pcie.trained && s.pins.perstN

/-- The device ID and the revision code of a function as the host reads them (00 Table 0.6). -/
def configId (s : State) (fn : CompId) : Option (BitVec 16 × Byte) :=
  if configAnswers s then some (if fn = 0 then 0x0572 else 0x0573, 0x00) else none

/-- The function number of a function, First VF Offset and VF Stride being 1 (Table 17.6): part of the requester ID that its requests
carry (R416). -/
def functionNo (fn : CompId) : Nat := fn.val

/-- A configuration write of a field that the host sets; a size that the field does not have leaves it (Table 17.6). -/
def configWrite (s : State) (r : CfgReg) (v : W64) : State :=
  let n := 128 * 2 ^ fld v 0 3
  match r with
  | .maxPayload => if n ≤ 512 then { s with pcie := { s.pcie with maxPayload := n } } else s
  | .maxRead => if n ≤ 4096 then { s with pcie := { s.pcie with maxRead := n } } else s

def vfWrite (s : State) (p : CompId) (a : Nat) (be : Byte) (v : W64) : State :=
  let off := a / 8 * 8
  if off < 0x800 then qpHostWrite s p (Fin.ofNat 8 (off / 0x100)) (off % 0x100) be v
  else if 0x2000 ≤ off ∧ off < 0x2200 ∧ p ≠ 0 ∧ vfWritable (getComp s p).st then msixWrite s p (off - 0x2000) be v
  else s

/-- REGISTER_WRITE: a core's write goes by the rules of the page (07 R178); a host's reaches a device that is not held in reset. -/
def execRegisterWrite (w : RegWriter) (a : Nat) (be : BitVec 8) (v : W64) (s : State) : Host.Outcome State Fault Refusal :=
  match w with
  | .core c =>
    if (getCore s c).run = .running then .next (mmioWrite s c (!isSys (getCore s c)) (a / 8 * 8) be v) else .next s
  | .lockkeeper => if lkRuns s then .next (lkWrite s (a / 8 * 8) be v) else .next s
  | .hostPf => if hostReaches s then .next (pfWrite s a be v) else .next s
  | .hostVf p => if hostReaches s then .next (vfWrite s p a be v) else .next s
  | .hostConfig r => if configAnswers s then .next (configWrite s r v) else .next s

end Sys2Proof.Machine
end

