-- ==== Sys2Proof/Machine/Dispatch.lean ====
section
/-! DEFINITION. The meaning of every command, by name: one direct call for each constructor. -/

namespace Sys2Proof.Machine

def exec (i : Instr) (s : State) : Host.Outcome State Fault Refusal :=
  match i with
  | .syscall c n => Sys2Proof.Machine.execSyscall c n s
  | .retx c => Sys2Proof.Machine.execRetx c s
  | .isync c => Sys2Proof.Machine.execIsync c s
  | .fenceL c => Sys2Proof.Machine.execFenceL c s
  | .fenceS c => Sys2Proof.Machine.execFenceS c s
  | .fenceA c => Sys2Proof.Machine.execFenceA c s
  | .mfc c gd n => Sys2Proof.Machine.execMfc c gd n s
  | .mtc c n ga => Sys2Proof.Machine.execMtc c n ga s
  | .wdset c ga => Sys2Proof.Machine.execWdset c ga s
  | .wdclr c ga => Sys2Proof.Machine.execWdclr c ga s
  | .irouteWr c ga => Sys2Proof.Machine.execIrouteWr c ga s
  | .swi c ga => Sys2Proof.Machine.execSwi c ga s
  | .swclr c ga => Sys2Proof.Machine.execSwclr c ga s
  | .mfb c gd r => Sys2Proof.Machine.execMfb c gd r s
  | .mtb c r ga => Sys2Proof.Machine.execMtb c r ga s
  | .invtlb c ga sel => Sys2Proof.Machine.execInvtlb c ga sel s
  | .invtlbB c ga sel => Sys2Proof.Machine.execInvtlbB c ga sel s
  | .invtlbBArrival c => Sys2Proof.Machine.execInvtlbBArrival c s
  | .invtlbBComplete c => Sys2Proof.Machine.execInvtlbBComplete c s
  | .halt c => Sys2Proof.Machine.execHalt c s
  | .brk c n => Sys2Proof.Machine.execBrk c n s
  | .dret c ga => Sys2Proof.Machine.execDret c ga s
  | .add c gd ga gb => Sys2Proof.Machine.execAdd c gd ga gb s
  | .sub c gd ga gb => Sys2Proof.Machine.execSub c gd ga gb s
  | .and c gd ga gb => Sys2Proof.Machine.execAnd c gd ga gb s
  | .or c gd ga gb => Sys2Proof.Machine.execOr c gd ga gb s
  | .xor c gd ga gb => Sys2Proof.Machine.execXor c gd ga gb s
  | .shl c gd ga gb => Sys2Proof.Machine.execShl c gd ga gb s
  | .shr c gd ga gb => Sys2Proof.Machine.execShr c gd ga gb s
  | .sar c gd ga gb => Sys2Proof.Machine.execSar c gd ga gb s
  | .rol c gd ga gb => Sys2Proof.Machine.execRol c gd ga gb s
  | .cmps c gd ga gb => Sys2Proof.Machine.execCmps c gd ga gb s
  | .cmpu c gd ga gb => Sys2Proof.Machine.execCmpu c gd ga gb s
  | .mul c gd ga gb => Sys2Proof.Machine.execMul c gd ga gb s
  | .mulh c gd ga gb => Sys2Proof.Machine.execMulh c gd ga gb s
  | .div c gd ga gb => Sys2Proof.Machine.execDiv c gd ga gb s
  | .divu c gd ga gb => Sys2Proof.Machine.execDivu c gd ga gb s
  | .rem c gd ga gb => Sys2Proof.Machine.execRem c gd ga gb s
  | .remu c gd ga gb => Sys2Proof.Machine.execRemu c gd ga gb s
  | .addi c gd imm => Sys2Proof.Machine.execAddi c gd imm s
  | .andi c gd imm => Sys2Proof.Machine.execAndi c gd imm s
  | .ori c gd imm => Sys2Proof.Machine.execOri c gd imm s
  | .xori c gd imm => Sys2Proof.Machine.execXori c gd imm s
  | .shli c gd imm => Sys2Proof.Machine.execShli c gd imm s
  | .shri c gd imm => Sys2Proof.Machine.execShri c gd imm s
  | .sari c gd imm => Sys2Proof.Machine.execSari c gd imm s
  | .movi c gd imm => Sys2Proof.Machine.execMovi c gd imm s
  | .movhi c gd imm h => Sys2Proof.Machine.execMovhi c gd imm h s
  | .gadd c gd ga b => Sys2Proof.Machine.execGadd c gd ga b s
  | .gsub c gd ga b => Sys2Proof.Machine.execGsub c gd ga b s
  | .gmul c gd ga b => Sys2Proof.Machine.execGmul c gd ga b s
  | .gdiv c gd ga b => Sys2Proof.Machine.execGdiv c gd ga b s
  | .gquo c gd ga b => Sys2Proof.Machine.execGquo c gd ga b s
  | .grem c gd ga b => Sys2Proof.Machine.execGrem c gd ga b s
  | .gneg c gd ga => Sys2Proof.Machine.execGneg c gd ga s
  | .glt c gd ga b => Sys2Proof.Machine.execGlt c gd ga b s
  | .gle c gd ga b => Sys2Proof.Machine.execGle c gd ga b s
  | .geq c gd ga b => Sys2Proof.Machine.execGeq c gd ga b s
  | .gcmp c gd ga b => Sys2Proof.Machine.execGcmp c gd ga b s
  | .eq c gd ga b => Sys2Proof.Machine.execEq c gd ga b s
  | .gtag c gd ga => Sys2Proof.Machine.execGtag c gd ga s
  | .stag c gd ga t => Sys2Proof.Machine.execStag c gd ga t s
  | .tcls c gd ga => Sys2Proof.Machine.execTcls c gd ga s
  | .car c gd ga => Sys2Proof.Machine.execCar c gd ga s
  | .cdr c gd ga => Sys2Proof.Machine.execCdr c gd ga s
  | .cons c gd ga gb => Sys2Proof.Machine.execCons c gd ga gb s
  | .rplaca c ga gb => Sys2Proof.Machine.execRplaca c ga gb s
  | .rplacd c ga gb => Sys2Proof.Machine.execRplacd c ga gb s
  | .lwalk c rep gd ga gb => Sys2Proof.Machine.execLwalk c rep gd ga gb s
  | .alloc c gd ga p => Sys2Proof.Machine.execAlloc c gd ga p s
  | .hdr c gd ga => Sys2Proof.Machine.execHdr c gd ga s
  | .vref c gd ga gb => Sys2Proof.Machine.execVref c gd ga gb s
  | .vset c gd ga gb => Sys2Proof.Machine.execVset c gd ga gb s
  | .vlen c gd ga => Sys2Proof.Machine.execVlen c gd ga s
  | .ldw c gd ga disp rsv => Sys2Proof.Machine.execLdw c gd ga disp rsv s
  | .ldwNb c gd ga disp rsv => Sys2Proof.Machine.execLdwNb c gd ga disp rsv s
  | .stw c gd ga disp rsv => Sys2Proof.Machine.execStw c gd ga disp rsv s
  | .stwNb c gd ga disp rsv => Sys2Proof.Machine.execStwNb c gd ga disp rsv s
  | .ldB c gd ga u disp => Sys2Proof.Machine.execLdB c gd ga u disp s
  | .ldH c gd ga u disp => Sys2Proof.Machine.execLdH c gd ga u disp s
  | .ldW c gd ga u disp => Sys2Proof.Machine.execLdW c gd ga u disp s
  | .ldD c gd ga u disp => Sys2Proof.Machine.execLdD c gd ga u disp s
  | .stB c gd ga disp => Sys2Proof.Machine.execStB c gd ga disp s
  | .stH c gd ga disp => Sys2Proof.Machine.execStH c gd ga disp s
  | .stW c gd ga disp => Sys2Proof.Machine.execStW c gd ga disp s
  | .stD c gd ga disp => Sys2Proof.Machine.execStD c gd ga disp s
  | .splitStoreBusError c => Sys2Proof.Machine.execSplitStoreBusError c s
  | .casw c gd ga gb => Sys2Proof.Machine.execCasw c gd ga gb s
  | .movw c rep gd ga gb => Sys2Proof.Machine.execMovw c rep gd ga gb s
  | .fillw c rep gd ga gb => Sys2Proof.Machine.execFillw c rep gd ga gb s
  | .scanw c rep gd ga gb => Sys2Proof.Machine.execScanw c rep gd ga gb s
  | .cmpw c rep gd ga gb => Sys2Proof.Machine.execCmpw c rep gd ga gb s
  | .movb c rep gd ga gb => Sys2Proof.Machine.execMovb c rep gd ga gb s
  | .pref c h ga disp => Sys2Proof.Machine.execPref c h ga disp s
  | .beq c ga gb disp => Sys2Proof.Machine.execBeq c ga gb disp s
  | .bne c ga gb disp => Sys2Proof.Machine.execBne c ga gb disp s
  | .bnil c ga disp => Sys2Proof.Machine.execBnil c ga disp s
  | .bnnil c ga disp => Sys2Proof.Machine.execBnnil c ga disp s
  | .bz c ga disp => Sys2Proof.Machine.execBz c ga disp s
  | .bnz c ga disp => Sys2Proof.Machine.execBnz c ga disp s
  | .bltf c ga gb disp => Sys2Proof.Machine.execBltf c ga gb disp s
  | .bgef c ga gb disp => Sys2Proof.Machine.execBgef c ga gb disp s
  | .btag c ga t disp => Sys2Proof.Machine.execBtag c ga t disp s
  | .bntag c ga t disp => Sys2Proof.Machine.execBntag c ga t disp s
  | .bcls c ga k disp => Sys2Proof.Machine.execBcls c ga k disp s
  | .jmp c disp => Sys2Proof.Machine.execJmp c disp s
  | .call c disp => Sys2Proof.Machine.execCall c disp s
  | .jr c ga => Sys2Proof.Machine.execJr c ga s
  | .callr c ga => Sys2Proof.Machine.execCallr c ga s
  | .ret c ga => Sys2Proof.Machine.execRet c ga s
  | .rdt c gd => Sys2Proof.Machine.execRdt c gd s
  | .waitt c ga => Sys2Proof.Machine.execWaitt c ga s
  | .waittExpiry c => Sys2Proof.Machine.execWaittExpiry c s
  | .armt c ga n => Sys2Proof.Machine.execArmt c ga n s
  | .alarmFire c n => Sys2Proof.Machine.execAlarmFire c n s
  | .barw c ga => Sys2Proof.Machine.execBarw c ga s
  | .bara c ga => Sys2Proof.Machine.execBara c ga s
  | .bart c gd ga => Sys2Proof.Machine.execBart c gd ga s
  | .bcst c gd ga gb => Sys2Proof.Machine.execBcst c gd ga gb s
  | .rduc c gd ga gb f => Sys2Proof.Machine.execRduc c gd ga gb f s
  | .groupMessage g d a => Sys2Proof.Machine.execGroupMessage g d a s
  | .groupOperationComplete g => Sys2Proof.Machine.execGroupOperationComplete g s
  | .vaddD c vd va vb => Sys2Proof.Machine.execVaddD c vd va vb s
  | .vsubD c vd va vb => Sys2Proof.Machine.execVsubD c vd va vb s
  | .vmulD c vd va vb => Sys2Proof.Machine.execVmulD c vd va vb s
  | .vdivD c vd va vb => Sys2Proof.Machine.execVdivD c vd va vb s
  | .vfmaD c vd va vb => Sys2Proof.Machine.execVfmaD c vd va vb s
  | .vsqrtD c vd va => Sys2Proof.Machine.execVsqrtD c vd va s
  | .vminD c vd va vb => Sys2Proof.Machine.execVminD c vd va vb s
  | .vmaxD c vd va vb => Sys2Proof.Machine.execVmaxD c vd va vb s
  | .vcmpltD c vd va vb => Sys2Proof.Machine.execVcmpltD c vd va vb s
  | .vcmpeqD c vd va vb => Sys2Proof.Machine.execVcmpeqD c vd va vb s
  | .vcvtLd c vd va => Sys2Proof.Machine.execVcvtLd c vd va s
  | .vcvtDl c vd va => Sys2Proof.Machine.execVcvtDl c vd va s
  | .vaddL c vd va vb => Sys2Proof.Machine.execVaddL c vd va vb s
  | .vsubL c vd va vb => Sys2Proof.Machine.execVsubL c vd va vb s
  | .vmulL c vd va vb => Sys2Proof.Machine.execVmulL c vd va vb s
  | .vand c vd va vb => Sys2Proof.Machine.execVand c vd va vb s
  | .vor c vd va vb => Sys2Proof.Machine.execVor c vd va vb s
  | .vxor c vd va vb => Sys2Proof.Machine.execVxor c vd va vb s
  | .vldF c vd ga gb => Sys2Proof.Machine.execVldF c vd ga gb s
  | .vldB c vd ga gb => Sys2Proof.Machine.execVldB c vd ga gb s
  | .vstF c vd ga gb => Sys2Proof.Machine.execVstF c vd ga gb s
  | .vstB c vd ga gb => Sys2Proof.Machine.execVstB c vd ga gb s
  | .vins c vd ga l => Sys2Proof.Machine.execVins c vd ga l s
  | .vextF c gd va l => Sys2Proof.Machine.execVextF c gd va l s
  | .vextL c gd va l => Sys2Proof.Machine.execVextL c gd va l s
  | .vsplat c vd ga => Sys2Proof.Machine.execVsplat c vd ga s
  | .nrdf c gd => Sys2Proof.Machine.execNrdf c gd s
  | .nwrf c ga => Sys2Proof.Machine.execNwrf c ga s
  | .interruptEntry c => Sys2Proof.Machine.execInterruptEntry c s
  | .machineCheck c src => Sys2Proof.Machine.execMachineCheck c src s
  | .divideComplete c => Sys2Proof.Machine.execDivideComplete c s
  | .longOperationComplete c => Sys2Proof.Machine.execLongOperationComplete c s
  | .markBufferRoom c => Sys2Proof.Machine.execMarkBufferRoom c s
  | .forwardReply c => Sys2Proof.Machine.execForwardReply c s
  | .cardCheckReply c => Sys2Proof.Machine.execCardCheckReply c s
  | .lineFill c what => Sys2Proof.Machine.execLineFill c what s
  | .storeQueueDrain c => Sys2Proof.Machine.execStoreQueueDrain c s
  | .dramRead pa evict => Sys2Proof.Machine.execDramRead pa evict s
  | .patrolRead m => Sys2Proof.Machine.execPatrolRead m s
  | .refresh sub => Sys2Proof.Machine.execRefresh sub s
  | .driftTracking sub => Sys2Proof.Machine.execDriftTracking sub s
  | .setGoodcol e => Sys2Proof.Machine.execSetGoodcol e s
  | .phaseFlipStop c => Sys2Proof.Machine.execPhaseFlipStop c s
  | .phaseFlipResume c => Sys2Proof.Machine.execPhaseFlipResume c s
  | .groupInterrupt e => Sys2Proof.Machine.execGroupInterrupt e s
  | .startCulvertChannel e => Sys2Proof.Machine.execStartCulvertChannel e s
  | .startPercolatorCommand e => Sys2Proof.Machine.execStartPercolatorCommand e s
  | .startTimerChannels e => Sys2Proof.Machine.execStartTimerChannels e s
  | .staggerTimerChannels e => Sys2Proof.Machine.execStaggerTimerChannels e s
  | .snapshotStop e => Sys2Proof.Machine.execSnapshotStop e s
  | .snapshotCoreStop c => Sys2Proof.Machine.execSnapshotCoreStop c s
  | .snapshotDump c => Sys2Proof.Machine.execSnapshotDump c s
  | .snapshotStopReport p => Sys2Proof.Machine.execSnapshotStopReport p s
  | .compartmentReset e => Sys2Proof.Machine.execCompartmentReset e s
  | .actPostGo p => Sys2Proof.Machine.execActPostGo p s
  | .actPostCancel p e => Sys2Proof.Machine.execActPostCancel p e s
  | .actionInstall a => Sys2Proof.Machine.execActionInstall a s
  | .actionCancelFlood d id => Sys2Proof.Machine.execActionCancelFlood d id s
  | .actionPostComplete p full failed => Sys2Proof.Machine.execActionPostComplete p full failed s
  | .weirSyncPulse => Sys2Proof.Machine.execWeirSyncPulse s
  | .timingSymbolExchange x off => Sys2Proof.Machine.execTimingSymbolExchange x off s
  | .onDieResynchronisation => Sys2Proof.Machine.execOnDieResynchronisation s
  | .weirPllLossOfLock => Sys2Proof.Machine.execWeirPllLossOfLock s
  | .deviceFailed d => Sys2Proof.Machine.execDeviceFailed d s
  | .rootChange d => Sys2Proof.Machine.execRootChange d s
  | .timerAdvance n => Sys2Proof.Machine.execTimerAdvance n s
  | .evtEdge n rising late => Sys2Proof.Machine.execEvtEdge n rising late s
  | .tmrCountRead n => Sys2Proof.Machine.execTmrCountRead n s
  | .captureRead n falling => Sys2Proof.Machine.execCaptureRead n falling s
  | .tmrGcmdStart p mask => Sys2Proof.Machine.execTmrGcmdStart p mask s
  | .tmrGcmdStop p mask => Sys2Proof.Machine.execTmrGcmdStop p mask s
  | .tmrGcmdStagger p mask => Sys2Proof.Machine.execTmrGcmdStagger p mask s
  | .prcTail k p v => Sys2Proof.Machine.execPrcTail k p v s
  | .mark k p => Sys2Proof.Machine.execMark k p s
  | .relocate k p => Sys2Proof.Machine.execRelocate k p s
  | .remap k p => Sys2Proof.Machine.execRemap k p s
  | .scrub k p => Sys2Proof.Machine.execScrub k p s
  | .cleanLog k p => Sys2Proof.Machine.execCleanLog k p s
  | .snapshotCopy k p => Sys2Proof.Machine.execSnapshotCopy k p s
  | .percolatorCommandComplete k p => Sys2Proof.Machine.execPercolatorCommandComplete k p s
  | .forward k => Sys2Proof.Machine.execForward k s
  | .forwardCompletionNotice k => Sys2Proof.Machine.execForwardCompletionNotice k s
  | .forwardPoll k => Sys2Proof.Machine.execForwardPoll k s
  | .markRequest k => Sys2Proof.Machine.execMarkRequest k s
  | .markBufferDrain c => Sys2Proof.Machine.execMarkBufferDrain c s
  | .cardRequest k => Sys2Proof.Machine.execCardRequest k s
  | .cardCopyComplete k => Sys2Proof.Machine.execCardCopyComplete k s
  | .markStackSteal k p => Sys2Proof.Machine.execMarkStackSteal k p s
  | .terminationRound p => Sys2Proof.Machine.execTerminationRound p s
  | .schedulingWindow k => Sys2Proof.Machine.execSchedulingWindow k s
  | .clean k p dirty => Sys2Proof.Machine.execClean k p dirty s
  | .inval k p => Sys2Proof.Machine.execInval k p s
  | .cleanInval k p dirty => Sys2Proof.Machine.execCleanInval k p dirty s
  | .taginit k p => Sys2Proof.Machine.execTaginit k p s
  | .maintenanceQueuedStart k => Sys2Proof.Machine.execMaintenanceQueuedStart k s
  | .maintenanceComplete k => Sys2Proof.Machine.execMaintenanceComplete k s
  | .l2ReqOn k => Sys2Proof.Machine.execL2ReqOn k s
  | .l2ReqOff k => Sys2Proof.Machine.execL2ReqOff k s
  | .l2DrainComplete k => Sys2Proof.Machine.execL2DrainComplete k s
  | .l2CarafeWrite k n => Sys2Proof.Machine.execL2CarafeWrite k n s
  | .carafeWayConverted k => Sys2Proof.Machine.execCarafeWayConverted k s
  | .getInfo m => Sys2Proof.Machine.execGetInfo m s
  | .getStatus m => Sys2Proof.Machine.execGetStatus m s
  | .setProfile m => Sys2Proof.Machine.execSetProfile m s
  | .profileClusterSwitch k => Sys2Proof.Machine.execProfileClusterSwitch k s
  | .compartmentCreate m => Sys2Proof.Machine.execCompartmentCreate m s
  | .compartmentLoad m => Sys2Proof.Machine.execCompartmentLoad m s
  | .loadDone data => Sys2Proof.Machine.execLoadDone data s
  | .compartmentStart m => Sys2Proof.Machine.execCompartmentStart m s
  | .release p c => Sys2Proof.Machine.execRelease p c s
  | .compartmentQuiesce m => Sys2Proof.Machine.execCompartmentQuiesce m s
  | .quiesceStop p => Sys2Proof.Machine.execQuiesceStop p s
  | .quiesced p => Sys2Proof.Machine.execQuiesced p s
  | .quiesceTimeout p => Sys2Proof.Machine.execQuiesceTimeout p s
  | .compartmentAbort m => Sys2Proof.Machine.execCompartmentAbort m s
  | .mbxAbort v => Sys2Proof.Machine.execMbxAbort v s
  | .abortTimerExpiry p => Sys2Proof.Machine.execAbortTimerExpiry p s
  | .abortComplete p => Sys2Proof.Machine.execAbortComplete p s
  | .compartmentDestroy m => Sys2Proof.Machine.execCompartmentDestroy m s
  | .destroyDone p => Sys2Proof.Machine.execDestroyDone p s
  | .weirConfig m => Sys2Proof.Machine.execWeirConfig m s
  | .weirSchedule m => Sys2Proof.Machine.execWeirSchedule m s
  | .linkTrain m => Sys2Proof.Machine.execLinkTrain m s
  | .linkTrained x r => Sys2Proof.Machine.execLinkTrained x r s
  | .linkStatus m => Sys2Proof.Machine.execLinkStatus m s
  | .telemetryRead m => Sys2Proof.Machine.execTelemetryRead m s
  | .errorLogRead m => Sys2Proof.Machine.execErrorLogRead m s
  | .errorLogClear m => Sys2Proof.Machine.execErrorLogClear m s
  | .fwUpdate m => Sys2Proof.Machine.execFwUpdate m s
  | .microcodeStage m => Sys2Proof.Machine.execMicrocodeStage m s
  | .programKeySlot2 m => Sys2Proof.Machine.execProgramKeySlot2 m s
  | .snapshot m => Sys2Proof.Machine.execSnapshot m s
  | .deviceReset m => Sys2Proof.Machine.execDeviceReset m s
  | .lockupReport c => Sys2Proof.Machine.execLockupReport c s
  | .recoveryStopReport c => Sys2Proof.Machine.execRecoveryStopReport c s
  | .heartbeat => Sys2Proof.Machine.execHeartbeat s
  | .lockkeeperRestart => Sys2Proof.Machine.execLockkeeperRestart s
  | .telemetrySample r => Sys2Proof.Machine.execTelemetrySample r s
  | .powerCapStep k up => Sys2Proof.Machine.execPowerCapStep k up s
  | .currentSample ma => Sys2Proof.Machine.execCurrentSample ma s
  | .thermalSample t => Sys2Proof.Machine.execThermalSample t s
  | .thermalTrip => Sys2Proof.Machine.execThermalTrip s
  | .clusterFrequencyChange k f => Sys2Proof.Machine.execClusterFrequencyChange k f s
  | .clusterPllLossOfLock k => Sys2Proof.Machine.execClusterPllLossOfLock k s
  | .regulatorCommand r => Sys2Proof.Machine.execRegulatorCommand r s
  | .railFault r => Sys2Proof.Machine.execRailFault r s
  | .pwrgoodRise d => Sys2Proof.Machine.execPwrgoodRise d s
  | .railGood => Sys2Proof.Machine.execRailGood s
  | .dramPg => Sys2Proof.Machine.execDramPg s
  | .dramPgTimeout => Sys2Proof.Machine.execDramPgTimeout s
  | .pwrgoodFall => Sys2Proof.Machine.execPwrgoodFall s
  | .resetN level => Sys2Proof.Machine.execResetN level s
  | .perstN level => Sys2Proof.Machine.execPerstN level s
  | .firmwareVerification => Sys2Proof.Machine.execFirmwareVerification s
  | .calibration r => Sys2Proof.Machine.execCalibration r s
  | .memoryInitialisation => Sys2Proof.Machine.execMemoryInitialisation s
  | .microcodeLoad bad => Sys2Proof.Machine.execMicrocodeLoad bad s
  | .pcieTraining => Sys2Proof.Machine.execPcieTraining s
  | .rdWord => Sys2Proof.Machine.execRdWord s
  | .rdLine => Sys2Proof.Machine.execRdLine s
  | .rdBulk => Sys2Proof.Machine.execRdBulk s
  | .wrWord => Sys2Proof.Machine.execWrWord s
  | .wrLine => Sys2Proof.Machine.execWrLine s
  | .wrBulk => Sys2Proof.Machine.execWrBulk s
  | .cas => Sys2Proof.Machine.execCas s
  | .respData => Sys2Proof.Machine.execRespData s
  | .respAck => Sys2Proof.Machine.execRespAck s
  | .msg => Sys2Proof.Machine.execMsg s
  | .flitReceive x body trailer => Sys2Proof.Machine.execFlitReceive x body trailer s
  | .ackTimeout x => Sys2Proof.Machine.execAckTimeout x s
  | .linkRetrainComplete x ok => Sys2Proof.Machine.execLinkRetrainComplete x ok s
  | .remoteRequestTimeout tid => Sys2Proof.Machine.execRemoteRequestTimeout tid s
  | .creditFree x => Sys2Proof.Machine.execCreditFree x s
  | .standbyWake x => Sys2Proof.Machine.execStandbyWake x s
  | .standbyWakeComplete x => Sys2Proof.Machine.execStandbyWakeComplete x s
  | .vfFlr p => Sys2Proof.Machine.execVfFlr p s
  | .pcieCompletion n data poisoned => Sys2Proof.Machine.execPcieCompletion n data poisoned s
  | .pcieError fn e => Sys2Proof.Machine.execPcieError fn e s
  | .completionTimeout n => Sys2Proof.Machine.execCompletionTimeout n s
  | .cvTail n v => Sys2Proof.Machine.execCvTail n v s
  | .hostToDevice n => Sys2Proof.Machine.execHostToDevice n s
  | .deviceToHost n => Sys2Proof.Machine.execDeviceToHost n s
  | .deviceToDevice n => Sys2Proof.Machine.execDeviceToDevice n s
  | .nbt n => Sys2Proof.Machine.execNbt n s
  | .descriptorComplete n => Sys2Proof.Machine.execDescriptorComplete n s
  | .qpSqtail p q v => Sys2Proof.Machine.execQpSqtail p q v s
  | .qpSqhead p q v => Sys2Proof.Machine.execQpSqhead p q v s
  | .qpCqtail p q v => Sys2Proof.Machine.execQpCqtail p q v s
  | .vfHostirq p v => Sys2Proof.Machine.execVfHostirq p v s
  | .logFlashWrite => Sys2Proof.Machine.execLogFlashWrite s
  | .correctedErrorSummary => Sys2Proof.Machine.execCorrectedErrorSummary s
  | .smbusBlockRead cmd => Sys2Proof.Machine.execSmbusBlockRead cmd s
  | .jtagInstruction j => Sys2Proof.Machine.execJtagInstruction j s
  | .registerWrite w a be v => Sys2Proof.Machine.execRegisterWrite w a be v s
  | .illegalInstruction c w nextw => Sys2Proof.Machine.execIllegalInstruction c w nextw s
  | .inputPowerApplied => Sys2Proof.Machine.execInputPowerApplied s
  | .inputPowerRemoved => Sys2Proof.Machine.execInputPowerRemoved s
  | .clusterPllRelock k => Sys2Proof.Machine.execClusterPllRelock k s
  | .lockkeeperRestartDone => Sys2Proof.Machine.execLockkeeperRestartDone s
  | .standbyEntry x => Sys2Proof.Machine.execStandbyEntry x s
  | .lockkeeperSramError correctable => Sys2Proof.Machine.execLockkeeperSramError correctable s

end Sys2Proof.Machine
end

