-- ==== Sys2Proof/Machine/Idle.lean ====
section
/-! DEFINITION. What the block does on an empty queue (log 5). -/

namespace Sys2Proof.Machine

/-- Time passes; microprograms that hold, or that have run for long, go on (13 R332), and the Lockkeeper has its turn where its firmware
runs. -/
def idleStep (s : State) : State :=
  let s := idle s
  let s := if clocksRun s then resumeWhere (fun _ w => w == .micro) s else s
  if firmwareRuns s then lkTurn s else s

end Sys2Proof.Machine
end

