-- ==== Sys2Proof/Machine/DecodeWord.lean ====
section
/-! DEFINITION. The instruction that a word of memory spells (04 Tables 4.1 to 4.10, R90, R112), for a core and, for a repeat pair, its
prefix. A block takes its commands decoded; this is what their words say. -/

namespace Sys2Proof.Machine

/-- Opcode `0x00` by SF and N (Table 4.4). -/
def rowSys (c : CoreId) (f g : Reg) (n : Nat) : Nat → Option Instr
  | 0 => some (.syscall c (BitVec.ofNat 5 n))
  | 1 => some (.retx c)
  | 2 => some (.isync c)
  | 3 => some (if n = 1 then .fenceL c else if n = 2 then .fenceS c else .fenceA c)
  | 4 => some (.mfc c f (BitVec.ofNat 12 n))
  | 5 => some (.mtc c (BitVec.ofNat 12 n) g)
  | 6 => some (.mfb c f (Fin.ofNat 32 n))
  | 7 => some (.mtb c (Fin.ofNat 32 n) g)
  | 8 => some (.invtlb c g (BitVec.ofNat 2 n))
  | 9 => some (.invtlbB c g (BitVec.ofNat 2 n))
  | 10 => some (.halt c)
  | 11 => some (.brk c (BitVec.ofNat 12 n))
  | 12 => some (.dret c g)
  | _ => none

/-- Opcode `0x02` by function. -/
def rowRaw (c : CoreId) (f g h : Reg) : Nat → Option Instr
  | 0x000 => some (.add c f g h)
  | 0x001 => some (.sub c f g h)
  | 0x002 => some (.and c f g h)
  | 0x003 => some (.or c f g h)
  | 0x004 => some (.xor c f g h)
  | 0x005 => some (.shl c f g h)
  | 0x006 => some (.shr c f g h)
  | 0x007 => some (.sar c f g h)
  | 0x008 => some (.rol c f g h)
  | 0x009 => some (.cmps c f g h)
  | 0x00A => some (.cmpu c f g h)
  | 0x010 => some (.mul c f g h)
  | 0x011 => some (.mulh c f g h)
  | 0x012 => some (.div c f g h)
  | 0x013 => some (.divu c f g h)
  | 0x014 => some (.rem c f g h)
  | 0x015 => some (.remu c f g h)
  | _ => none

/-- Opcode `0x03` by operation. -/
def rowImm (c : CoreId) (f : Reg) (imm : BitVec 16) : Nat → Option Instr
  | 0x00 => some (.movi c f imm)
  | 0x01 => some (.movhi c f imm 0)
  | 0x02 => some (.movhi c f imm 1)
  | 0x03 => some (.movhi c f imm 2)
  | 0x04 => some (.addi c f imm)
  | 0x05 => some (.andi c f imm)
  | 0x06 => some (.ori c f imm)
  | 0x07 => some (.xori c f imm)
  | 0x08 => some (.shli c f imm)
  | 0x09 => some (.shri c f imm)
  | 0x0A => some (.sari c f imm)
  | _ => none

/-- Opcodes `0x04` and `0x05` by function (Table 4.6). -/
def rowGen (c : CoreId) (f g : Reg) (b : GSrc) : Nat → Option Instr
  | 0 => some (.gadd c f g b)
  | 1 => some (.gsub c f g b)
  | 2 => some (.gmul c f g b)
  | 3 => some (.gdiv c f g b)
  | 4 => some (.gquo c f g b)
  | 5 => some (.grem c f g b)
  | 6 => some (.gneg c f g)
  | 7 => some (.glt c f g b)
  | 8 => some (.gle c f g b)
  | 9 => some (.geq c f g b)
  | 10 => some (.gcmp c f g b)
  | 11 => some (.eq c f g b)
  | _ => none

/-- Opcode `0x06`. -/
def rowTag (c : CoreId) (f g : Reg) (fn : Nat) : Option Instr :=
  if fn = 0 then some (.gtag c f g)
  else if 0x100 ≤ fn ∧ fn < 0x200 then some (.stag c f g (BitVec.ofNat 8 fn))
  else if fn = 0x200 then some (.tcls c f g)
  else none

/-- Opcode `0x07`. -/
def rowList (c : CoreId) (rep : Option Reg) (f g h : Reg) : Nat → Option Instr
  | 0 => some (.car c f g)
  | 1 => some (.cdr c f g)
  | 2 => some (.cons c f g h)
  | 3 => some (.rplaca c g h)
  | 4 => some (.rplacd c g h)
  | 5 => some (.lwalk c rep f g h)
  | _ => none

/-- Opcode `0x08`. -/
def rowObject (c : CoreId) (f g h : Reg) (fn : Nat) : Option Instr :=
  if fn = 1 then some (.hdr c f g)
  else if fn = 2 then some (.vref c f g h)
  else if fn = 3 then some (.vset c f g h)
  else if fn = 4 then some (.vlen c f g)
  else if fn % 16 = 0 then some (.alloc c f g (BitVec.ofNat 5 (fn / 16)))
  else none

/-- Opcode `0x0B` by size (Table 4.8). -/
def rowLoad (c : CoreId) (f g : Reg) (u : Bool) (d : BitVec 13) : Nat → Option Instr
  | 0 => some (.ldB c f g u d)
  | 1 => some (.ldH c f g u d)
  | 2 => some (.ldW c f g u d)
  | 3 => some (.ldD c f g u d)
  | _ => none

/-- Opcode `0x0C` by size. -/
def rowStore (c : CoreId) (f g : Reg) (d : BitVec 13) : Nat → Option Instr
  | 0 => some (.stB c f g d)
  | 1 => some (.stH c f g d)
  | 2 => some (.stW c f g d)
  | 3 => some (.stD c f g d)
  | _ => none

/-- Opcode `0x0E`. -/
def rowBlock (c : CoreId) (rep : Option Reg) (f g h : Reg) : Nat → Option Instr
  | 0 => some (.movw c rep f g h)
  | 1 => some (.fillw c rep f g h)
  | 2 => some (.scanw c rep f g h)
  | 3 => some (.cmpw c rep f g h)
  | 4 => some (.movb c rep f g h)
  | _ => none

/-- Opcode `0x10` by condition (Table 4.9). -/
def rowBranch (c : CoreId) (g h : Reg) (lo : Nat) : Nat → Option Instr
  | 0 => some (.beq c g h (BitVec.ofNat 11 lo))
  | 1 => some (.bne c g h (BitVec.ofNat 11 lo))
  | 2 => some (.bnil c g (BitVec.ofNat 16 lo))
  | 3 => some (.bnnil c g (BitVec.ofNat 16 lo))
  | 4 => some (.bz c g (BitVec.ofNat 16 lo))
  | 5 => some (.bnz c g (BitVec.ofNat 16 lo))
  | 6 => some (.bltf c g h (BitVec.ofNat 11 lo))
  | 7 => some (.bgef c g h (BitVec.ofNat 11 lo))
  | _ => none

/-- Opcode `0x11`. -/
def rowTagBranch (c : CoreId) (f g : Reg) (lo : Nat) : Option Instr :=
  if f.val = 0 then some (.btag c g (BitVec.ofNat 8 (lo / 2 ^ 8)) (BitVec.ofNat 8 lo))
  else if f.val = 1 then some (.bntag c g (BitVec.ofNat 8 (lo / 2 ^ 8)) (BitVec.ofNat 8 lo))
  else some (.bcls c g (BitVec.ofNat 3 f.val) (BitVec.ofNat 16 lo))

/-- Opcode `0x14`. -/
def rowJump (c : CoreId) (g : Reg) : Nat → Option Instr
  | 0 => some (.jr c g)
  | 1 => some (.callr c g)
  | 2 => some (.ret c g)
  | _ => none

/-- Opcode `0x18` (Table 4.10). -/
def rowWeir (c : CoreId) (f g h : Reg) (fn : Nat) : Option Instr :=
  if fn = 0 then some (.rdt c f)
  else if fn = 1 then some (.waitt c g)
  else if fn = 3 then some (.barw c g)
  else if fn = 4 then some (.bara c g)
  else if fn = 5 then some (.bart c f g)
  else if fn = 6 then some (.bcst c f g h)
  else if fn % 16 = 2 then some (.armt c g (Fin.ofNat 4 (fn / 16)))
  else if fn % 16 = 7 then some (.rduc c f g h (BitVec.ofNat 3 (fn / 16)))
  else none

/-- Opcode `0x1C` (05 Table 5.1). -/
def rowNumeric (c : CoreId) (f g h : Reg) : Nat → Option Instr
  | 0x000 => some (.vaddD c f g h)
  | 0x001 => some (.vsubD c f g h)
  | 0x002 => some (.vmulD c f g h)
  | 0x003 => some (.vdivD c f g h)
  | 0x004 => some (.vfmaD c f g h)
  | 0x005 => some (.vsqrtD c f g)
  | 0x006 => some (.vminD c f g h)
  | 0x007 => some (.vmaxD c f g h)
  | 0x008 => some (.vcmpltD c f g h)
  | 0x009 => some (.vcmpeqD c f g h)
  | 0x00A => some (.vcvtLd c f g)
  | 0x00B => some (.vcvtDl c f g)
  | 0x010 => some (.vaddL c f g h)
  | 0x011 => some (.vsubL c f g h)
  | 0x012 => some (.vmulL c f g h)
  | 0x013 => some (.vand c f g h)
  | 0x014 => some (.vor c f g h)
  | 0x015 => some (.vxor c f g h)
  | 0x020 => some (.vldF c f g h)
  | 0x021 => some (.vldB c f g h)
  | 0x022 => some (.vstF c f g h)
  | 0x023 => some (.vstB c f g h)
  | 0x030 => some (.vins c f g (Fin.ofNat 4 h.val))
  | 0x031 => some (.vextF c f g (Fin.ofNat 4 h.val))
  | 0x032 => some (.vextL c f g (Fin.ofNat 4 h.val))
  | 0x033 => some (.vsplat c f g)
  | 0x03C => some (.nrdf c f)
  | 0x03D => some (.nwrf c g)
  | _ => none

/-- The instruction of a word that passes its decode checks, by major opcode (Table 4.1). -/
def rowOf (c : CoreId) (rep : Option Reg) (w : BitVec 32) : Option Instr :=
  let f : Reg := Fin.ofNat 32 (w.toNat / 2 ^ 21)
  let g : Reg := Fin.ofNat 32 (w.toNat / 2 ^ 16)
  let h : Reg := Fin.ofNat 32 (w.toNat / 2 ^ 11)
  let lo := w.toNat % 2 ^ 16
  let fn := w.toNat % 2 ^ 11
  let rsv := BitVec.ofNat 2 (lo / 2)
  let td := BitVec.ofNat 13 (lo / 8)
  match w.toNat / 2 ^ 26 with
  | 0x00 => rowSys c f g (lo % 2 ^ 12) (lo / 2 ^ 12)
  | 0x02 => rowRaw c f g h fn
  | 0x03 => rowImm c f (BitVec.ofNat 16 lo) g.val
  | 0x04 => rowGen c f g (.reg h) fn
  | 0x05 => rowGen c f g (.imm (BitVec.ofNat 12 lo)) (lo / 2 ^ 12)
  | 0x06 => rowTag c f g fn
  | 0x07 => rowList c rep f g h fn
  | 0x08 => rowObject c f g h fn
  | 0x09 => some (if lo % 2 = 0 then .ldw c f g td rsv else .ldwNb c f g td rsv)
  | 0x0A => some (if lo % 2 = 0 then .stw c f g td rsv else .stwNb c f g td rsv)
  | 0x0B => rowLoad c f g (lo / 2 ^ 13 % 2 == 1) (BitVec.ofNat 13 lo) (lo / 2 ^ 14)
  | 0x0C => rowStore c f g (BitVec.ofNat 13 lo) (lo / 2 ^ 14)
  | 0x0D => some (.casw c f g h)
  | 0x0E => rowBlock c rep f g h fn
  | 0x0F => some (.pref c (BitVec.ofNat 5 f.val) g (BitVec.ofNat 16 lo))
  | 0x10 => rowBranch c g h lo f.val
  | 0x11 => rowTagBranch c f g lo
  | 0x12 => some (.jmp c (BitVec.ofNat 26 w.toNat))
  | 0x13 => some (.call c (BitVec.ofNat 26 w.toNat))
  | 0x14 => rowJump c g fn
  | 0x18 => rowWeir c f g h fn
  | 0x1C => rowNumeric c f g h fn
  | _ => none

/-- The instruction that a word spells, none where its decoding raises the illegal instruction exception (R90, R112). -/
def decodeWord (c : CoreId) (rep : Option Reg) (w : BitVec 32) : Option Instr :=
  let bad := match rep with
    | some gc => illegalOf (iwRep gc) w
    | none => illegalOf w 0
  match bad with
  | some _ => none
  | none => rowOf c rep w

end Sys2Proof.Machine
end

