-- ==== Sys2Proof/Safety.lean ====
section
/-! DEFINITION. The words in which statements speak of runs: a core takes an instruction, an instruction ends, operands that an
instruction may use, an access that memory answers at once. -/

namespace Sys2Proof.Machine

/-- The states that `n` steps reach from `s`, as long as every step answers a next state. -/
def runs : Nat → State → Option State
  | 0, s => some s
  | n + 1, s => match step s with
    | .next t => runs n t
    | .fault _ => none
    | .refused _ => none

/-- Core `c` takes instruction `i` in state `s`: it runs and waits for nothing, no event is due at its boundary, the fetch and
decode checks pass, and neither a single step nor a mode shadow is in force, nor an answer left to it. Its operation begins in `s1`. -/
def Takes (c : CoreId) (i : Instr) (s s1 : State) : Prop :=
  ∃ s0, admission c i s = .ready s0 ∧ (getCore s0 c).micro.run = none ∧ (decodeChecks c i).run s0 = .ok () s1
    ∧ stSSTEP (getCore s1 c) = false ∧ (getCore s1 c).st.shadow = [] ∧ (getCore s1 c).replay = Replay.reset

/-- A `STATUS` that an `MTC` has written reads back at once, and begins its shadow of three instructions (03 R73, R75). -/
def statusSet (o : Option W64) (k : Core) : Core :=
  match o with
  | some v => { k with st := { k.st with newest := v, shadow := k.st.shadow ++ [(3, v)] } }
  | none => k

/-- The instruction has ended: the PC is at `next`, or behind the instruction, `INSTRET` counts it (03 R70), and a `STATUS` that it writes
begins its shadow; in deterministic mode its stores are performed (10 R280). Nothing else differs from `s` that outlives an instruction. -/
def advanced (c : CoreId) (i : Instr) (f : Flow) (s : State) : State :=
  let t := modCore s c fun k => statusSet f.status { endMicro k with
    pc := f.next.getD (va48 (k.pc + instrLen i)), instret := k.instret + BitVec.ofNat 64 f.count, replay := Replay.reset }
  if stDET (getCore s c) then drainAll t c else t

/-- `s` with a word in a general register of the core's current bank; a write of g0 is discarded (03 R61). -/
def withReg (c : CoreId) (r : Reg) (w : Word) (s : State) : State := modCore s c fun k => gwrite k r w

/-- The operand in register `r` of core `c`. -/
def opnd (s : State) (c : CoreId) (r : Reg) : Word := gread (getCore s c) r

/-- A word that may be consumed (02 R43, R47). -/
def plainWord (w : Word) : Bool := w.tag != 0x07 && w.tag != 0x08 && !isReserved w.tag

/-- A raw operand: consumed, and in user mode no pointer (02 R51). -/
def rawOk (k : Core) (w : Word) : Bool := plainWord w && (isSys k || !isPtr w.tag)

/-- A base that addresses memory at once: an address of system mode, or a well-formed pointer that is neither far nor stale
(02 R34 to R36, 06 R163). -/
def baseOk (k : Core) (w : Word) : Bool :=
  plainWord w && !isFar w.tag &&
    (if isPtr w.tag then wellFormed w && !stale k w else isSys k && (w.tag == 0x00 || w.tag == 0x06))

/-- The fields of a core that instructions name: everything but what fetch, translation and the predictor keep to themselves. -/
def archCore (k : Core) : Core :=
  { k with l1 := L1.reset, tlb := { itlb := [], dtlb := [], stlb := [], lfsr := 0 }, pred := Predictor.reset }

/-- A load of the word at `ea` by core `c` is answered at once, with `w`, and leaves what instructions name of the core alone: no queued
bytes of the word have to drain first. -/
def Reads (c : CoreId) (ea : W64) (s s' : State) (w : Word) : Prop :=
  ∃ x t, (xlateData c ea .load (!isSys (getCore s c))).run s = .ok x t ∧ (readWord c ea x).run t = .ok w s'
    ∧ archCore (getCore t c) = archCore (getCore s c) ∧ archCore (getCore s' c) = archCore (getCore s c)

/-- A store of core `c` to `ea` passes its checks at once: the word at `x` is this device's, no snapshot guards its region, and the store
queue and the list of remembered stores have room (10 R273, 06 R170, R172). -/
def StoresAt (c : CoreId) (ea : W64) (s s' : State) (x : Xlat) : Prop :=
  (xlateData c ea .store (!isSys (getCore s c))).run s = .ok x s' ∧ isRemote s' x.pa = false
    ∧ regionPending s' (getCore s' c).compart x.rattr x.pa = false ∧ archCore (getCore s' c) = archCore (getCore s c)
    ∧ (getCore s' c).sq.length < 8 ∧ (getCore s' c).recent.length ≤ 4

/-- `s` where core `c` keeps other answers for the instruction that it runs; they are forgotten when it ends. -/
def withAnswers (c : CoreId) (r : Replay) (s : State) : State := modCore s c fun k => { k with replay := r }

/-- Two states of a core within an instruction that has written nothing: they agree but for what fetch, translation and the predictor keep
to themselves and the answers that the instruction has had. -/
def unwritten (a b : Core) : Prop :=
  archCore { a with replay := Replay.reset } = archCore { b with replay := Replay.reset } ∧ a.replay.done = b.replay.done

/-- `s` where the instruction of core `c` waits; a cause that is due by then ends the wait at once, where it may (06 R161). -/
def waiting (c : CoreId) (w : WaitFor) (i : Instr) (s : State) : State :=
  let t := modCore s c fun k => { k with wait := some { what := w, resume := .instr i } }
  (takeDue c t).getD t

/-- The second operand of a generic instruction (05 R118). -/
def genericSecond (s : State) (c : CoreId) : GSrc → Word
  | .reg r => opnd s c r
  | .imm i => ⟨0x00, i.signExtend 64⟩

/-- `s` with a store in the core's queue, and in the copies of the line that its L1D and victim buffer hold (12 R309, R310). -/
def queued (c : CoreId) (x : Xlat) (w : WordWrite) (s : State) : State := modCore s c fun k => { k with
  sq := k.sq ++ [{ mt := x.mt, user := !isSys k, writes := [w], pc := k.pc, split := none, full := false }]
  l1 := if x.mt = .cached then dStore k.l1 [w] else k.l1 }

/-- `s` with the stores of one instruction to one line as one entry of the core's queue (10 R273). -/
def queuedRun (c : CoreId) (x : Xlat) (ws : List WordWrite) (s : State) : State := modCore s c fun k => { k with
  sq := k.sq ++ [{ mt := x.mt, user := !isSys k, writes := ws, pc := k.pc, split := none, full := coversLine ws }]
  l1 := if x.mt = .cached then dStore k.l1 ws else k.l1 }

/-- The write of a whole tagged word, and of some bytes of a word (02 R27, R52). -/
def wholeWord (x : Xlat) (w : Word) : WordWrite := { pa := wordPa x.pa, mask := 0xFF, w := w, tagged := true }

def someBytes (x : Xlat) (mask : Byte) (v : W64) : WordWrite := { pa := wordPa x.pa, mask := mask, w := ⟨0x06, v⟩, tagged := false }

/-- The whole words `ws` written to consecutive words of a line. -/
def wordRun (x : Xlat) (ws : List Word) : List WordWrite := ws.zipIdx.map fun e => wholeWord (shiftXlat x e.2) e.1

/-- The bytes `bs` written from byte `o` of a word on, one write to each word (02 R52). -/
def byteRun (x : Xlat) (o : Nat) (bs : List Byte) : List WordWrite :=
  (List.range ((o + bs.length + 7) / 8)).map fun m =>
    let lane (i : Nat) : Option Byte := if o ≤ 8 * m + i then bs[8 * m + i - o]? else none
    let lanes := (List.range 8).map lane
    { pa := wordPa x.pa + BitVec.ofNat 44 (8 * m), tagged := false
      mask := BitVec.ofNat 8 (lanes.zipIdx.foldl (fun n e => if e.1.isSome then n + 2 ^ e.2 else n) 0)
      w := ⟨0x06, BitVec.ofNat 64 (ofLe (lanes.map (·.getD 0)))⟩ }

/-- `s` after a block instruction has consumed `n` elements: the count in gc goes down, both indices in gb go up (04 R113). -/
def consumed (c : CoreId) (gc gb : Reg) (n : Nat) (s : State) : State :=
  let w := opnd s c gc
  let g := opnd s c gb
  let up (i : Nat) : Nat := (i + n) % 2 ^ 32
  withReg c gb ⟨g.tag, BitVec.ofNat 64 (up (g.payload.toNat % 2 ^ 32) + up (g.payload.toNat / 2 ^ 32) * 2 ^ 32)⟩
    (withReg c gc ⟨w.tag, w.payload - BitVec.ofNat 64 n⟩ s)

/-- A pair of count `n` starts: the core takes it, its count and index word may be consumed, and no microcode is patched (04 R113). -/
def StartsPair (c : CoreId) (i : Instr) (gc gb : Reg) (n : Nat) (s s1 : State) : Prop :=
  Takes c i s s1 ∧ (getCore s1 c).micro.table = [] ∧ plainWord (opnd s1 c gc) = true ∧ plainWord (opnd s1 c gb) = true
    ∧ (opnd s1 c gc).payload.toInt = n ∧ 0 < n

/-- One iteration takes all `n` elements of an object from index `i` on: they lie in its bound and in one line, to which the translation
`x` leads (04 R113). -/
def OneIteration (o : BObj) (i n : Nat) (byte : Bool) (x : Xlat) : Prop :=
  i < o.bound ∧ n ≤ objRoom o i byte ∧ x.pa.toNat % 64 = (elemAddr o i byte).toNat % 64

/-- The store queue takes one more entry for a checked store at once: this device's memory, no pending snapshot, room in the queue and in the
list of remembered stores (10 R273, 06 R170, R172). -/
def mayQueue (c : CoreId) (x : Xlat) (s : State) : Prop :=
  isRemote s x.pa = false ∧ regionPending s (getCore s c).compart x.rattr x.pa = false ∧ (getCore s c).sq.length < 8
    ∧ (getCore s c).recent.length ≤ 4 ∧ (getCore s c).replay.done = false

/-- The action in entry `e` is the only one of the device, of the given code, and due (08 R230). -/
def soleAction (s : State) (e : Fin 32) (act : BitVec 4) (a : Action) : Prop :=
  s.weir.actions = [(e.val, a)] ∧ a.act = act ∧ actionDue s a = true

/-- `s` with the action table empty. -/
def actionsTaken (s : State) : State := { s with weir := { s.weir with actions := [] } }

/-- Engine `k` may start compartment `p`'s next command, whose slot it reads as the words `ws` (07 R180, R183, R203). -/
def Fetches (k : ClusterId) (p : CompId) (s t : State) (ws : List Word) : Prop :=
  mayStart s k p = true ∧ 4 ≤ (getPerc s k p).log2n.toNat ∧ (getPerc s k p).log2n.toNat ≤ 12
    ∧ fetchSlot k p (cmdUnit k) s = .ok ws t ∧ commandOk ws = true

/-- `s` with a command in progress on an engine. -/
def withRun (k : ClusterId) (p : CompId) (r : PercRun) (s : State) : State := modPerc s k p fun e => { e with run := some r }

/-- Engine `k` takes that command up, within the compartment's share, with nothing still asked of another device: `u` is the state in
which its work begins. -/
def Starts (k : ClusterId) (p : CompId) (s u : State) (ws : List Word) : Prop :=
  ∃ t, Fetches k p s t ws ∧ u = withRun k p (newRun ws) (forget t (cmdUnit k) p)
    ∧ withinShare u k p = true ∧ cmdAsks u k p = false ∧ (getPerc u k p).stopped = false

/-- `s` with a mailbox command written into the buffer and the doorbell rung: the mailbox is busy with it, and the Lockkeeper takes it
(15 R365). -/
def submitted (op : Nat) (m : MbxCmd) (s : State) : State :=
  let w := writeCmdBuf s 0 (cmdBytes op m)
  let cur : CurCmd :=
    { opcode := BitVec.ofNat 16 (cmdOpcode w), seq := BitVec.ofNat 32 (cmdSeq w), comp := cmdComp w, start := w.now, lost := false }
  { w with mbx := { w.mbx with busy := true, done := false }, lk := { w.lk with cur := some cur, held := false } }

/-- The Lockkeeper carries the command out: the host reaches an idle mailbox, no command executes, the firmware runs, and the header
passes its checks (15 R365, R366, R378). -/
def Accepted (op : Nat) (m : MbxCmd) (s : State) : Prop :=
  hostReaches s = true ∧ s.mbx.busy = false ∧ s.lk.cur = none ∧ lkRuns s = true ∧ cmdOpcode (submitted op m s) = op
    ∧ turnedAway (submitted op m s) = none

end Sys2Proof.Machine
end

