-- ==== Sys2Proof/WellFormed.lean ====
section
/-! DEFINITION. Which commands are well formed: an instruction of a core that decodes without the illegal instruction
exception (04 R90, R112; 05 R119). Of the other commands every operand value is one the spec gives an outcome. An
ill-formed instruction has its meaning too: it raises that exception. -/

namespace Sys2Proof

open Sys2Proof.Machine

/-- The register names of a repeat pair (04 R112): a block instruction has its prefix, no register of the governed
instruction is the count register, and the index register is neither object register. -/
def blockRegs (rep : Option Reg) (gd ga gb : Reg) : Bool :=
  match rep with
  | none => false
  | some gc => gd != gc && ga != gc && gb != gc && gb != gd && gb != ga

/-- `LWALK` runs with or without a prefix, and names different registers in gd and ga (05 R119). -/
def lwalkRegs (rep : Option Reg) (gd ga gb : Reg) : Bool :=
  gd != ga && match rep with
  | none => true
  | some gc => gd != gc && ga != gc && gb != gc

/-- Whether a command is well formed. -/
def wellFormedInstr : Instr → Bool
  | .mfc _ _ n => ctlNumbers.contains n.toNat
  | .mtc _ n _ => ctlNumbers.contains n.toNat && !ctlReadOnly.contains n.toNat
  | .invtlb _ ga sel => sel.toNat < 2 || ga == 0
  | .invtlbB _ ga sel => sel.toNat < 2 || ga == 0
  | .shli _ _ imm => imm.toNat < 64
  | .shri _ _ imm => imm.toNat < 64
  | .sari _ _ imm => imm.toNat < 64
  | .alloc _ _ _ p => allocType p.toNat
  | .ldw _ _ _ _ r => r == 0
  | .ldwNb _ _ _ _ r => r == 0
  | .stw _ _ _ _ r => r == 0
  | .stwNb _ _ _ _ r => r == 0
  | .ldD _ _ _ u _ => !u
  | .rduc _ _ _ _ f => f.toNat < 5
  | .lwalk _ rep gd ga gb => lwalkRegs rep gd ga gb
  | .movw _ rep gd ga gb => blockRegs rep gd ga gb
  | .fillw _ rep gd ga gb => blockRegs rep gd ga gb
  | .scanw _ rep gd ga gb => blockRegs rep gd ga gb
  | .cmpw _ rep gd ga gb => blockRegs rep gd ga gb
  | .movb _ rep gd ga gb => blockRegs rep gd ga gb
  | _ => true

end Sys2Proof
end

