-- ==== Sys2Proof/Certificates/Slice0/Obligations.lean ====
section
/-! DEFINITION. The statements for the provers. An instruction that a core takes (`Takes`) begins in the state `s1`; a statement gives the
state that it answers whole, or its parts with what stays. -/

open Sys2Proof Sys2Proof.Machine

/-! ## The block -/

/-- A step with a command at the front of the queue is that command's effect on the state with the rest of the queue. -/
def Obligations.StepRunsFrontCommand : Prop := ∀ (i : Instr) (rest : List Instr) (s : State), s.pending = i :: rest →
  step s = exec i { s with pending := rest }

/-- DESIGN CHOICE (log 5): on an empty queue time passes by one tick of 1 ns. With no correction left the hub counter advances by one (08 R208), and
where no microprogram holds and the Lockkeeper has nothing to take up, what the statement names stands: memory, compartments, mailbox, log, and the
registers and the state of every core that it lists. -/
def Obligations.EmptyQueuePassesTime : Prop := ∀ (c : CoreId) (s : State), s.pending = [] → s.lk.resetDue = false → clocksRun s = true →
  (∀ d, waitOf s d ≠ some .micro) → s.lk.held = false → (∀ p, (getComp s p).abortDue = false) → smGet 0 s.weir.corr 33 = 0 →
  ∃ t, step s = .next t ∧ hubTick t = hubTick s + 1 ∧ t.now = s.now + 1 ∧ t.dram = s.dram ∧ t.comps = s.comps ∧ t.mbx = s.mbx ∧ t.log = s.log
    ∧ (getCore t c).banks = (getCore s c).banks ∧ (getCore t c).pc = (getCore s c).pc ∧ (getCore t c).st = (getCore s c).st
    ∧ (getCore t c).run = (getCore s c).run ∧ (getCore t c).instret = (getCore s c).instret

/-- No command of the block ends a run: each has an effect, or does not come about and leaves the state as it is (log 7). -/
def Obligations.EveryStepAnswersNext : Prop := ∀ s : State, ∃ t, step s = .next t

/-- 03 Tables 3.3, 3.5, 3.9, R72, R86, 12 R312, R318, 08 Table 8.3, 15 Table 15.3, 16 R379, 19 R440: the Reset values that the spec gives. Values of the
model's own choice (log 2) are not claimed. -/
def Obligations.ResetValues : Prop := ∀ (c : CoreId) (k : ClusterId) (p : CompId) (n : ChanId) (x : TimerId) (r : Reg) (b : Fin 8),
  let s := State.reset
  let z := getCore s c
  z.run = .held ∧ z.st.newest = 0x201 ∧ isSys z = true ∧ ipl z = 0 ∧ stIE z = false ∧ z.heap.goodcol = 1 ∧ z.cycles = 0 ∧ z.instret = 0
    ∧ regOf z b 0 = ⟨0x00, 0⟩ ∧ (r ≠ 0 → regOf z b r = ⟨0x07, 0⟩) ∧ z.l1.lfsr = 0xACE1 ∧ z.tlb.lfsr = 0x1D0F ∧ z.sq = [] ∧ z.mark = []
  ∧ (l2Of s k).st = .off ∧ (l2Of s k).lfsr = 0xACE1 ∧ (l2Of s k).carafeN = 0
  ∧ (getComp s p).st = .empty ∧ (getChan s n).en = false ∧ (getTimer s x).run = false ∧ (getTimer s x).count = 0
  ∧ hubTick s = 0 ∧ weirStat s = 0 ∧ mbxStatus s = 0 ∧ s.pins.ready = false ∧ s.pins.thermtripN = true ∧ s.lk.key2 = none ∧ s.pending = []
  ∧ (dramRead false 0 s).1 = ⟨0x07, 0⟩

/-- 13 R344: key slot 2 is programmed once: no command of the block, and no passing of time, changes or clears a key that it holds. -/
def Obligations.KeySlotTwoIsKept : Prop := ∀ (k : List Byte) (s t : State), s.lk.key2 = some k → step s = .next t → t.lk.key2 = some k

/-! ## Instruction words (04 Tables 4.1 to 4.10, R90, R112) -/

/-- 04 Tables 4.1 to 4.10: the word of a well-formed instruction of a core decodes to that instruction, whatever its operands; the five rows that are
writes of a control register decode to the write. -/
def Obligations.WordsDecodeToTheirInstruction : Prop := ∀ (i : Instr) (w : BitVec 32), wellFormedInstr i = true → encodeCore i = some w →
  (∃ c, decodeWord c (repOf i) w = some i)
  ∨ (∃ c ga, (i = .wdset c ga ∨ i = .wdclr c ga) ∧ decodeWord c none w = some (.mtc c 0x010 ga))
  ∨ (∃ c ga, (i = .swi c ga ∨ i = .swclr c ga) ∧ decodeWord c none w = some (.mtc c 0x011 ga))
  ∨ (∃ c ga, i = .irouteWr c ga ∧ decodeWord c none w = some (.mtc c 0x012 ga))

/-- 04 R90, R112: what a word decodes to is well formed and has that word; a word that the decode checks reject decodes to nothing, and any other to
something. -/
def Obligations.DecodedWordsAreWellFormed : Prop := ∀ (c : CoreId) (rep : Option Reg) (w : BitVec 32) (i : Instr),
  (decodeWord c rep w = some i → wellFormedInstr i = true ∧ encodeCore i = some w ∧ repOf i = rep)
  ∧ ((illegalOf w 0).isSome = true → decodeWord c none w = none)
  ∧ (illegalOf w 0 = none → ∃ j, decodeWord c none w = some j)
  ∧ ((encodeCore i).isSome = true → (wellFormedInstr i = true ↔ illegalInstr (repOf i) i = none))

/-! ## Arithmetic and tags (04 R94, R95; 05) -/

/-- 04 R94, Table 4.5: the raw instructions of two registers deliver a `FIXNUM` and change nothing else; `ADD` and `SUB` do where their sum fits or
`OVE` = 0. 04 R94: the overflow of `ADD`, `SUB` and `ADDI` under `OVE` takes vector `0x0E` with `EPC` at the instruction. 04 R94, 10 R274, R275: a
product or a quotient is delivered when its operation completes; the register keeps its word until then. 04 R94, Table 4.5: the immediate forms read
and write gd; `MOVI` reads nothing. -/
def Obligations.RawArithmetic : Prop :=
  (∀ (c : CoreId) (gd ga gb : Reg) (s s1 : State),
  rawOk (getCore s1 c) (opnd s1 c ga) = true → rawOk (getCore s1 c) (opnd s1 c gb) = true →
  let a := (opnd s1 c ga).payload
  let b := (opnd s1 c gb).payload
  let Ends (i : Instr) (v : W64) : Prop :=
    Takes c i s s1 → exec i s = .next (advanced c i {} (withReg c gd ⟨0x00, v⟩ s1))
  (stOVE (getCore s1 c) = false ∨ a.toInt + b.toInt = (a + b).toInt → Ends (.add c gd ga gb) (a + b))
  ∧ (stOVE (getCore s1 c) = false ∨ a.toInt - b.toInt = (a - b).toInt → Ends (.sub c gd ga gb) (a - b))
  ∧ Ends (.and c gd ga gb) (a &&& b) ∧ Ends (.or c gd ga gb) (a ||| b) ∧ Ends (.xor c gd ga gb) (a ^^^ b)
  ∧ Ends (.shl c gd ga gb) (a <<< (b.toNat % 64)) ∧ Ends (.shr c gd ga gb) (a >>> (b.toNat % 64))
  ∧ Ends (.sar c gd ga gb) (a.sshiftRight (b.toNat % 64)) ∧ Ends (.rol c gd ga gb) (a.rotateLeft (b.toNat % 64))
  ∧ Ends (.cmps c gd ga gb) (if a.toInt < b.toInt then -1 else if a = b then 0 else 1)
  ∧ Ends (.cmpu c gd ga gb) (if a.toNat < b.toNat then -1 else if a = b then 0 else 1))
  ∧ (∀ (c : CoreId) (gd ga gb : Reg) (imm : BitVec 16) (s s1 : State),
  stOVE (getCore s1 c) = true → rawOk (getCore s1 c) (opnd s1 c ga) = true → rawOk (getCore s1 c) (opnd s1 c gb) = true →
  rawOk (getCore s1 c) (opnd s1 c gd) = true →
  let a := (opnd s1 c ga).payload.toInt
  let b := (opnd s1 c gb).payload.toInt
  let e : ExcArgs := { vec := 0x0E, sub := 0, epc := (getCore s1 c).pc, eaddr := 0, einfo := 0, impr := false, inrep := false }
  (a + b < -2 ^ 63 ∨ 2 ^ 63 ≤ a + b → Takes c (.add c gd ga gb) s s1 → exec (.add c gd ga gb) s = .next (raiseAt c e s1))
  ∧ (a - b < -2 ^ 63 ∨ 2 ^ 63 ≤ a - b → Takes c (.sub c gd ga gb) s s1 → exec (.sub c gd ga gb) s = .next (raiseAt c e s1))
  ∧ (2 ^ 63 ≤ (opnd s1 c gd).payload.toInt + imm.toInt ∨ (opnd s1 c gd).payload.toInt + imm.toInt < -2 ^ 63 →
      Takes c (.addi c gd imm) s s1 → exec (.addi c gd imm) s = .next (raiseAt c e s1)))
  ∧ (∀ (c : CoreId) (gd ga gb : Reg) (s s1 : State),
  rawOk (getCore s1 c) (opnd s1 c ga) = true → rawOk (getCore s1 c) (opnd s1 c gb) = true →
  (getCore s1 c).longs = [] → stPRECISE (getCore s1 c) = false → stDET (getCore s1 c) = false → stDZE (getCore s1 c) = false →
  let a := (opnd s1 c ga).payload
  let b := (opnd s1 c gb).payload
  let Delivers (i j : Instr) (v : W64) : Prop :=
    Takes c i s s1 → ∃ t, exec i s = .next t ∧ (getCore t c).pc = va48 ((getCore s1 c).pc + 4) ∧ (getCore t c).banks = (getCore s1 c).banks
      ∧ exec j t = .next (withReg c gd ⟨0x00, v⟩ (advanced c i {} s1))
  Delivers (.mul c gd ga gb) (.longOperationComplete c) (a * b)
  ∧ Delivers (.mulh c gd ga gb) (.longOperationComplete c) (BitVec.ofInt 64 ((a.toInt * b.toInt).fdiv (2 ^ 64)))
  ∧ Delivers (.div c gd ga gb) (.divideComplete c) (if b = 0 then 0 else BitVec.ofInt 64 (a.toInt.tdiv b.toInt))
  ∧ Delivers (.divu c gd ga gb) (.divideComplete c) (if b = 0 then 0 else a / b)
  ∧ Delivers (.rem c gd ga gb) (.divideComplete c) (if b = 0 then a else BitVec.ofInt 64 (a.toInt.tmod b.toInt))
  ∧ Delivers (.remu c gd ga gb) (.divideComplete c) (if b = 0 then a else a % b))
  ∧ (∀ (c : CoreId) (gd : Reg) (imm : BitVec 16) (h : Fin 3) (s s1 : State),
  rawOk (getCore s1 c) (opnd s1 c gd) = true →
  let a := (opnd s1 c gd).payload
  let Ends (i : Instr) (v : W64) : Prop :=
    Takes c i s s1 → exec i s = .next (advanced c i {} (withReg c gd ⟨0x00, v⟩ s1))
  (stOVE (getCore s1 c) = false ∨ a.toInt + imm.toInt = (a + imm.signExtend 64).toInt → Ends (.addi c gd imm) (a + imm.signExtend 64))
  ∧ Ends (.andi c gd imm) (a &&& imm.setWidth 64) ∧ Ends (.ori c gd imm) (a ||| imm.setWidth 64)
  ∧ Ends (.xori c gd imm) (a ^^^ imm.setWidth 64) ∧ Ends (.shli c gd imm) (a <<< (imm.toNat % 64))
  ∧ Ends (.shri c gd imm) (a >>> (imm.toNat % 64)) ∧ Ends (.sari c gd imm) (a.sshiftRight (imm.toNat % 64))
  ∧ Ends (.movi c gd imm) (imm.signExtend 64)
  ∧ Ends (.movhi c gd imm h) (setFld a (16 * (h.val + 1)) 16 imm.toNat))

/-- 05 R121, R122: what the generic instructions deliver for two fixnums. A result out of range under `OVE`, and an inexact quotient of `GDIV`, dispatch
instead and are not claimed here. -/
def Obligations.FixnumResults : Prop := ∀ (c : CoreId) (gd ga : Reg) (b : GSrc) (s s1 : State),
  (opnd s1 c ga).tag = 0x00 → (genericSecond s1 c b).tag = 0x00 → (getCore s1 c).longs = [] →
  let k := getCore s1 c
  let x := (opnd s1 c ga).payload
  let y := (genericSecond s1 c b).payload
  let Ends (i : Instr) (w : Word) : Prop := Takes c i s s1 → exec i s = .next (advanced c i {} (withReg c gd w s1))
  let fits (r : Int) : Prop := -2 ^ 63 ≤ r ∧ r < 2 ^ 63
  (stOVE k = false ∨ fits (x.toInt + y.toInt) → Ends (.gadd c gd ga b) ⟨0x00, x + y⟩)
  ∧ (stOVE k = false ∨ fits (x.toInt - y.toInt) → Ends (.gsub c gd ga b) ⟨0x00, x - y⟩)
  ∧ (stPRECISE k = true → stOVE k = false ∨ fits (x.toInt * y.toInt) → Ends (.gmul c gd ga b) ⟨0x00, x * y⟩)
  ∧ (y ≠ 0 → (y.toInt ∣ x.toInt ∨ stTRUNC k = true) → fits (x.toInt.tdiv y.toInt) →
      Ends (.gdiv c gd ga b) ⟨0x00, BitVec.ofInt 64 (x.toInt.tdiv y.toInt)⟩)
  ∧ (y ≠ 0 → fits (x.toInt.tdiv y.toInt) → Ends (.gquo c gd ga b) ⟨0x00, BitVec.ofInt 64 (x.toInt.tdiv y.toInt)⟩)
  ∧ (y ≠ 0 → Ends (.grem c gd ga b) ⟨0x00, BitVec.ofInt 64 (x.toInt.tmod y.toInt)⟩)
  ∧ (stOVE k = false ∨ fits (-x.toInt) → Ends (.gneg c gd ga) ⟨0x00, -x⟩)
  ∧ Ends (.glt c gd ga b) (boolW (decide (x.toInt < y.toInt)))
  ∧ Ends (.gle c gd ga b) (boolW (decide (x.toInt ≤ y.toInt)))
  ∧ Ends (.geq c gd ga b) (boolW (decide (x = y)))
  ∧ Ends (.gcmp c gd ga b) ⟨0x00, if x.toInt < y.toInt then -1 else if x = y then 0 else 1⟩

/-- 04 R95, 05 R130: `GTAG` and `TCLS` deliver the tag and the class of ga, whatever its tag; the class of the two numeric tags needs no memory. 02 R50,
04 R95: `STAG` makes a word of the payload and a tag that is neither reserved nor forged; a pointer tag or `POISON` needs system mode with `FORGE`,
and raises tag fault `0x06` otherwise; a reserved tag raises `0x02`, a user's pointer operand `0x04`. 05 R121: `EQ` delivers `Same` of two operands
that need no healing. -/
def Obligations.TagInstructions : Prop :=
  (∀ (c : CoreId) (gd ga : Reg) (n : Nat) (s s1 s2 : State),
  let w := opnd s1 c ga
  (Takes c (.gtag c gd ga) s s1 →
    exec (.gtag c gd ga) s = .next (advanced c (.gtag c gd ga) {} (withReg c gd ⟨0x00, w.tag.setWidth 64⟩ s1)))
  ∧ (Takes c (.tcls c gd ga) s s1 → w.tag = 0x00 ∨ w.tag = 0x01 →
    exec (.tcls c gd ga) s = .next (advanced c (.tcls c gd ga) {} (withReg c gd ⟨0x00, w.tag.setWidth 64⟩ s1)))
  ∧ (Takes c (.tcls c gd ga) s s1 → (tagClass c w.tag).run s1 = .ok n s2 →
    exec (.tcls c gd ga) s = .next (advanced c (.tcls c gd ga) {} (withReg c gd ⟨0x00, BitVec.ofNat 64 n⟩ s2))))
  ∧ (∀ (c : CoreId) (gd ga : Reg) (t : BitVec 8) (s s1 : State),
  let k := getCore s1 c
  let w := opnd s1 c ga
  let Faults (sub : Byte) (info : Nat) : Prop := exec (.stag c gd ga t) s = .next (raiseAt c
    { vec := 0x0B, sub := sub, epc := k.pc, eaddr := 0, einfo := BitVec.ofNat 64 info, impr := false, inrep := false } s1)
  plainWord w = true → Takes c (.stag c gd ga t) s s1 →
  (isReserved t = true → Faults 0x02 (t.toNat + 256 * 4))
  ∧ (isReserved t = false → (isPtr t = false ∧ t ≠ 0x08) ∨ (isSys k = true ∧ stFORGE k = true) → isPtr w.tag = false ∨ isSys k = true →
    exec (.stag c gd ga t) s = .next (advanced c (.stag c gd ga t) {} (withReg c gd ⟨t, w.payload⟩ s1)))
  ∧ (isReserved t = false → isPtr t = true ∨ t = 0x08 → isSys k = false ∨ stFORGE k = false → Faults 0x06 (t.toNat + 256 * 4))
  ∧ (isReserved t = false → isPtr t = false → t ≠ 0x08 → isPtr w.tag = true → isSys k = false → Faults 0x04 w.tag.toNat))
  ∧ (∀ (c : CoreId) (gd ga : Reg) (b : GSrc) (s s1 : State),
  plainWord (opnd s1 c ga) = true → stale (getCore s1 c) (opnd s1 c ga) = false →
  plainWord (genericSecond s1 c b) = true → stale (getCore s1 c) (genericSecond s1 c b) = false →
  Takes c (.eq c gd ga b) s s1 →
  exec (.eq c gd ga b) s = .next (advanced c (.eq c gd ga b) {}
    (withReg c gd (boolW (same (opnd s1 c ga) (genericSecond s1 c b))) s1)))

/-- 05 R134, R135: a fixnum with a flonum under `MIX` = 0 goes to the handler of its slot and classes, with the operands, the operation and the return
address in the dispatch registers of its level, and is not yet counted; `DRET` delivers its register to the destination, goes on behind the
dispatching instruction and counts both; a second dispatch at the level raises vector `0x12`, and so does `DRET` without one. -/
def Obligations.DispatchAndReturn : Prop := ∀ (c : CoreId) (gd ga gb gr : Reg) (s s1 s2 : State) (e : Word),
  let i : Instr := .gadd c gd ga (.reg gb)
  let j : Instr := .dret c gr
  let k := getCore s1 c
  let b := bankOf k (ipl k)
  let inBank (f : Bank → Bank) (u : State) : State := modCore u c fun k => modBank k (ipl k) f
  let Fails (i : Instr) (sub : Byte) : Prop := Takes c i s s1 → exec i s = .next (raiseAt c
    { vec := 0x12, sub := sub, epc := k.pc, eaddr := 0, einfo := 0, impr := false, inrep := false } s1)
  k.micro.table = [] →
  ((opnd s1 c ga).tag = 0x00 → (opnd s1 c gb).tag = 0x01 → stMIX k = false →
    (b.dbusy = true → Fails i 0x01)
    ∧ (b.dbusy = false → Reads c (va48 (k.heap.dispatchBase + 8)) s1 s2 e → isPtr e.tag = true → ptype e.tag = 0x09 → wellFormed e = true →
      Takes c i s s1 → exec i s = .next (advanced c i { next := some (va48 e.payload), count := 0 } (inBank (fun x => { x with
        dspA := opnd s1 c ga, dspB := opnd s1 c gb, dspOp := BitVec.ofNat 64 gd.val, dretPc := va48 (k.pc + 4), dbusy := true }) s2))))
  ∧ (b.dbusy = false → Fails j 0x02)
  ∧ (b.dbusy = true → Takes c j s s1 → exec j s = .next (advanced c j { next := some (va48 b.dretPc), count := 2 }
      (inBank (fun x => { x with dbusy := false }) (withReg c (Fin.ofNat 32 (fld b.dspOp 0 5)) (opnd s1 c gr) s1))))

/-! ## Lists, objects and memory (04 R96 to R108; 05 R140 to R149) -/

/-- 05 R141: `CAR` and `CDR` of a good pair load the word at the pair or 8 behind it; of `NIL` under `NILCAR` they deliver `NIL`. 05 R142: `RPLACA` and
`RPLACD` store the word whole; for a word that is no pointer nothing is logged. 05 R143, R144: a `CONS` that finds 16 bytes of room below
`ALLOC_LIM` moves `ALLOC_PTR` by 16, queues the stores of both words at the old place and delivers a pair pointer of the good colour to it; one that
does not raises vector `0x0F` and moves nothing. -/
def Obligations.ListCells : Prop :=
  (∀ (c : CoreId) (gd ga : Reg) (s s1 s2 : State) (v : Word),
  let k := getCore s1 c
  let w := opnd s1 c ga
  let Ends (i : Instr) (r : Word) (u : State) : Prop := Takes c i s s1 → exec i s = .next (advanced c i {} (withReg c gd r u))
  (w = nilW → stNILCAR k = true → Ends (.car c gd ga) nilW s1 ∧ Ends (.cdr c gd ga) nilW s1)
  ∧ (isPtr w.tag = true → ptype w.tag = 0 → wellFormed w = true → stale k w = false → v.tag ≠ 0x08 →
      stale k v = false →
      (Reads c (va48 w.payload) s1 s2 v → Ends (.car c gd ga) v s2)
      ∧ (Reads c (va48 (w.payload + 8)) s1 s2 v → Ends (.cdr c gd ga) v s2)))
  ∧ (∀ (c : CoreId) (ga gb : Reg) (s s1 s2 : State) (x : Xlat),
  let k := getCore s1 c
  let w := opnd s1 c ga
  let v := opnd s1 c gb
  isPtr w.tag = true → ptype w.tag = 0 → wellFormed w = true → stale k w = false → isPtr v.tag = false →
  (StoresAt c (va48 w.payload) s1 s2 x → Takes c (.rplaca c ga gb) s s1 →
    exec (.rplaca c ga gb) s = .next (advanced c (.rplaca c ga gb) {} (queued c x (wholeWord x v) s2)))
  ∧ (StoresAt c (va48 (w.payload + 8)) s1 s2 x → Takes c (.rplacd c ga gb) s s1 →
    exec (.rplacd c ga gb) s = .next (advanced c (.rplacd c ga gb) {} (queued c x (wholeWord x v) s2))))
  ∧ (∀ (c : CoreId) (gd ga gb : Reg) (s s1 s2 s3 : State) (x y : Xlat),
  let i : Instr := .cons c gd ga gb
  let k := getCore s1 c
  let p := k.heap.allocPtr
  Takes c i s s1 →
  (p.toNat + 16 ≤ k.heap.allocLim.toNat → p.toNat % 16 = 0 → p.toNat < 2 ^ 48 →
    StoresAt c p s1 s2 x → StoresAt c (p + 8) s2 s3 y → y.mt = x.mt → isRemote s3 x.pa = false →
    ∃ u, exec i s = .next (advanced c i {} u) ∧ (getCore u c).heap = { k.heap with allocPtr := p + 16 }
      ∧ (gd ≠ 0 → opnd u c gd = ⟨ptrTag k.heap.goodcol 0, p⟩) ∧ (∀ r, r ≠ gd → opnd u c r = opnd s1 c r)
      ∧ ((getCore u c).sq.flatMap (·.writes)) = k.sq.flatMap (·.writes)
          ++ [wholeWord x (opnd s1 c ga), wholeWord y (opnd s1 c gb)])
  ∧ (k.heap.allocLim.toNat < p.toNat + 16 → k.micro.table = [] →
    exec i s = .next (raiseAt c
      { vec := 0x0F, sub := 0x01, epc := k.pc, eaddr := p, einfo := 16, impr := false, inrep := false } s1)))

/-- 05 R145: `LWALK` without the prefix, on `NIL`, delivers `NIL`; on a pair whose first word is the key it delivers the pair. -/
def Obligations.LwalkFinds : Prop := ∀ (c : CoreId) (gd ga gb : Reg) (s s1 s2 : State) (car : Word),
  let i : Instr := .lwalk c none gd ga gb
  let k := getCore s1 c
  let w := opnd s1 c ga
  Takes c i s s1 → k.micro.table = [] →
  (w = nilW → exec i s = .next (advanced c i {} (withReg c gd nilW s1)))
  ∧ (isPtr w.tag = true → ptype w.tag = 0 → wellFormed w = true → stale k w = false →
      plainWord (opnd s1 c gb) = true → stale k (opnd s1 c gb) = false →
      Reads c (va48 w.payload) s1 s2 car → car.tag ≠ 0x08 → stale k car = false → same car (opnd s1 c gb) = true →
      exec i s = .next (advanced c i {} (withReg c gd w s2)))

/-- 05 R147, R148: the header and the length of an object; an element is loaded from 8 × (index + 1) behind it, and an index that is not below the
length raises vector `0x0C` with subcode `0x01`. 05 R148, R146: `VSET` of a word that is no pointer queues its store to the element, and `ALLOC` of
a length that fits below `ALLOC_LIM` queues the header's store at `ALLOC_PTR`, moves `ALLOC_PTR` by the object's size in whole 16 bytes and delivers
the pointer to the old place. -/
def Obligations.ObjectInstructions : Prop :=
  (∀ (c : CoreId) (gd ga gb : Reg) (s s1 s2 s3 : State) (h v : Word),
  let k := getCore s1 c
  let w := opnd s1 c ga
  let n := (opnd s1 c gb).payload
  let Ends (i : Instr) (r : Word) (u : State) : Prop := Takes c i s s1 → exec i s = .next (advanced c i {} (withReg c gd r u))
  isHeaded w.tag = true → wellFormed w = true → stale k w = false → Reads c (va48 w.payload) s1 s2 h → h.tag = 0x04 →
  Ends (.hdr c gd ga) h s2 ∧ Ends (.vlen c gd ga) ⟨0x00, BitVec.ofNat 64 (hdrLen h)⟩ s2
  ∧ ((opnd s1 c gb).tag = 0x00 → n.toNat < hdrLen h → Reads c (va48 (w.payload + 8 * (n + 1))) s2 s3 v → v.tag ≠ 0x08 →
      stale k v = false → Ends (.vref c gd ga gb) v s3)
  ∧ ((opnd s1 c gb).tag = 0x00 → hdrLen h ≤ n.toNat → Takes c (.vref c gd ga gb) s s1 →
      exec (.vref c gd ga gb) s = .next (raiseAt c
        { vec := 0x0C, sub := 0x01, epc := k.pc, eaddr := w.payload, impr := false, inrep := false
          einfo := BitVec.ofNat 64 (hdrLen h % 2 ^ 32 + n.toNat % 2 ^ 32 * 2 ^ 32) } s2)))
  ∧ (∀ (c : CoreId) (gd ga gb : Reg) (p : BitVec 5) (s s1 s2 s3 : State) (h : Word) (x : Xlat),
  let k := getCore s1 c
  let w := opnd s1 c ga
  let i : Instr := .alloc c gd ga p
  (isHeaded w.tag = true → wellFormed w = true → stale k w = false → Reads c (va48 w.payload) s1 s2 h → h.tag = 0x04 →
    (opnd s1 c gb).tag = 0x00 → (opnd s1 c gb).payload.toNat < hdrLen h → isPtr (opnd s1 c gd).tag = false →
    StoresAt c (va48 (w.payload + 8 * ((opnd s1 c gb).payload + 1))) s2 s3 x →
    Takes c (.vset c gd ga gb) s s1 →
    exec (.vset c gd ga gb) s = .next (advanced c (.vset c gd ga gb) {} (queued c x (wholeWord x (opnd s1 c gd)) s3)))
  ∧ (w.tag = 0x00 → w.payload.toNat < 2 ^ 32 → k.heap.allocPtr.toNat < 2 ^ 48 →
    k.heap.allocPtr.toNat + (8 * (w.payload.toNat + 1) + 15) / 16 * 16 ≤ k.heap.allocLim.toNat →
    StoresAt c k.heap.allocPtr s1 s2 x → Takes c i s s1 →
    ∃ u, exec i s = .next (advanced c i {} u)
      ∧ (getCore u c).heap = { k.heap with allocPtr := k.heap.allocPtr + BitVec.ofNat 64 ((8 * (w.payload.toNat + 1) + 15) / 16 * 16) }
      ∧ (gd ≠ 0 → opnd u c gd = ⟨ptrTag k.heap.goodcol p.toNat, k.heap.allocPtr⟩) ∧ (∀ r, r ≠ gd → opnd u c r = opnd s1 c r)
      ∧ (getCore u c).sq.flatMap (·.writes) = k.sq.flatMap (·.writes) ++ [wholeWord x ⟨0x04, w.payload⟩]))

/-- 04 R96, R98: a tagged load delivers the word at base + 8 × displacement, tag and payload; `LDW.NB`, in system mode, delivers it whatever it is. 02
R44, 04 R98: `POISON` read by a load raises vector `0x16` at the load; read by `LDW.NB` it raises nothing. 04 R97, R98: a tagged store puts the
whole word into the store queue; of a word that is no pointer nothing is logged. -/
def Obligations.TaggedAccesses : Prop :=
  (∀ (c : CoreId) (gd ga : Reg) (disp : BitVec 13) (rsv : BitVec 2) (s s1 s2 : State) (v : Word),
  let k := getCore s1 c
  let ea := va48 ((opnd s1 c ga).payload + disp.signExtend 64 * 8)
  baseOk k (opnd s1 c ga) = true → ea.toNat % 8 = 0 → Reads c ea s1 s2 v →
  (Takes c (.ldw c gd ga disp rsv) s s1 → v.tag ≠ 0x08 → stale k v = false →
    exec (.ldw c gd ga disp rsv) s = .next (advanced c (.ldw c gd ga disp rsv) {} (withReg c gd v s2)))
  ∧ (Takes c (.ldwNb c gd ga disp rsv) s s1 → isSys k = true →
    exec (.ldwNb c gd ga disp rsv) s = .next (advanced c (.ldwNb c gd ga disp rsv) {} (withReg c gd v s2))))
  ∧ (∀ (c : CoreId) (gd ga : Reg) (disp : BitVec 13) (rsv : BitVec 2) (s s1 s2 : State) (v : Word),
  let k := getCore s1 c
  let ea := va48 ((opnd s1 c ga).payload + disp.signExtend 64 * 8)
  baseOk k (opnd s1 c ga) = true → ea.toNat % 8 = 0 → Reads c ea s1 s2 v → v.tag = 0x08 →
  Takes c (.ldw c gd ga disp rsv) s s1 →
  ∃ u, exec (.ldw c gd ga disp rsv) s = .next (raiseAt c
      { vec := 0x16, sub := 0, epc := k.pc, eaddr := ea, einfo := v.payload, impr := false, inrep := false } u)
    ∧ (getCore u c).banks = (getCore s2 c).banks)
  ∧ (∀ (c : CoreId) (gd ga : Reg) (disp : BitVec 13) (rsv : BitVec 2) (s s1 s2 : State) (x : Xlat),
  let k := getCore s1 c
  let ea := va48 ((opnd s1 c ga).payload + disp.signExtend 64 * 8)
  baseOk k (opnd s1 c ga) = true → ea.toNat % 8 = 0 → StoresAt c ea s1 s2 x →
  (Takes c (.stw c gd ga disp rsv) s s1 → isPtr (opnd s1 c gd).tag = false →
    exec (.stw c gd ga disp rsv) s = .next (advanced c (.stw c gd ga disp rsv) {} (queued c x (wholeWord x (opnd s1 c gd)) s2)))
  ∧ (Takes c (.stwNb c gd ga disp rsv) s s1 → isSys k = true →
    exec (.stwNb c gd ga disp rsv) s = .next (advanced c (.stwNb c gd ga disp rsv) {} (queued c x (wholeWord x (opnd s1 c gd)) s2))))

/-- 04 R99: an aligned raw load delivers its bytes, sign- or zero-extended, as a `FIXNUM`. 04 R100, R101: an aligned raw store to a word of `BYTES` of
this device queues its bytes alone. 04 R102: a bus error on the second half of a split store comes when the queue drains: the first half is written,
the second dropped, and vector `0x05` with subcode `0x02` is pending as an imprecise report. Without a split store in the queue nothing happens. -/
def Obligations.RawAccesses : Prop :=
  (∀ (c : CoreId) (gd ga : Reg) (u : Bool) (disp : BitVec 13) (s s1 s2 : State) (v : Word),
  let k := getCore s1 c
  let ea := va48 ((opnd s1 c ga).payload + disp.signExtend 64)
  let part (n : Nat) : Nat := v.payload.toNat / 2 ^ (8 * (ea.toNat % 8)) % 2 ^ (8 * n)
  let Ends (i : Instr) (r : W64) : Prop := Takes c i s s1 → exec i s = .next (advanced c i {} (withReg c gd ⟨0x00, r⟩ s2))
  baseOk k (opnd s1 c ga) = true → Reads c ea s1 s2 v → plainWord v = true →
  Ends (.ldB c gd ga u disp) (if u then BitVec.ofNat 64 (part 1) else (BitVec.ofNat 8 (part 1)).signExtend 64)
  ∧ (ea.toNat % 2 = 0 → Ends (.ldH c gd ga u disp) (if u then BitVec.ofNat 64 (part 2) else (BitVec.ofNat 16 (part 2)).signExtend 64))
  ∧ (ea.toNat % 4 = 0 → Ends (.ldW c gd ga u disp) (if u then BitVec.ofNat 64 (part 4) else (BitVec.ofNat 32 (part 4)).signExtend 64))
  ∧ (ea.toNat % 8 = 0 → Ends (.ldD c gd ga false disp) v.payload))
  ∧ (∀ (c : CoreId) (gd ga : Reg) (disp : BitVec 13) (s s1 s2 s3 : State) (x : Xlat) (old : Word),
  let k := getCore s1 c
  let ea := va48 ((opnd s1 c ga).payload + disp.signExtend 64)
  let d := (opnd s1 c gd).payload <<< (8 * (ea.toNat % 8))
  let lanes (n : Nat) : Byte := BitVec.ofNat 8 ((2 ^ n - 1) * 2 ^ (ea.toNat % 8))
  let Ends (i : Instr) (n : Nat) : Prop :=
    Takes c i s s1 → ea.toNat % n = 0 → exec i s = .next (advanced c i {} (queued c x (someBytes x (lanes n) d) s3))
  baseOk k (opnd s1 c ga) = true → plainWord (opnd s1 c gd) = true → StoresAt c ea s1 s2 x →
  (targetWord c ea x).run s2 = .ok old s3 → old.tag = 0x06 → archCore (getCore s3 c) = archCore (getCore s2 c) →
  regionPending s3 (getCore s3 c).compart x.rattr x.pa = false → isRemote s3 x.pa = false →
  Ends (.stB c gd ga disp) 1 ∧ Ends (.stH c gd ga disp) 2 ∧ Ends (.stW c gd ga disp) 4 ∧ Ends (.stD c gd ga disp) 8)
  ∧ (∀ (c : CoreId) (s : State) (e : SqEntry) (r : List SqEntry) (up : W64),
  let u := modCore s c fun k => { k with sq := r }
  ((getCore s c).sq = e :: r → e.split = some up → exec (.splitStoreBusError c) s
    = .next (modCore (performWrites u c e.mt e.user (e.writes.take 1)) c fun k => { k with pend := { k.pend with
        reports := k.pend.reports ++ [{ vec := 0x05, sub := 0x02, eaddr := up, einfo := va48 e.pc + 2 ^ 48 }] } }))
  ∧ ((∀ e ∈ (getCore s c).sq, e.split = none) → exec (.splitStoreBusError c) s = .next s))

/-- 04 R104, 10 R270: a tagged store that still stands in the store queue is what a later load of its word reads, in memory of this device. -/
def Obligations.StoreIsSeenByLoad : Prop := ∀ (c : CoreId) (va : W64) (x : Xlat) (w : Word) (s : State),
  isRemote s (wordPa x.pa) = false → x.mt ≠ .device →
  (readWord c va x).run (queued c x (wholeWord x w) s) = .ok w (queued c x (wholeWord x w) s)

/-- 04 R103: `CASW` on a word of this device's memory, with nothing of its core left to perform. A word that is not the expected one is left and false
is delivered; on the expected one the new word, no pointer, is performed before the instruction ends and true is delivered; `POISON` raises vector
`0x16`. -/
def Obligations.CaswCompares : Prop := ∀ (c : CoreId) (gd ga gb : Reg) (s s1 s2 s3 : State) (x : Xlat) (old : Word),
  let i : Instr := .casw c gd ga gb
  let k := getCore s1 c
  let ea := va48 (opnd s1 c ga).payload
  let want := opnd s1 c gd
  let new := opnd s1 c gb
  Takes c i s s1 → baseOk k (opnd s1 c ga) = true → ea.toNat % 8 = 0 → plainWord want = true → stale k want = false →
  (xlateData c ea .rmw (!isSys k)).run s1 = .ok x s2 → x.mt ≠ .device → isRemote s2 x.pa = false → (getCore s2 c).sq = [] →
  unacked s2 c = false → ownedRead c x s2 = (old, s3) → archCore (getCore s2 c) = archCore k → archCore (getCore s3 c) = archCore k →
  (old.tag ≠ 0x08 → same old want = false → exec i s = .next (advanced c i {} (withReg c gd falseW s3)))
  ∧ (old.tag ≠ 0x08 → same old want = true → isPtr new.tag = false → regionPending s3 k.compart x.rattr x.pa = false → isRemote s3 x.pa = false →
      k.recent.length ≤ 4 →
      ∃ r, exec i s = .next (advanced c i {} (withReg c gd trueW (drainAll (queued c x (wholeWord x new) (withAnswers c r s3)) c))))
  ∧ (old.tag = 0x08 → exec i s = .next (raiseAt c
      { vec := 0x16, sub := 0, epc := k.pc, eaddr := ea, einfo := old.payload, impr := false, inrep := false } s3))

/-- 04 R113: with a count of zero or less a block instruction, and `LWALK` with the prefix, ends at once and changes nothing. 04 R113, R114: a pair of n
elements that lie within the bound and one line of each object takes one iteration, after which the count is n lower and both indices n higher.
`FILLW` queues the word of ga, no pointer, at n elements of gd's object from J on; `MOVW` queues n words of ga's object from I on, none a pointer,
copied in ascending order; `MOVB` queues n bytes alike, where the words they go to may be written. 04 R113, R114: over n elements that lie within
the bound and one line of each object, `SCANW` consumes the elements before the first that is `Same` as the key, and `CMPW` the pairs before the
first that is not `Same`, or all n; each leaves the count so much lower and both indices so much higher, and stores nothing. -/
def Obligations.BlockInstructions : Prop :=
  (∀ (c : CoreId) (gc gd ga gb : Reg) (s s1 : State),
  let Ends (i : Instr) : Prop := Takes c i s s1 → exec i s = .next (advanced c i {} s1)
  plainWord (opnd s1 c gc) = true → (opnd s1 c gc).payload.toInt ≤ 0 → (getCore s1 c).micro.table = [] →
  Ends (.movw c (some gc) gd ga gb) ∧ Ends (.fillw c (some gc) gd ga gb) ∧ Ends (.scanw c (some gc) gd ga gb)
  ∧ Ends (.cmpw c (some gc) gd ga gb) ∧ Ends (.movb c (some gc) gd ga gb) ∧ Ends (.lwalk c (some gc) gd ga gb))
  ∧ (∀ (c : CoreId) (gc gd ga gb : Reg) (n : Nat) (s s1 s2 s3 s4 s5 s6 s7 : State) (o d : BObj) (x y : Xlat)
    (ws : List Word) (bs : List W64) (data : List Store),
  let p := fld (opnd s1 c gb).payload 0 32
  let q := fld (opnd s1 c gb).payload 32 32
  let k := getCore s1 c
  let Ends (i : Instr) (l : List WordWrite) (u : State) : Prop :=
    ∃ r, exec i s = .next (advanced c i {} (consumed c gc gb n (queuedRun c y l (withAnswers c r u))))
  (StartsPair c (.fillw c (some gc) gd ga gb) gc gb n s s1 → (blockObj c gd 5 false).run s1 = .ok d s2 → unwritten k (getCore s2 c) →
    (openStream c d q false .store).run s2 = .ok y s3 → unwritten k (getCore s3 c) → OneIteration d q n false y → mayQueue c y s3 →
    isPtr (opnd s1 c ga).tag = false → Ends (.fillw c (some gc) gd ga gb) (wordRun y (List.replicate n (opnd s1 c ga))) s3)
  ∧ (StartsPair c (.movw c (some gc) gd ga gb) gc gb n s s1 → (blockObj c ga 0 false).run s1 = .ok o s2 → unwritten k (getCore s2 c) →
    (blockObj c gd 5 false).run s2 = .ok d s3 → unwritten k (getCore s3 c) → (openStream c o p false .load).run s3 = .ok x s4 →
    unwritten k (getCore s4 c) → (openStream c d q false .store).run s4 = .ok y s5 → unwritten k (getCore s5 c) →
    (loadWords c (elemAddr o p false) x n).run s5 = .ok ws s6 → unwritten k (getCore s6 c) →
    OneIteration o p n false x → OneIteration d q n false y → mayQueue c y s6 → (∀ w ∈ ascending x.pa y.pa ws, isPtr w.tag = false) →
    Ends (.movw c (some gc) gd ga gb) (wordRun y (ascending x.pa y.pa ws)) s6)
  ∧ (StartsPair c (.movb c (some gc) gd ga gb) gc gb n s s1 → (blockObj c ga 0 true).run s1 = .ok o s2 → unwritten k (getCore s2 c) →
    (blockObj c gd 5 true).run s2 = .ok d s3 → unwritten k (getCore s3 c) → (openStream c o p true .load).run s3 = .ok x s4 →
    unwritten k (getCore s4 c) → (openStream c d q true .store).run s4 = .ok y s5 → unwritten k (getCore s5 c) →
    let a := elemAddr o p true
    let b := elemAddr d q true
    let bytes := movbBytes bs (a.toNat % 8) (if x.pa.toNat ≤ y.pa.toNat ∧ y.pa.toNat < x.pa.toNat + n then some (y.pa.toNat - x.pa.toNat) else none) n
    (movbSource c a x (spanWords a n)).run s5 = .ok bs s6 → unwritten k (getCore s6 c) →
    (movbStores c b y bytes (spanWords b n)).run s6 = .ok data s7 → unwritten k (getCore s7 c) →
    OneIteration o p n true x → OneIteration d q n true y → mayQueue c y s7 →
    Ends (.movb c (some gc) gd ga gb) (byteRun y (b.toNat % 8) bytes) s7))
  ∧ (∀ (c : CoreId) (gc gd ga gb : Reg) (n : Nat) (s s1 s2 s3 s4 s5 s6 s7 : State) (o d : BObj) (x y : Xlat)
    (ws us : List Word),
  let p := fld (opnd s1 c gb).payload 0 32
  let q := fld (opnd s1 c gb).payload 32 32
  let k := getCore s1 c
  let key := opnd s1 c gd
  let Ends (i : Instr) (m : Nat) (u : State) : Prop := exec i s = .next (advanced c i {} (consumed c gc gb m u))
  (StartsPair c (.scanw c (some gc) gd ga gb) gc gb n s s1 → (blockObj c ga 0 false).run s1 = .ok o s2 → unwritten k (getCore s2 c) →
    plainWord key = true → stale k key = false → (openStream c o p false .load).run s2 = .ok x s3 → unwritten k (getCore s3 c) →
    OneIteration o p n false x → (loadWords c (elemAddr o p false) x n).run s3 = .ok ws s4 → unwritten k (getCore s4 c) →
    Ends (.scanw c (some gc) gd ga gb) ((ws.findIdx? (same · key)).getD n) s4)
  ∧ (StartsPair c (.cmpw c (some gc) gd ga gb) gc gb n s s1 → (blockObj c ga 0 false).run s1 = .ok o s2 → unwritten k (getCore s2 c) →
    (blockObj c gd 5 false).run s2 = .ok d s3 → unwritten k (getCore s3 c) → (openStream c o p false .load).run s3 = .ok x s4 →
    unwritten k (getCore s4 c) → (openStream c d q false .load).run s4 = .ok y s5 → unwritten k (getCore s5 c) →
    OneIteration o p n false x → OneIteration d q n false y →
    (loadWords c (elemAddr o p false) x n).run s5 = .ok ws s6 → unwritten k (getCore s6 c) →
    (loadWords c (elemAddr d q false) y n).run s6 = .ok us s7 → unwritten k (getCore s7 c) →
    Ends (.cmpw c (some gc) gd ga gb) (((ws.zip us).findIdx? fun e => !same e.1 e.2).getD n) s7))

/-- 04 R108: `PREF` goes on whatever its operand, and leaves all as it is but for at most one line miss of the core; with a reserved hint, or in
deterministic mode, it records none. 04 R106, R107: `FENCE.L` only goes on. `FENCE.S` and `FENCE.A` perform the core's queued stores, and go on once
other devices have acknowledged its writes, waiting until then; a queue of stores to uncached memory is then empty. 04 R117, 03 R68: `ISYNC`
performs the queued stores, empties the L1I and the fetch buffer with the fetches under way, and from then on fetch uses the present `PTBASE` and
`SPACE`. -/
def Obligations.OrderingInstructions : Prop :=
  (∀ (c : CoreId) (h : BitVec 5) (ga : Reg) (disp : BitVec 16) (s s1 : State),
  let i : Instr := .pref c h ga disp
  Takes c i s s1 → ∃ l, exec i s = .next (advanced c i {} (modL1 s1 c fun x => { x with miss := x.miss ++ l })) ∧ l.length ≤ 1
    ∧ (4 ≤ h.toNat ∨ stDET (getCore s1 c) = true → l = []))
  ∧ (∀ (c : CoreId) (s s1 : State),
  let t := drainAll s1 c
  let Drains (i : Instr) : Prop := Takes c i s s1 → (unacked t c = false → exec i s = .next (advanced c i {} t))
    ∧ (unacked t c = true → exec i s = .next (waiting c .ack i t))
  (Takes c (.fenceL c) s s1 → exec (.fenceL c) s = .next (advanced c (.fenceL c) {} s1)) ∧ Drains (.fenceS c) ∧ Drains (.fenceA c)
    ∧ ((getCore s1 c).sq.all (fun e => e.mt == .uncached) = true → (getCore t c).sq = []))
  ∧ (∀ (c : CoreId) (s s1 : State),
  Takes c (.isync c) s s1 → exec (.isync c) s = .next (advanced c (.isync c) {} (modCore (drainAll s1 c) c fun k => { k with
    ahead := none, l1 := { k.l1 with icache := [], fbuf := [], miss := k.l1.miss.filter fun m => m.kind != .fetch }
    mmu := { k.mmu with fetchPtbase := k.mmu.ptbase, fetchSpace := k.mmu.space } })))

/-! ## Control (04 R109 to R111; 03; 09) -/

/-- 04 R109, Table 4.8: a conditional branch goes to PC + 4 × displacement when its condition holds, else on; but for what the predictor keeps it
changes nothing. `BEQ` and `BNE` are claimed for words that need no healing, `BCLS` for a tag whose class the table of classes answers at once. 04
R109: jumps and calls. A call leaves the next address in g30 as a `CODE` word of colour 0; a register target is a good `CODE` pointer or, in system
mode, an aligned `FIXNUM` or `BYTES` address; ga = 0 of `RET` selects g30. -/
def Obligations.BranchesAndCalls : Prop :=
  (∀ (c : CoreId) (ga gb : Reg) (d11 : BitVec 11) (d16 : BitVec 16) (d8 t8 : BitVec 8) (n : BitVec 3) (m : Nat)
    (s s1 s2 : State),
  let k := getCore s1 c
  let x := opnd s1 c ga
  let y := opnd s1 c gb
  let Goes (i : Instr) (taken : Prop) (disp : W64) (u : State) : Prop := Takes c i s s1 → ∃ p,
    let v := modCore u c fun k => { k with pred := p }
    (taken → exec i s = .next (advanced c i { next := some (va48 (k.pc + disp * 4)) } v)) ∧ (¬ taken → exec i s = .next (advanced c i {} v))
  (plainWord x = true →
    Goes (.bnil c ga d16) (x = ⟨0x03, 0⟩) (d16.signExtend 64) s1 ∧ Goes (.bnnil c ga d16) (x ≠ ⟨0x03, 0⟩) (d16.signExtend 64) s1
    ∧ Goes (.bz c ga d16) (x.payload = 0) (d16.signExtend 64) s1 ∧ Goes (.bnz c ga d16) (x.payload ≠ 0) (d16.signExtend 64) s1
    ∧ (plainWord y = true →
      Goes (.bltf c ga gb d11) (x.payload.toInt < y.payload.toInt) (d11.signExtend 64) s1
      ∧ Goes (.bgef c ga gb d11) (y.payload.toInt ≤ x.payload.toInt) (d11.signExtend 64) s1
      ∧ (stale k x = false → stale k y = false →
        Goes (.beq c ga gb d11) (same x y = true) (d11.signExtend 64) s1 ∧ Goes (.bne c ga gb d11) (same x y = false) (d11.signExtend 64) s1)))
  ∧ Goes (.btag c ga t8 d8) (x.tag = t8) (d8.signExtend 64) s1 ∧ Goes (.bntag c ga t8 d8) (x.tag ≠ t8) (d8.signExtend 64) s1
  ∧ ((tagClass c x.tag).run s1 = .ok m s2 → unwritten k (getCore s2 c) → Goes (.bcls c ga n d16) (m = n.toNat) (d16.signExtend 64) s2))
  ∧ (∀ (c : CoreId) (ga : Reg) (disp : BitVec 26) (s s1 : State),
  let k := getCore s1 c
  let Goes (i : Instr) (target : W64) (call : Bool) : Prop := Takes c i s s1 → ∃ p, exec i s = .next (advanced c i { next := some (va48 target) }
    (modCore (if call then withReg c 30 ⟨0x89, va48 (k.pc + 4)⟩ s1 else s1) c fun k => { k with pred := p }))
  let target (w : Word) : Prop := (isPtr w.tag = true ∧ ptype w.tag = 0x09 ∧ isFar w.tag = false ∧ wellFormed w = true ∧ stale k w = false)
    ∨ (isSys k = true ∧ (w.tag = 0x00 ∨ w.tag = 0x06) ∧ w.payload.toNat % 4 = 0)
  Goes (.jmp c disp) (k.pc + disp.signExtend 64 * 4) false ∧ Goes (.call c disp) (k.pc + disp.signExtend 64 * 4) true
  ∧ (target (opnd s1 c ga) → Goes (.jr c ga) (opnd s1 c ga).payload false ∧ Goes (.callr c ga) (opnd s1 c ga).payload true)
  ∧ (target (opnd s1 c (if ga = 0 then 30 else ga)) → Goes (.ret c ga) (opnd s1 c (if ga = 0 then 30 else ga)).payload false))

/-- 03 R66, R67: in system mode `MFC` delivers the register; a user reads only those of Table 3.3 that are open to it and otherwise raises vector
`0x03`. 03 R66 to R70, Table 3.4: what `MTC` in system mode writes, register by register, each with the bits that it holds: the exception, address,
heap, dispatch, alarm and count registers; `GOODCOL` does not take 0; a tagged register takes any word; a count register that is written does not
count the instruction. It is taken for no number but those of Table 3.4 that it may write. In user mode `MTC` of a register other than `STATUS`
raises vector `0x03`. 03 R71, R73: `MTC` of `STATUS` writes the `RW` fields in system mode and the user fields in user mode; `MFC` shows the new
value at once, and the old one stays in force until three more instructions have ended, of which none writes `STATUS`. -/
def Obligations.ControlRegisters : Prop :=
  (∀ (c : CoreId) (gd : Reg) (n : BitVec 12) (s s1 : State),
  Takes c (.mfc c gd n) s s1 →
  let k := getCore s1 c
  (isSys k = true ∨ userReadable.contains n.toNat = true →
    exec (.mfc c gd n) s = .next (advanced c (.mfc c gd n) {} (withReg c gd (ctlRead s1 c n.toNat) s1)))
  ∧ (isSys k = false → userReadable.contains n.toNat = false →
    exec (.mfc c gd n) s = .next (raiseAt c
      { vec := 0x03, sub := 0, epc := k.pc, eaddr := 0, einfo := einfoWord (.mfc c gd n), impr := false, inrep := false } s1)))
  ∧ (∀ (c : CoreId) (ga : Reg) (n : BitVec 12) (s s1 : State),
  let k := getCore s1 c
  let w := opnd s1 c ga
  let v := w.payload
  let i : Instr := .mtc c n ga
  let Puts (f : Core → Core) : Prop := exec i s = .next (advanced c i {} (modCore s1 c f))
  let b := if k.bw.dspw && isSys k then Fin.ofNat 8 k.bw.bank.toNat else ipl k
  let written : List Nat := List.range 7 ++ [8, 9, 10, 11, 12, 13, 14, 15, 0x010, 0x011, 0x012, 0x020, 0x022] ++ (List.range 5).map (0x030 + ·)
    ++ (List.range 6).map (0x040 + ·) ++ [0x051, 0x052, 0x053, 0x054, 0x060, 0x061]
  Takes c i s s1 →
  (isSys k = true → plainWord w = true →
    (n = 0x001 → Puts fun k => { k with exc := { k.exc with epc := v &&& 0xFFFFFFFFFFFC } })
    ∧ (n = 0x002 → Puts fun k => { k with exc := { k.exc with ecause := v &&& 0xFFFFF } })
    ∧ (n = 0x003 → Puts fun k => { k with exc := { k.exc with eaddr := v } })
    ∧ (n = 0x004 → Puts fun k => { k with exc := { k.exc with einfo := v } })
    ∧ (n = 0x005 → Puts fun k => { k with mmu := { k.mmu with dtbase := v &&& 0xFFFFFFFFE001 } })
    ∧ (n = 0x020 → Puts fun k => { k with mmu := { k.mmu with space := v &&& 0xFFF } })
    ∧ (n = 0x022 → Puts fun k => { k with mmu := { k.mmu with ptbase := v &&& 0xFFFFFFFF001 } })
    ∧ (n = 0x030 → Puts fun k => if v.toNat % 4 = 0 then k else { k with heap := { k.heap with goodcol := BitVec.ofNat 2 (v.toNat % 4) } })
    ∧ (n = 0x031 → Puts fun k => { k with heap := { k.heap with allocPtr := v &&& 0xFFFFFFFFFFF0 } })
    ∧ (n = 0x032 → Puts fun k => { k with heap := { k.heap with allocLim := v &&& 0xFFFFFFFFFFF0 } })
    ∧ (n = 0x033 → Puts fun k => { k with heap := { k.heap with rlogPtr := v &&& 0xFFFFFFFFFFF8 } })
    ∧ (n = 0x034 → Puts fun k => { k with heap := { k.heap with rlogLim := v &&& 0xFFFFFFFFFFF8 } })
    ∧ (n = 0x040 → Puts fun k => { k with heap := { k.heap with dispatchBase := v &&& 0xFFFFFFFFFFC0 } })
    ∧ (n = 0x041 → Puts fun k => { k with heap := { k.heap with tclassBase := v &&& 0xFFFFFFFFFFC0 } })
    ∧ (n = 0x044 → Puts fun k => modBank k b fun x => { x with dspOp := v &&& 0x1F1F })
    ∧ (n = 0x045 → Puts fun k => modBank k b fun x => { x with dretPc := v &&& 0xFFFFFFFFFFFC })
    ∧ (∀ a : Fin 4, n.toNat = 0x051 + a.val → Puts fun k => { k with alarm := k.alarm.set a.val (v &&& 0x7FFFFFFFFFFFFFFF) })
    ∧ (n = 0x060 → exec i s = .next (advanced c i { count := 0 } (modCore s1 c fun k => { k with cycles := v })))
    ∧ (n = 0x061 → exec i s = .next (advanced c i { count := 0 } (modCore s1 c fun k => { k with instret := v }))))
  ∧ written.contains n.toNat = true
  ∧ (isSys k = true →
    (n = 0x006 → Puts fun k => { k with mmu := { k.mmu with ssp := w } })
    ∧ (∀ a : Fin 8, n.toNat = 0x008 + a.val → Puts fun k => { k with mmu := { k.mmu with lsp := k.mmu.lsp.set a.val w } })
    ∧ (n = 0x042 → Puts fun k => modBank k b fun x => { x with dspA := w }) ∧ (n = 0x043 → Puts fun k => modBank k b fun x => { x with dspB := w }))
  ∧ (isSys k = false → n ≠ 0x000 → exec i s = .next (raiseAt c
      { vec := 0x03, sub := 0, epc := k.pc, eaddr := 0, einfo := einfoWord i, impr := false, inrep := false } s1)))
  ∧ (∀ (c : CoreId) (ga : Reg) (s s1 : State),
  let k := getCore s1 c
  let i : Instr := .mtc c 0 ga
  let m : W64 := if isSys k then 0x3FFF0 else 0x1B860
  let v := (k.st.newest &&& ~~~m) ||| ((opnd s1 c ga).payload &&& m)
  plainWord (opnd s1 c ga) = true → Takes c i s s1 →
  exec i s = .next (advanced c i { status := some v } s1)
    ∧ (stDET k = false → (getCore (advanced c i { status := some v } s1) c).st = { newest := v, force := k.st.force, shadow := [(3, v)] })
    ∧ (∀ a : Core, a.st = { newest := v, force := k.st.force, shadow := [(3, v)] } →
        (ageShadow a).st = { newest := v, force := k.st.force, shadow := [(2, v)] }
        ∧ (ageShadow (ageShadow a)).st = { newest := v, force := k.st.force, shadow := [(1, v)] }
        ∧ (ageShadow (ageShadow (ageShadow a))).st = { newest := v, force := v, shadow := [] }))

/-- 03 R77, R78: `MFB` and `MTB` reach a register of the bank that `BANKWIN` names, in system mode. A write of `BANKWIN` by `MTC` sets the bank and the
dispatch window, and its set and clear bits, where they differ, the dispatch-busy flag of that bank; the rows that set and clear it are such writes.
09 R247, R248: a write of `IROUTE` selects a source and, with `WR` set, routes one from `0x40` on to a level; a write of `IPEND` sets software
interrupts, then clears software and alarm interrupts. The rows that do so are such writes. -/
def Obligations.BankWindowAndInterrupts : Prop :=
  (∀ (c : CoreId) (gd r ga : Reg) (s s1 : State),
  let k := getCore s1 c
  let b : Fin 8 := Fin.ofNat 8 k.bw.bank.toNat
  let v := (opnd s1 c ga).payload
  let Puts (i : Instr) : Prop := Takes c i s s1 → exec i s = .next (advanced c i {} (modCore s1 c fun k =>
    let k := { k with bw := { bank := BitVec.ofNat 3 (v.toNat % 8), dspw := v.getLsbD 3 } }
    if v.getLsbD 5 = v.getLsbD 6 then k else modBank k (Fin.ofNat 8 (v.toNat % 8)) fun x => { x with dbusy := v.getLsbD 5 }))
  (isSys k = true →
    (Takes c (.mfb c gd r) s s1 → exec (.mfb c gd r) s = .next (advanced c (.mfb c gd r) {} (withReg c gd (regOf k b r) s1)))
    ∧ (Takes c (.mtb c r ga) s s1 →
        exec (.mtb c r ga) s = .next (advanced c (.mtb c r ga) {} (modCore s1 c fun k => setRegOf k b r (opnd s1 c ga))))
    ∧ (plainWord (opnd s1 c ga) = true → Puts (.mtc c 0x010 ga)
      ∧ (opnd s c ga = opnd s1 c ga → (v.getLsbD 5 = true → Puts (.wdset c ga)) ∧ (v.getLsbD 6 = true → Puts (.wdclr c ga)))))
  ∧ (isSys k = false → Takes c (.mfb c gd r) s s1 → exec (.mfb c gd r) s = .next (raiseAt c
      { vec := 0x03, sub := 0, epc := k.pc, eaddr := 0, einfo := einfoWord (.mfb c gd r), impr := false, inrep := false } s1))
  ∧ (isSys k = false → Takes c (.mtb c r ga) s s1 → exec (.mtb c r ga) s = .next (raiseAt c
      { vec := 0x03, sub := 0, epc := k.pc, eaddr := 0, einfo := einfoWord (.mtb c r ga), impr := false, inrep := false } s1)))
  ∧ (∀ (c : CoreId) (ga : Reg) (s s1 : State),
  let k := getCore s1 c
  let v := (opnd s1 c ga).payload
  let src := v.toNat % 256
  let Routes (i : Instr) : Prop := Takes c i s s1 → ∃ l,
    exec i s = .next (advanced c i {} (modCore s1 c fun k => { k with irq := { k.irq with src := BitVec.ofNat 8 src, level := l } }))
    ∧ (v.getLsbD 15 = true → 0x40 ≤ src → smGet 0 l src = BitVec.ofNat 3 (v.toNat / 256))
    ∧ (∀ m, m ≠ src ∨ v.getLsbD 15 = false ∨ src < 0x40 → smGet 0 l m = smGet 0 k.irq.level m)
  let Pends (i : Instr) : Prop := Takes c i s s1 → exec i s = .next (advanced c i {} (modCore s1 c fun k => { k with irq := { k.irq with
    swi := (k.irq.swi ||| v.extractLsb' 16 3) &&& ~~~(v.extractLsb' 20 3), alm := k.irq.alm &&& ~~~(v.extractLsb' 24 4) } }))
  isSys k = true → plainWord (opnd s1 c ga) = true → smWf 0 k.irq.level = true →
  Routes (.mtc c 0x012 ga) ∧ Pends (.mtc c 0x011 ga)
  ∧ (opnd s c ga = opnd s1 c ga →
    (v.getLsbD 15 = true → Routes (.irouteWr c ga)) ∧ (v.extractLsb' 16 3 ≠ 0 → Pends (.swi c ga)) ∧ (v.extractLsb' 20 3 ≠ 0 → Pends (.swclr c ga))))

/-- 09 R260: `SYSCALL` n takes vector `0x20` + n with `EPC` behind it, and `BRK` takes vector `0x17` with `EPC` at it. 04 R92, R111: `HALT` stops issue
in system mode, behind itself, and raises vector `0x03` in user mode. -/
def Obligations.SystemCallsAndHalt : Prop :=
  (∀ (c : CoreId) (n : BitVec 5) (m : BitVec 12) (s s1 : State),
  let k := getCore s1 c
  (Takes c (.syscall c n) s s1 → exec (.syscall c n) s = .next (raiseAt c
    { vec := 0x20 + n.setWidth 8, sub := 0, epc := va48 (k.pc + 4), eaddr := 0, einfo := va48 k.pc, impr := false, inrep := false } s1))
  ∧ (Takes c (.brk c m) s s1 → exec (.brk c m) s = .next (raiseAt c
    { vec := 0x17, sub := 0, epc := k.pc, eaddr := 0, einfo := m.setWidth 64, impr := false, inrep := false } s1)))
  ∧ (∀ (c : CoreId) (s s1 : State),
  Takes c (.halt c) s s1 →
  (isSys (getCore s1 c) = true → exec (.halt c) s = .next (advanced c (.halt c) {} (modCore s1 c fun k => { k with run := .halted })))
  ∧ (isSys (getCore s1 c) = false → exec (.halt c) s = .next (raiseAt c
    { vec := 0x03, sub := 0, epc := (getCore s1 c).pc, eaddr := 0, einfo := einfoWord (.halt c), impr := false, inrep := false } s1)))

/-- 09 R244: where the descriptor is good and the frame can be written, an exception leaves `EPC`, `ECAUSE`, `EADDR` and `EINFO`, the handler's
`STATUS`, g31 of the handler's bank below the frame, and the PC at the handler. 09 R250: `RETX` without a numeric frame and with interrupts off in
the restored `STATUS` restores PC, `STATUS` and g31 from the frame; in user mode it raises vector `0x03`. -/
def Obligations.ExceptionsEnterAndReturn : Prop :=
  (∀ (c : CoreId) (e : ExcArgs) (s s1 s2 : State) (d0 d1 : Word),
  let s0 := modCore (clearMicro s c) c fun k => { k with wait := none, replay := Replay.reset }
  let k := getCore s0 c
  let level : Nat := if 0x40 ≤ e.vec.toNat then (smGet 0 k.irq.level e.vec.toNat).toNat else max (fld d0.payload 1 3) (ipl k).val
  let lv : Fin 8 := Fin.ofNat 8 level
  let here := regOf k (ipl k) 31
  let stk := fld d0.payload 5 2
  let b := if stk = 0 then here else if stk = 1 then (if lv = ipl k then here else k.mmu.lsp.get lv) else (if isSys k then here else k.mmu.ssp)
  let f := (b.payload - 48) &&& ~~~15
  let nul := bit d0.payload 7
  let cause := causeWord e.vec e.sub e.impr e.inrep (!k.st.shadow.isEmpty) false
  let frame := [(f, bytesW (va48 e.epc)), (f + 8, bytesW (statusShown k)), (f + 16, bytesW (setFld cause 56 8 (regOf k lv 31).tag.toNat)),
    (f + 24, bytesW e.eaddr), (f + 32, bytesW e.einfo), (f + 40, bytesW (regOf k lv 31).payload)]
  bit k.mmu.dtbase 0 = true → k.micro.table = [] → (readDescriptor c e.vec).run s0 = .ok (d0, d1) s1 → archCore (getCore s1 c) = archCore k →
  descriptorOk d0 d1 = true → plainWord b = true →
  (writeFrame c (!bit d0.payload 4) (frame ++ if nul then [(f - 8, bytesW 0)] else [])).run s1 = .ok () s2 →
  (getCore s2 c).banks = k.banks → (getCore s2 c).st = k.st → (getCore s2 c).irq = k.irq →
  let t := getCore (takeException c e s) c
  t.pc = d1.payload ∧ t.run = .running ∧ t.wait = none
    ∧ t.exc = { epc := va48 e.epc &&& ~~~3, ecause := cause, eaddr := e.eaddr, einfo := e.einfo }
    ∧ t.st = { newest := handlerStatus k.st.newest d0.payload level, force := handlerStatus k.st.newest d0.payload level, shadow := [] }
    ∧ regOf t lv 31 = ⟨b.tag, if nul then f - 1040 else f⟩
    ∧ (∀ (l : Fin 8) (r : Reg), l ≠ lv ∨ r ≠ 31 → regOf t l r = regOf k l r)
    ∧ t.sq = (getCore s2 c).sq ∧ (takeException c e s).dram = s2.dram)
  ∧ (∀ (c : CoreId) (s s1 s2 : State) (w0 w1 w2 w3 w4 w5 : W64),
  let k := getCore s1 c
  Takes c (.retx c) s s1 →
  (isSys k = true → stNUL k = false → k.micro.table = [] → (readFrameWords c (gread k 31).payload 6).run s1 = .ok [w0, w1, w2, w3, w4, w5] s2 →
    archCore (getCore s2 c) = archCore k → bit w1 4 = false →
    ∃ t, exec (.retx c) s = .next (advanced c (.retx c) { next := some (va48 w0 &&& ~~~3) } t)
      ∧ (getCore t c).st = { newest := w1 &&& 0x3FFFF, force := w1 &&& 0x3FFFF, shadow := [] }
      ∧ regOf (getCore t c) (ipl k) 31 = ⟨BitVec.ofNat 8 (w2.toNat / 2 ^ 56), w5⟩
      ∧ (∀ (l : Fin 8) (r : Reg), l ≠ ipl k ∨ r ≠ 31 → regOf (getCore t c) l r = regOf k l r)
      ∧ t.dram = s2.dram ∧ (getCore t c).exc = k.exc ∧ (getCore t c).sq = (getCore s2 c).sq ∧ (getCore t c).instret = k.instret)
  ∧ (isSys k = false → exec (.retx c) s = .next (raiseAt c
      { vec := 0x03, sub := 0, epc := k.pc, eaddr := 0, einfo := einfoWord (.retx c), impr := false, inrep := false } s1)))

/-- 09 R261, R249, 18 R424: at the boundary of a running core the stop for a phase flip or a snapshot comes first, then a pending machine check, and an
interrupt that is admitted where no report or single step is pending either; each entry is the shared one, with `EPC` at the next instruction. With
nothing due the core is left as it is. 09 R249: the interrupt that is taken is routed above `IPL`, no pending source is routed higher, and none of
its level has a lower vector. -/
def Obligations.BoundaryEvents : Prop :=
  (∀ (c : CoreId) (s : State),
  let k := getCore s c
  let e (v sub : Byte) (a i : W64) : ExcArgs := { vec := v, sub := sub, epc := k.pc, eaddr := a, einfo := i, impr := false, inrep := false }
  k.run = .running → k.wait = none → k.pend.stop = false → k.longs = [] →
  (stopDue k = true → exec (.interruptEntry c) s = .next (stopCore c s)) ∧ (stopDue k = false →
  (∀ m, k.pend.mc = some m → exec (.machineCheck c .pending) s
      = .next (takeException c (e 0x00 m.sub m.eaddr m.einfo) (modCore s c fun k => { k with pend := { k.pend with mc := none } })))
  ∧ (∀ m, k.pend.mc = some m → exec (.interruptEntry c) s
      = .next (takeException c (e 0x00 m.sub m.eaddr m.einfo) (modCore s c fun k => { k with pend := { k.pend with mc := none } })))
  ∧ (∀ v l, k.pend.mc = none → k.pend.reports = [] → k.pend.step = none → admitted s c = some (v, l) →
      exec (.interruptEntry c) s = .next (takeException c (e (BitVec.ofNat 8 v) 0 0 0) s))
  ∧ (k.pend.mc = none → k.pend.reports = [] → k.pend.step = none → admitted s c = none → exec (.interruptEntry c) s = .next s)))
  ∧ (∀ (c : CoreId) (s : State) (v l : Nat),
  let k := getCore s c
  smWf 0 k.irq.level = true → admitted s c = some (v, l) →
  stIE k = true ∧ (ipl k).val < l ∧ (smGet 0 k.irq.level v).toNat = l ∧ srcPending s c v = true
    ∧ (∀ u, srcPending s c u = true → (smGet 0 k.irq.level u).toNat < l ∨ ((smGet 0 k.irq.level u).toNat = l ∧ v ≤ u)))

/-- 04 R90, 09 R254: a word that decodes to no instruction raises vector `0x02` at its own address, with the word in `EINFO`. -/
def Obligations.IllegalWords : Prop := ∀ (c : CoreId) (w nextw : BitVec 32) (sub : Byte) (s s0 s1 : State),
  illegalOf w nextw = some (sub, w, false) → admission c (.fenceL c) s = .ready s0 → (getCore s0 c).micro.run = none →
  w.toNat / 2 ^ 26 ≠ 0x01 → (fetchCheck c (getCore s0 c).pc).run s0 = .ok () s1 → (getCore s1 c).pc = (getCore s0 c).pc →
  exec (.illegalInstruction c w nextw) s = .next (raiseAt c
    { vec := 0x02, sub := sub, epc := (getCore s0 c).pc, eaddr := 0, einfo := w.setWidth 64, impr := false, inrep := false } s1)

/-- 11 R304, R305: `INVTLB` performs the core's stores and drops every entry of its TLBs that matches the selector; `INVTLB.B` queues a broadcast to
every core of the compartment that runs and waits. A target drops its matches, performs its stores and acknowledges; when every target that is left
is held or locked up, the engines drop theirs, the broadcast ends and the instruction completes. -/
def Obligations.TlbInvalidation : Prop := ∀ (c : CoreId) (ga : Reg) (sel : BitVec 2) (s s1 : State) (b : Broadcast),
  let k := getCore s1 c
  let v : W64 := if sel.toNat < 2 then (opnd s1 c ga).payload else 0
  let u := drainAll s1 c
  let d := getCore u c
  let here := getCore s c
  let i : Instr := .invtlb c ga sel
  let j : Instr := .invtlbB c ga sel
  (∀ (t : Tlbs) (m : TlbEntry → Bool) (x : Nat × TlbEntry), (x ∈ (tlbDrop t m).itlb ↔ x ∈ t.itlb ∧ m x.2 = false)
    ∧ (x ∈ (tlbDrop t m).dtlb ↔ x ∈ t.dtlb ∧ m x.2 = false) ∧ (x ∈ (tlbDrop t m).stlb ↔ x ∈ t.stlb ∧ m x.2 = false))
  ∧ (isSys k = true → (sel.toNat < 2 → plainWord (opnd s1 c ga) = true) → unacked u c = false →
    (Takes c i s s1 → exec i s = .next (advanced c i {} (modCore u c fun k =>
        { k with tlb := tlbDrop k.tlb (invMatch sel d.compart (d.mmu.space.setWidth 12) v) })))
    ∧ (Takes c j s s1 → exec j s = .next (waiting c .invtlb j { u with bcast := u.bcast ++ [(d.compart,
        { core := c, sel := sel, va := v, sid := d.mmu.space.setWidth 12, toReach := invTargets u d.compart, toAck := invTargets u d.compart })] })))
  ∧ (servedBcast s here.compart = some b →
    (b.toReach.contains c = true →
      let t := drainAll (modCore s c fun k => { keepTlb k with tlb := tlbDrop k.tlb (invMatch b.sel here.compart b.sid b.va) }) c
      exec (.invtlbBArrival c) s = .next { t with bcast := modBcast here.compart (fun b =>
        { b with toReach := b.toReach.filter (· != c), toAck := b.toAck.filter (· != c) }) t.bcast })
    ∧ (b.core = c → (∀ x ∈ b.toAck, (getCore s x).run = .held ∨ (getCore s x).run = .locked) → isSys here = true → stSSTEP here = false →
      here.micro.run = none → here.st.shadow = [] → here.wait = some { what := .invtlb, resume := .instr j } →
      exec (.invtlbBComplete c) s = .next (advanced c j {} (modCore (invEngines { s with bcast := dropBcast here.compart s.bcast } here.compart b) c
        fun k => { k with wait := none }))))

/-- 08 R216 to R218: `RDT` delivers `TICK`; `WAITT` goes on once the tick is reached and waits until then; `ARMT` arms an alarm that is the core's to
arm, and raises vector `0x03` for one that is not; the alarm fires once its tick is reached, pending its interrupt. -/
def Obligations.TimeInstructions : Prop := ∀ (c : CoreId) (gd ga : Reg) (n : Fin 4) (s s1 : State),
  let k := getCore s1 c
  let w := opnd s1 c ga
  let now := tickOf s1 (clusterOf c)
  let a := k.alarm.get n
  let wt : Instr := .waitt c ga
  let ar : Instr := .armt c ga n
  (Takes c (.rdt c gd) s s1 → exec (.rdt c gd) s = .next (advanced c (.rdt c gd) {} (withReg c gd ⟨0x00, now⟩ s1)))
  ∧ (plainWord w = true →
    (Takes c wt s s1 → (w.payload.toNat ≤ now.toNat → exec wt s = .next (advanced c wt {} s1))
      ∧ (now.toNat < w.payload.toNat → exec wt s = .next (waiting c (.tick w.payload) wt s1)))
    ∧ (Takes c ar s s1 →
      (isSys k = true ∨ a.getLsbD 61 = true → ∃ v : W64,
        exec ar s = .next (advanced c ar {} (modCore s1 c fun k => { k with alarm := k.alarm.set n.val v }))
        ∧ v.toNat % 2 ^ 60 = w.payload.toNat % 2 ^ 60 ∧ v.getLsbD 60 = true ∧ v.getLsbD 61 = a.getLsbD 61 ∧ v.getLsbD 62 = false)
      ∧ (isSys k = false → a.getLsbD 61 = false → exec ar s = .next (raiseAt c
          { vec := 0x03, sub := 0x10, epc := k.pc, eaddr := 0, einfo := 0, impr := false, inrep := false } s1))))
  ∧ (∀ t : W64, (getCore s c).wait = some { what := .tick t, resume := .instr wt } → plainWord (opnd s c ga) = true →
      (opnd s c ga).payload = t → t.toNat ≤ (tickOf s (clusterOf c)).toNat → (getCore s c).micro.run = none → stSSTEP (getCore s c) = false →
      (getCore s c).st.shadow = [] → takeDue c s = none →
      exec (.waittExpiry c) s = .next (advanced c wt {} (modCore s c fun k => { k with wait := none })))
  ∧ (((getCore s c).alarm.get n).getLsbD 60 = true → ((getCore s c).alarm.get n).toNat % 2 ^ 60 ≤ (tickOf s (clusterOf c)).toNat % 2 ^ 60 →
      ∃ u, exec (.alarmFire c n) s = .next u ∧ ((getCore u c).alarm.get n).getLsbD 60 = false ∧ ((getCore u c).alarm.get n).getLsbD 62 = true
        ∧ (getCore u c).irq.alm.getLsbD n.val = true ∧ (getCore u c).banks = (getCore s c).banks)

/-- 08 R220, Table 8.6: what the group instructions do by the state of the member: `BARW`, `BCST` and `RDUC` join an idle operation and wait, wait in
one that they have joined, and take the result of one that is done; `BARA` joins and goes on; `BART` delivers the state. A mismatch and a failed
group raise vector `0x05`. A group may be used by the cores of its compartment that it lists, in user mode only where it allows it. Otherwise the
instruction raises vector `0x03` with subcode `0x11` and the group in `EINFO`, and changes nothing. 08 R222, R226, R227, R234: an operation
completes when every member has arrived: the members become `DONE` with the combined word, or `MISMATCH`; a message of another device is its
arrival. -/
def Obligations.GroupInstructions : Prop :=
  (∀ (c : CoreId) (gd ga gb : Reg) (f : BitVec 3) (s s1 : State),
  let k := getCore s1 c
  let w := opnd s1 c ga
  let g : GroupId := Fin.ofNat 64 (w.payload.toNat % 64)
  let m := memberOf s1 g c.val
  let idle := setMemberSt s1 g c.val .idle
  let Ends (i : Instr) (u : State) : Prop := exec i s = .next (advanced c i {} u)
  let Joins (i : Instr) (a : GroupArrival) (got : State) : Prop := Takes c i s s1 →
    (m.st = .idle → exec i s = .next (waiting c (.group g) i (joinGroup s1 g c.val a)))
    ∧ (m.st = .arrived → exec i s = .next (waiting c (.group g) i s1)) ∧ (m.st = .done → Ends i got)
  let Faults (i : Instr) : Prop := Takes c i s s1 → ∀ sub : Byte, ∀ u, (m.st = .mismatch ∧ sub = 0x11 ∧ u = idle) ∨ (m.st = .failed ∧ sub = 0x10 ∧ u = s1) →
    exec i s = .next (raiseAt c
      { vec := 0x05, sub := sub, epc := k.pc, eaddr := 0, einfo := BitVec.ofNat 64 g.val, impr := false, inrep := false } u)
  plainWord w = true →
  (mayUse s1 c g = true →
    Joins (.barw c ga) { kind := some .barrier, senders := 0, word := ⟨0x00, 0⟩ } idle ∧ Faults (.barw c ga)
    ∧ Joins (.bcst c gd ga gb)
        { kind := some .broadcast, senders := (w.payload.getLsbD 6).toNat, word := if w.payload.getLsbD 6 then opnd s1 c gb else ⟨0x00, 0⟩ }
        (withReg c gd m.latch idle) ∧ Faults (.bcst c gd ga gb)
    ∧ (plainWord (opnd s1 c gb) = true → Joins (.rduc c gd ga gb f)
        { kind := some (.reduce (Fin.ofNat 5 f.toNat)), senders := 0, word := ⟨0x00, (opnd s1 c gb).payload⟩ } (withReg c gd m.latch idle) ∧ Faults (.rduc c gd ga gb f))
    ∧ (Takes c (.bara c ga) s s1 → (m.st = .arrived → Ends (.bara c ga) s1)
      ∧ (m.st = .idle ∨ m.st = .done → Ends (.bara c ga) (joinGroup s1 g c.val { kind := some .barrier, senders := 0, word := ⟨0x00, 0⟩ })))
    ∧ Faults (.bara c ga)
    ∧ (Takes c (.bart c gd ga) s s1 → let Tells (n : W64) (u : State) : Prop := Ends (.bart c gd ga) (withReg c gd ⟨0x00, n⟩ u)
      (m.st = .idle → Tells 0 s1) ∧ (m.st = .arrived → Tells 1 s1) ∧ (m.st = .done → Tells 2 idle) ∧ (m.st = .failed → Tells 3 s1)
      ∧ (m.st = .mismatch → Tells 4 idle)))
  ∧ (mayUse s1 c g = true ↔ (groupOf s1 g).valid = true ∧ (groupOf s1 g).compart = k.compart ∧ (groupOf s1 g).cores.getLsbD c.val = true
      ∧ (isSys k = true ∨ (groupOf s1 g).user = true))
  ∧ (mayUse s1 c g = false →
    let Denied (i : Instr) : Prop := Takes c i s s1 → exec i s = .next (raiseAt c
      { vec := 0x03, sub := 0x11, epc := k.pc, eaddr := 0, einfo := BitVec.ofNat 64 g.val, impr := false, inrep := false } s1)
    Denied (.barw c ga) ∧ Denied (.bara c ga) ∧ Denied (.bart c gd ga) ∧ Denied (.bcst c gd ga gb)
      ∧ (plainWord (opnd s1 c gb) = true → Denied (.rduc c gd ga gb f))))
  ∧ (∀ (g : GroupId) (d : DevId) (a : GroupArrival) (x y : CoreId) (mx my : Member) (f : Fin 5) (s : State),
  let e := groupOf s g
  e.valid = true → e.failed = false → smSorted s.weir.members = true →
  ((otherDevs s e).contains (BitVec.ofFin d) = true → (memberOf s g (144 + d.val)).st ≠ .arrived →
    exec (.groupMessage g d a) s = .next (setMember s g (144 + d.val)
      { st := .arrived, kind := a.kind, senders := a.senders, contrib := a.word, latch := ⟨0x00, 0⟩ }))
  ∧ (x ≠ y → ownKeys e = [x.val, y.val] → e.engmask = 0 → e.devmask = bvSet 0 s.devid.toNat true → memberOf s g x.val = mx → memberOf s g y.val = my →
    mx.st = .arrived → my.st = .arrived → (∀ c, waitOf s c ≠ some (.group g)) →
    ∃ t, exec (.groupOperationComplete g) s = .next t
      ∧ (mx.kind = some .barrier → my.kind = some .barrier →
          memberOf t g x.val = { mx with st := .done } ∧ memberOf t g y.val = { my with st := .done })
      ∧ (mx.kind = some (.reduce f) → my.kind = some (.reduce f) →
          memberOf t g x.val = { mx with st := .done, latch := ⟨0x00, reduce f mx.contrib.payload my.contrib.payload⟩ }
          ∧ memberOf t g y.val = { my with st := .done, latch := ⟨0x00, reduce f mx.contrib.payload my.contrib.payload⟩ })
      ∧ (mx.kind = some .broadcast → my.kind = some .broadcast → mx.senders = 1 → my.senders = 0 →
          memberOf t g y.val = { my with st := .done, latch := mx.contrib })
      ∧ (mx.kind = some .barrier → my.kind = some .broadcast →
          memberOf t g x.val = { mx with st := .mismatch } ∧ memberOf t g y.val = { my with st := .mismatch }))
  ∧ (groupReady s g = false → exec (.groupOperationComplete g) s = .next s))

/-! ## The numeric unit (05 R150 to R153, 04 R93) -/

/-- 05 R152, 10 R274: a lane operation is delivered when it completes: the four lanes, and the IEEE flags added to `NFL`. Lanes whose result is a NaN
are not claimed here: the spec does not state their bits. 05 R124, R152: integers below 2 to the 52nd convert to binary64 and back unchanged, and
their sums are exact, in every rounding mode and without a flag. -/
def Obligations.NumericLanes : Prop :=
  (∀ (c : CoreId) (vd va vb : Reg) (s s1 : State),
  let k := getCore s1 c
  let rm := stRM k
  let x := k.v.get va
  let y := k.v.get vb
  let z := k.v.get vd
  let lanes (f : Nat → W64) : BitVec 256 := BitVec.ofNat 256
    ((f 0).toNat + (f 1).toNat * 2 ^ 64 + (f 2).toNat * 2 ^ 128 + (f 3).toNat * 2 ^ 192)
  let at_ (v : BitVec 256) (l : Nat) : W64 := (v >>> (64 * l)).setWidth 64
  let Delivers (i : Instr) (v : BitVec 256) (fl : BitVec 5) : Prop := Takes c i s s1 →
    ∃ t, exec i s = .next t ∧ (getCore t c).v = k.v ∧ (getCore t c).banks = k.banks ∧ (getCore t c).pc = va48 (k.pc + 4)
      ∧ exec (.longOperationComplete c) t = .next (modCore (advanced c i {} s1) c fun k =>
          { k with v := k.v.set vd.val v vd.isLt, nfl := k.nfl ||| fl.setWidth 64 })
  let Exact (i : Instr) (f : Nat → FOut) : Prop := (∀ l < 4, (f l).nan = false) →
    Delivers i (lanes fun l => (f l).bits) ((f 0).flags.bits ||| (f 1).flags.bits ||| (f 2).flags.bits ||| (f 3).flags.bits)
  bit k.st.force 9 = true → k.longs = [] → stPRECISE k = false → stDET k = false →
  Exact (.vaddD c vd va vb) (fun l => fAdd rm (at_ x l) (at_ y l)) ∧ Exact (.vsubD c vd va vb) (fun l => fSub rm (at_ x l) (at_ y l))
  ∧ Exact (.vmulD c vd va vb) (fun l => fMul rm (at_ x l) (at_ y l)) ∧ Exact (.vdivD c vd va vb) (fun l => fDiv rm (at_ x l) (at_ y l))
  ∧ Exact (.vfmaD c vd va vb) (fun l => fFma rm (at_ x l) (at_ y l) (at_ z l)) ∧ Exact (.vsqrtD c vd va) (fun l => fSqrt rm (at_ x l))
  ∧ Exact (.vcvtLd c vd va) (fun l => fOfInt rm (at_ x l).toInt)
  ∧ ((∀ l < 4, fIsNan (at_ x l) = false ∧ fIsNan (at_ y l) = false) →
      Delivers (.vminD c vd va vb) (lanes fun l => if fLess (at_ x l) (at_ y l) || (fEqual (at_ x l) (at_ y l) && bit (at_ x l) 63 && !bit (at_ y l) 63) then at_ x l else at_ y l) 0
      ∧ Delivers (.vmaxD c vd va vb) (lanes fun l => if fLess (at_ x l) (at_ y l) || (fEqual (at_ x l) (at_ y l) && bit (at_ x l) 63 && !bit (at_ y l) 63) then at_ y l else at_ x l) 0
      ∧ Delivers (.vcmpltD c vd va vb) (lanes fun l => if fLess (at_ x l) (at_ y l) then 0xFFFFFFFFFFFFFFFF else 0) 0
      ∧ Delivers (.vcmpeqD c vd va vb) (lanes fun l => if fEqual (at_ x l) (at_ y l) then 0xFFFFFFFFFFFFFFFF else 0) 0)
  ∧ Delivers (.vcvtDl c vd va) (lanes fun l => (fToInt rm (at_ x l)).1)
      ((fToInt rm (at_ x 0)).2.bits ||| (fToInt rm (at_ x 1)).2.bits ||| (fToInt rm (at_ x 2)).2.bits ||| (fToInt rm (at_ x 3)).2.bits)
  ∧ Delivers (.vaddL c vd va vb) (lanes fun l => at_ x l + at_ y l) 0 ∧ Delivers (.vsubL c vd va vb) (lanes fun l => at_ x l - at_ y l) 0
  ∧ Delivers (.vmulL c vd va vb) (lanes fun l => at_ x l * at_ y l) 0
  ∧ Delivers (.vand c vd va vb) (x &&& y) 0 ∧ Delivers (.vor c vd va vb) (x ||| y) 0 ∧ Delivers (.vxor c vd va vb) (x ^^^ y) 0)
  ∧ (∀ (rm : BitVec 2) (a b : Int), a.natAbs < 2 ^ 52 → b.natAbs < 2 ^ 52 →
  (fOfInt rm a).flags = {} ∧ (fOfInt rm a).nan = false
    ∧ fToInt rm (fOfInt rm a).bits = (BitVec.ofInt 64 a, {})
    ∧ (a + b ≠ 0 → fAdd rm (fOfInt rm a).bits (fOfInt rm b).bits = fOfInt rm (a + b)))

/-- 05 R152, 04 R93: moves between the register files, the numeric flag word, and the trap of an unavailable unit (03 R81). 05 R150, R151, 10 R273: the
array instructions on a base without a header move four words of one tag, lane 0 at base + 8 × index; a store to one type of memory is one entry of
the store queue. -/
def Obligations.NumericMovesAndArrays : Prop :=
  (∀ (c : CoreId) (vd va gd ga : Reg) (l : Fin 4) (s s1 : State),
  let k := getCore s1 c
  let w := opnd s1 c ga
  let vreg (r : Reg) (v : BitVec 256) (u : State) : State := modCore u c fun k => { k with v := k.v.set r.val v r.isLt }
  let Delivers (i : Instr) (u : State) : Prop := Takes c i s s1 →
    ∃ t, exec i s = .next t ∧ (getCore t c).v = k.v ∧ (getCore t c).banks = k.banks ∧ exec (.longOperationComplete c) t = .next u
  k.longs = [] → stPRECISE k = false → stDET k = false →
  (bit k.st.force 9 = true →
    (w.tag = 0x00 ∨ w.tag = 0x01 ∨ w.tag = 0x06 →
      Delivers (.vins c vd ga l) (vreg vd (BitVec.ofNat 256 ((k.v.get vd).toNat % 2 ^ (64 * l.val) + w.payload.toNat * 2 ^ (64 * l.val)
          + (k.v.get vd).toNat / 2 ^ (64 * (l.val + 1)) * 2 ^ (64 * (l.val + 1)))) (advanced c (.vins c vd ga l) {} s1))
      ∧ Delivers (.vsplat c vd ga) (vreg vd (BitVec.ofNat 256 (w.payload.toNat * (1 + 2 ^ 64 + 2 ^ 128 + 2 ^ 192))) (advanced c (.vsplat c vd ga) {} s1)))
    ∧ Delivers (.vextF c gd va l) (withReg c gd ⟨0x01, ((k.v.get va) >>> (64 * l.val)).setWidth 64⟩ (advanced c (.vextF c gd va l) {} s1))
    ∧ Delivers (.vextL c gd va l) (withReg c gd ⟨0x00, ((k.v.get va) >>> (64 * l.val)).setWidth 64⟩ (advanced c (.vextL c gd va l) {} s1))
    ∧ (Takes c (.nrdf c gd) s s1 → exec (.nrdf c gd) s = .next (advanced c (.nrdf c gd) {} (withReg c gd ⟨0x00, k.nfl⟩ s1)))
    ∧ (plainWord w = true → Takes c (.nwrf c ga) s s1 → exec (.nwrf c ga) s = .next (advanced c (.nwrf c ga) {} (modCore s1 c fun k =>
        { k with nfl := (k.nfl &&& ~~~0x1F) ||| (w.payload &&& 0x1F) }))))
  ∧ (bit k.st.force 9 = false → stNUL k = false →
    let Traps (i : Instr) : Prop := Takes c i s s1 → exec i s = .next (raiseAt c
      { vec := 0x11, sub := 0, epc := k.pc, eaddr := 0, einfo := einfoWord i, impr := false, inrep := false } s1)
    Traps (.nrdf c gd) ∧ Traps (.nwrf c ga) ∧ Traps (.vsplat c vd ga)))
  ∧ (∀ (c : CoreId) (vd ga gb : Reg) (s s1 s2 s3 s4 s5 : State) (w0 w1 w2 w3 : Word) (x0 x1 x2 x3 : Xlat),
  let k := getCore s1 c
  let a := va48 ((opnd s1 c ga).payload + 8 * (opnd s1 c gb).payload)
  let at_ (n : W64) : W64 := va48 (a + 8 * n)
  let Loads (i : Instr) (t : Byte) : Prop := Takes c i s s1 → Reads c (at_ 0) s1 s2 w0 → Reads c (at_ 1) s2 s3 w1 → Reads c (at_ 2) s3 s4 w2 →
    Reads c (at_ 3) s4 s5 w3 → w0.tag = t → w1.tag = t → w2.tag = t → w3.tag = t →
    exec i s = .next (advanced c i {} (modCore s5 c fun k => { k with v := k.v.set vd.val (BitVec.ofNat 256
      (w0.payload.toNat + w1.payload.toNat * 2 ^ 64 + w2.payload.toNat * 2 ^ 128 + w3.payload.toNat * 2 ^ 192)) vd.isLt }))
  let word (x : Xlat) (t : Byte) (l : Nat) : WordWrite := wholeWord x ⟨t, ((k.v.get vd) >>> (64 * l)).setWidth 64⟩
  let Stores (i : Instr) (t : Byte) : Prop := Takes c i s s1 → StoresAt c (at_ 0) s1 s2 x0 → StoresAt c (at_ 1) s2 s3 x1 → StoresAt c (at_ 2) s3 s4 x2 →
    StoresAt c (at_ 3) s4 s5 x3 → s5.devid = s1.devid → s4.devid = s1.devid → s3.devid = s1.devid → s2.devid = s1.devid →
    x1.mt = x0.mt → x2.mt = x0.mt → x3.mt = x0.mt → ∃ r,
    exec i s = .next (advanced c i {} (queuedRun c x0 [word x0 t 0, word x1 t 1, word x2 t 2, word x3 t 3] (withAnswers c r s5)))
  bit k.st.force 9 = true → baseOk k (opnd s1 c ga) = true → isHeaded (opnd s1 c ga).tag = false → (opnd s1 c gb).tag = 0x00 → a.toNat % 8 = 0 →
  Loads (.vldF c vd ga gb) 0x01 ∧ Loads (.vldB c vd ga gb) 0x06 ∧ Stores (.vstF c vd ga gb) 0x01 ∧ Stores (.vstB c vd ga gb) 0x06)

/-! ## Memory and its events (02, 06, 12, 17) -/

/-- 06 R159, R161, R173, 10 R273, 12 R309: an answer reaches the core that waits for it, and its instruction runs again with it, unless a cause that
ends the wait is due and is taken; one that nothing waits for is dropped. The oldest line miss is carried out, and the oldest store to uncached
memory performed, and with none there nothing happens. -/
def Obligations.CoreAnswers : Prop := ∀ (c : CoreId) (i : Instr) (s : State) (t : W64) (n : Option W64) (pa : BitVec 44) (ok : Bool) (m : Miss)
    (rest : List Miss) (e : SqEntry) (r : List SqEntry),
  let k := getCore s c
  let u := { s with answers := [] }
  let Goes (ev : Instr) (f : Replay → Replay) (u : State) : Prop :=
    let v := withAnswers c (f k.replay) u
    (takeDue c v = none → exec ev s = .next (finish c i (bodyOf i) (modCore v c fun k =>
        { k with wait := none, replay := { k.replay with seen := 0 } })))
    ∧ (∀ w, takeDue c v = some w → exec ev s = .next w)
  let Waits (w : WaitFor) : Prop := k.wait = some { what := w, resume := .instr i }
  (Waits .markRoom → k.mark.length < 16 → Goes (.markBufferRoom c) id s)
  ∧ (s.answers = [(c, .fwd t n)] → (Waits (.forward t) → Goes (.forwardReply c) (fun r => { r with fwd := r.fwd ++ [(t, n)] }) u)
      ∧ (k.wait = none → k.micro.run = none → exec (.forwardReply c) s = .next u))
  ∧ (s.answers = [(c, .card pa ok)] →
      (Waits (.card pa) → Goes (.cardCheckReply c) (fun r => { r with cards := r.cards ++ [(pa.toNat / 512, ok)] }) u)
      ∧ (k.wait = none → k.micro.run = none → exec (.cardCheckReply c) s = .next u))
  ∧ (k.l1.miss = m :: rest → exec (.lineFill c ⟨.clean, none⟩) s = .next (doFill c m (modL1 s c fun l => { l with miss := rest })))
  ∧ (k.l1.miss = [] → exec (.lineFill c ⟨.clean, none⟩) s = .next s)
  ∧ (k.sq = e :: r → e.mt = .uncached → e.writes.all (fun w => localOk s k.compart w.pa) = true →
      exec (.storeQueueDrain c) s = .next (dramApply (modCore s c fun k => { k with sq := r }) e.writes))
  ∧ (k.sq = [] → exec (.storeQueueDrain c) s = .next s)

/-- 02 R56, R57: a word with one of its 80 bits wrong is delivered corrected, and written back so; check bits computed afresh find nothing wrong. 02
R55, R42: what is written to a word of DRAM is read from it, and a write keeps the canonical form of memory. -/
def Obligations.WordsAndTheirCheckBits : Prop :=
  (∀ (w : Word) (i : Nat) (j : Fin 8),
  syndrome (toDram w) = .clean
    ∧ (i < 72 → syndrome { toDram w with payload := (flipData (toDram w) i).payload, tag := (flipData (toDram w) i).tag } = .data i)
    ∧ syndrome { toDram w with check := (toDram w).check ^^^ (1#8 <<< j.val) } = .check j.val)
  ∧ (∀ (s : State) (o p : Nat) (w : Word), smWf dramDefault s.dram.words = true →
  smWf dramDefault (dramWrite s o w).dram.words = true
    ∧ (dramRead false o (dramWrite s o w)).1 = w
    ∧ (o / 8 ≠ p / 8 → smGet dramDefault (dramWrite s o w).dram.words (p / 8) = smGet dramDefault s.dram.words (p / 8)))

/-- 02 R57, 17 R417 to R420: a read of a good word changes nothing; the patrol reads the word at its pointer and goes on to the next; a subchannel is
refreshed once its interval, halved when hot, has passed, and tracked for drift every 1 ms after `READY`: only the time of it is kept. -/
def Obligations.MemoryEvents : Prop := ∀ (pa : BitVec 44) (m : Fin 8) (q : Fin 16) (s : State),
  let o := paOff pa
  let p := smGet 0 s.dram.patrol m.val
  (paDev pa = s.devid → o < s.dram.units * 0x40000000 → s.dram.units ≤ 512 → syndrome (smGet dramDefault s.dram.words (o / 8)) = .clean →
    exec (.dramRead pa none) s = .next s)
  ∧ (installed s p = true → onChannel s m (p / 512) = true → syndrome (smGet dramDefault s.dram.words (p / 8)) = .clean →
    ∃ t, exec (.patrolRead m) s = .next t ∧ smGet 0 t.dram.patrol m.val = p + 8 ∧ t.dram.words = s.dram.words ∧ t.cores = s.cores)
  ∧ (smGet 0 s.dram.refreshed q.val + (if s.dram.hot.getLsbD q.val then 1950 else 3900) ≤ s.now →
    ∃ t, exec (.refresh q) s = .next { s with dram := { s.dram with refreshed := t } } ∧ smGet 0 t q.val = s.now)
  ∧ (s.pins.ready = true → smGet 0 s.dram.drift q.val + 1000000 ≤ s.now →
    ∃ t, exec (.driftTracking q) s = .next { s with dram := { s.dram with drift := t } } ∧ smGet 0 t q.val = s.now)

/-! ## Time, actions and timers (08, 14) -/

/-- 08 R230: what each action does as it falls due. Its entry is freed. A start of a Culvert channel sets `EN` (here with a ring size that is allowed),
a start of a Percolator command advances `TAIL`, or sets `RERR` where that would reach `HEAD`; the timer actions take effect at the end of the hub's
tick; a snapshot stop becomes pending on the group's live cores, and a compartment reset begins the abort. -/
def Obligations.DueActions : Prop := ∀ (e : Fin 32) (a : Action) (n m : TimerId) (s : State),
  let p := compId a.comp
  let u := actionsTaken s
  let g : GroupId := Fin.ofNat 64 a.group.toNat
  let col := BitVec.ofNat 2 (a.arg.toNat % 4)
  let ch : ChanId := Fin.ofNat 64 a.arg.toNat
  let queued (stagger : Bool) : State := { u with timerActs := s.timerActs ++ [{ stagger := stagger, comp := p, mask := a.arg.setWidth 16 }] }
  (soleAction s e 1 a → ∃ t, exec (.setGoodcol e) s = .next t ∧ t.weir.actions = []
    ∧ (∀ c, getCore t c = if c ∈ liveCores s a then { getCore s c with pend := { (getCore s c).pend with flip := some col } } else getCore s c)
    ∧ (∀ k, (getPerc t k p).col = col))
  ∧ (soleAction s e 2 a → ∃ t, exec (.groupInterrupt e) s = .next t ∧ t.weir.actions = []
    ∧ (∀ c, (getCore t c).irq.group = if bit (groupOf s g).cores c.val && isLive (getCore s c) then (getCore s c).irq.group ||| (1#64 <<< a.group.toNat)
        else (getCore s c).irq.group))
  ∧ (soleAction s e 3 a → bit (getComp s p).res.culvert (a.arg.toNat % 64) = true → (getChan s ch).stopped = false →
    4 ≤ (getChan s ch).log2n.toNat → (getChan s ch).log2n.toNat ≤ 12 →
    exec (.startCulvertChannel e) s = .next (modChan u ch fun h => { h with en := true, startTick := some (hubTick s) }))
  ∧ (soleAction s e 4 a → bit a.arg 4 = false →
    let k : ClusterId := Fin.ofNat 16 a.arg.toNat
    let q := getPerc s k p
    let next : BitVec 12 := BitVec.ofNat 12 ((q.tail.toNat + 1) % 2 ^ q.log2n.toNat)
    q.stopped = false → exec (.startPercolatorCommand e) s
      = .next (if next = q.head then modPerc u k p fun x => { x with rerr := true } else modPerc u k p fun x => { x with tail := next }))
  ∧ (soleAction s e 5 a → exec (.startTimerChannels e) s = .next (queued false)
    ∧ (s.timerActs = [] → heldIn s p (a.arg.setWidth 16) = [n] → pairLow s n = none →
      (getTimer (settleActs (queued false)) n).run = true ∧ (getTimer (settleActs (queued false)) n).count = 0))
  ∧ (soleAction s e 6 a → exec (.staggerTimerChannels e) s = .next (queued true)
    ∧ (s.timerActs = [] → heldIn s p (a.arg.setWidth 16) = [n, m] → n ≠ m → pairLow s n = none → pairLow s m = none →
      let t := settleActs (queued true)
      (getTimer t n).offset = 0 ∧ (getTimer t m).period = (getTimer s n).period ∧ (getTimer t m).pre = (getTimer s n).pre
        ∧ (getTimer t m).offset = BitVec.ofNat 32 ((if (getTimer s n).period = 0 then 2 ^ 32 else (getTimer s n).period.toNat) / 2)))
  ∧ (soleAction s e 7 a → (∀ c ∈ compCores s p, (getCore s c).sq = []) →
    ∃ t, exec (.snapshotStop e) s = .next t ∧ ((getComp t p).snap.map fun x => (x.t, x.due, x.reported)) = some (a.tick, true, false)
      ∧ (∀ c, (getCore t c).pend.snap = ((bit (groupOf s g).cores c.val && isLive (getCore s c)) || (getCore s c).pend.snap)))
  ∧ (soleAction s e 8 a → p ≠ 0 → abortable (getComp s p).st = true → s.lk.restarting = false →
    ∃ t, exec (.compartmentReset e) s = .next t ∧ (getComp t p).st = .aborting ∧ bit t.mbx.abRun p.val = true
      ∧ (∀ c, bit (getComp s p).res.cores c.val = true → (getCore t c).run = .held))

/-- 06 R166, 07 R200, R201: a running core with a flip pending stops at its boundary, and a stopped one whose mark buffer is empty and whose heal writes
have completed resumes with the new colour; a core with a snapshot stop pending and no long operation stops, noting its `TICK`, is dumped and
resumes (the resumes here with no microcode loaded); once no core of the stop is left, `SNAPSHOT_DONE` is posted with the command's `SEQ`. -/
def Obligations.FlipsAndSnapshots : Prop := ∀ (c : CoreId) (col : BitVec 2) (p : CompId) (x : Snapshot) (tk : W64) (s : State),
  let k := getCore s c
  let ready := k.wait = none ∧ healing s c = false ∧ k.micro.table = [] ∧ k.micro.run = none
  (k.pend.flip = some col → k.mark = [] →
    (k.run = .running → k.wait = none → k.pend.stop = false →
      exec (.phaseFlipStop c) s = .next (modCore s c fun k => { k with replay := Replay.reset, run := .flipStop }))
    ∧ (k.run = .flipStop → ready → exec (.phaseFlipResume c) s = .next (modCore s c fun k => { k with
        heap := { k.heap with goodcol := col }, pend := { k.pend with flip := none }, run := .running })))
  ∧ (k.pend.snap = true → k.mark = [] →
    (k.pend.snapTick = none → k.pend.flip = none → k.run = .running → k.wait = none → k.pend.stop = false → k.longs = [] →
      exec (.snapshotCoreStop c) s = .next (modCore s c fun k => { k with
        replay := Replay.reset, run := .snapStop, pend := { k.pend with snapTick := some (tickOf s (clusterOf c)) } }))
    ∧ (k.pend.snapTick = some tk → (getComp s (compId k.compart)).snap = some x → k.run = .snapStop → ready →
      ∃ t, exec (.snapshotDump c) s = .next t ∧ (getCore t c).run = .running ∧ (getCore t c).pend.snap = false ∧ (getCore t c).cards = []
        ∧ (getCore t c).banks = k.banks ∧ (getCore t c).pc = k.pc))
  ∧ ((getComp s p).snap = some x → x.due = true → x.reported = false → (∀ c, (getCore s c).pend.snap = false) →
    exec (.snapshotStopReport p) s = .next (postEvent (modComp s p fun y => { y with snap := some { x with reported := true } }) 0x0004 p.val x.seq x.t))

/-- 08 R228 to R232: a post by a compartment to its own group on this device alone takes an entry, one too early or not its own is turned away; cancels
free the entry; other devices' posts are installed, and removed when they are cancelled or do not complete. -/
def Obligations.ActionPosts : Prop := ∀ (p : CompId) (i : Fin 32) (d : DevId) (id : Nat) (x : Action) (n : ActionInstall) (full failed : BitVec 16) (s : State),
  let a := getActPort s p
  let e := groupOf s (cmdGroup a.cmd)
  a.busy = false → s.weir.sched = none →
  (p ≠ 0 → postBad a.cmd = false → e.valid = true →
    (e.compart ≠ BitVec.ofFin p → ∃ t, exec (.actPostGo p) s = .next t ∧ (getActPort t p).result = 3 ∧ t.weir.actions = s.weir.actions)
    ∧ (e.compart = BitVec.ofFin p → lkOnly (cmdAct a.cmd) = false →
      (a.tick.toNat < (hubTick s).toNat + 20 + 130 * e.d.toNat → ∃ t, exec (.actPostGo p) s = .next t ∧ (getActPort t p).result = 1 ∧ t.weir.actions = s.weir.actions)
      ∧ ((hubTick s).toNat + 20 + 130 * e.d.toNat ≤ a.tick.toNat → otherDevs s e = [] → bit e.devmask s.devid.toNat = true → entryFor s p false = some i.val →
        ∃ t, exec (.actPostGo p) s = .next t ∧ (getActPort t p).result = 0 ∧ (getActPort t p).busy = false ∧ (getActPort t p).entry = BitVec.ofNat 5 i.val
          ∧ (actionAt t i).map (fun y => (y.act, y.arg, y.tick, y.comp)) = some (cmdAct a.cmd, cmdArg a.cmd, a.tick, BitVec.ofFin p))))
  ∧ (p ≠ 0 → smSorted s.weir.actions = true → actionAt s i = some x → x.byLk = false → x.comp = BitVec.ofFin p →
    otherDevs s (groupOf s (Fin.ofNat 64 x.group.toNat)) = [] →
    (hubTick s).toNat + 20 + 130 * (groupOf s (Fin.ofNat 64 x.group.toNat)).d.toNat ≤ x.tick.toNat →
    ∃ t, exec (.actPostCancel p i) s = .next t ∧ actionAt t i = none ∧ (getActPort t p).result = 5 ∧ (getActPort t p).busy = false)
  ∧ (n.origin ≠ s.devid.toFin → (groupOf s n.group).valid = true → bit (groupOf s n.group).devmask s.devid.toNat = true → n.comp ≠ 0 →
    (groupOf s n.group).compart = BitVec.ofFin n.comp → entryFor s n.comp (lkOnly n.act) = some i.val →
    ∃ t, exec (.actionInstall n) s = .next t
      ∧ (actionAt t i).map (fun y => (y.origin, y.id, y.act, y.arg, y.tick)) = some (n.origin, n.id, n.act, n.arg, n.tick))
  ∧ (∃ t, exec (.actionCancelFlood d id) s = .next t
      ∧ (∀ y, y ∈ t.weir.actions ↔ y ∈ s.weir.actions ∧ ¬ (y.2.origin = d ∧ y.2.id = id ∧ y.2.origin ≠ s.devid.toFin)))
  ∧ (let b := modActPort s p fun y => { y with busy := true, cancel := false }
     (∃ t, exec (.actionPostComplete p 0 0) b = .next t ∧ (getActPort t p).busy = false ∧ (getActPort t p).result = 0 ∧ t.weir.actions = s.weir.actions)
     ∧ (failed ≠ 0 → ∃ t, exec (.actionPostComplete p full failed) b = .next t ∧ (getActPort t p).result = 6 ∧ (getActPort t p).devs = failed
        ∧ (∀ y ∈ t.weir.actions, y.2.origin ≠ s.devid.toFin ∨ y.2.id ≠ a.id)))

/-- 08 R209 to R214, R237, R238: counters are loaded and stepped before `READY` only, by a device that is not the root and has its lock, and corrected
after it; a peer found more than 4 ticks off is declared failed; a lost lock is recorded; a failed device leaves `LIVE`; the root changes to the
device that is named, or to the lowest live one after a failed root. -/
def Obligations.TimeBase : Prop := ∀ (x : PortId) (off : Int) (d : DevId) (i : Fin 34) (s : State),
  let w := s.weir
  (s.pins.ready = false → s.lk.boot = .calibration → ∃ t, exec .weirSyncPulse s = .next t ∧ t.weir.tick.get i = 0 ∧ t.cores = s.cores)
  ∧ (s.pins.ready = true → exec .weirSyncPulse s = .next s)
  ∧ (s.pins.ready = false → w.root = false → w.lock = true → clocksRun s = true →
    ∃ t, exec (.timingSymbolExchange x off) s = .next t ∧ t.weir.tick.get i = BitVec.ofInt 64 ((w.tick.get i).toNat + off))
  ∧ (s.pins.ready = true → (getPort s x).trained = true → (getPort s x).down = false →
    (off.natAbs ≤ 4 → w.root = false → smSorted w.corr = true → ∃ t, exec (.timingSymbolExchange x off) s = .next t
        ∧ smGet 0 t.weir.corr i.val = off ∧ t.weir.tick = w.tick)
    ∧ (4 < off.natAbs → (getPort s x).peer = BitVec.ofFin d → exec (.timingSymbolExchange x off) s = exec (.deviceFailed d) s))
  ∧ (s.pins.ready = false → ∃ t, exec .onDieResynchronisation s = .next t ∧ t.weir.tick.get i = hubTick s)
  ∧ (s.pins.ready = true → smSorted w.corr = true → ∃ t, exec .onDieResynchronisation s = .next t ∧ t.weir.tick = w.tick
      ∧ smGet 0 t.weir.corr i.val = smGet 0 w.corr 33 + ((hubTick s).toNat : Int) - ((w.tick.get i).toNat : Int))
  ∧ (w.lock = true → ∃ t, exec .weirPllLossOfLock s = .next t ∧ t.weir = { w with lock := false } ∧ t.log.seq = s.log.seq + 1)
  ∧ (BitVec.ofFin d ≠ s.devid → bit w.faildev d.val = false → (∀ c g, waitOf s c ≠ some (.group g)) → ∃ t, exec (.deviceFailed d) s = .next t
      ∧ bit t.weir.faildev d.val = true ∧ bit t.weir.live d.val = false ∧ t.weir.tick = w.tick)
  ∧ (w.rootTo = some (BitVec.ofFin d) ∨ (bit w.faildev w.rdev.toNat = true ∧ (liveDevs s).head? = some d.val) → exec (.rootChange d) s
      = .next { s with weir := { w with rdev := BitVec.ofFin d, root := BitVec.ofFin d == s.devid, rootTo := none } })

/-- 14 R350 to R359, of channels that are in no cascaded pair where it is not said, evaluated as the hub's `TICK` goes on by one: a channel with nothing
else in the tick counts at the ticks of its prescale and matches; an edge is captured at the end of its stamp's tick, with an overrun where the
value before it has not been read; reads, starts, stops and staggers, and the latch of a pair, take their place in the tick. -/
def Obligations.TimerChannels : Prop := ∀ (n m : TimerId) (p : CompId) (mask : BitVec 16) (rising : Bool) (late : Fin 3) (s : State),
  let x := getTimer s n
  let per := if x.period = 0 then 2 ^ 32 else x.period.toNat
  let adv : BitVec 32 := if per ≤ x.count.toNat + 1 then 0 else x.count + 1
  let count : BitVec 32 := if x.run && decide (x.next.toNat % 2 ^ x.pre.toNat = 0) then adv else x.count
  let hit : Bool := count == x.offset && count != x.last
  let still := x.loaded = false ∧ x.started = false ∧ x.latch = false ∧ x.skip = false ∧ x.holdr = none ∧ x.holdf = none
  let stamp := hubTick s + BitVec.ofNat 64 late.val
  let lost (was read : Bool) : Bool := was && !read
  let irq (i : Nat) (l : Bool) : BitVec 4 := if l then bvSet (bvSet x.irq i true) 3 true else bvSet x.irq i true
  (pairLow s n = none → hubTick s = x.next + 1 → still →
    (x.readr = false → x.readf = false → x.edges = [] →
      exec (.timerAdvance n) s = .next (modTimer s n fun y => { y with
        count := count, last := count, irq := if hit then bvSet y.irq 0 true else y.irq
        run := y.run && !(hit && y.oneshot), toggle := y.toggle.xor (hit && y.omode == 3), next := y.next + 1 }))
    ∧ (x.run = false → x.count = x.last → x.omode = 0 → x.capen = true →
      (x.edges = [{ rising := true, stamp := x.next }] → x.readf = false →
        exec (.timerAdvance n) s = .next (modTimer s n fun y => { y with
          capr := x.count, newr := true, ovrr := y.ovrr || lost x.newr x.readr, irq := irq 1 (lost x.newr x.readr)
          readr := false, edges := [], next := y.next + 1 }))
      ∧ (x.edges = [{ rising := false, stamp := x.next }] → x.readr = false →
        exec (.timerAdvance n) s = .next (modTimer s n fun y => { y with
          capf := x.count, newf := true, ovrf := y.ovrf || lost x.newf x.readf, irq := irq 2 (lost x.newf x.readf)
          readf := false, edges := [], next := y.next + 1 })))
    ∧ (x.run = false → x.count = x.last → x.edges = [] →
      exec (.timerAdvance n) s = .next (modTimer s n fun y => { y with
        newr := lost y.newr y.readr, newf := lost y.newf y.readf, readr := false, readf := false, next := y.next + 1 })))
  ∧ (x.omode ≠ 0 ∨ x.pin = rising → exec (.evtEdge n rising late) s = .next s)
  ∧ (hubTick s = x.next → pairLow s n = none →
    (x.omode = 0 → x.pin = !rising → exec (.evtEdge n rising late) s = .next (modTimer s n fun y => { y with
      pin := rising, edges := y.edges ++ [{ rising := rising, stamp := stamp }] }))
    ∧ exec (.tmrCountRead n) s = .next s
    ∧ exec (.captureRead n false) s = .next (modTimer s n fun y => { y with readr := true })
    ∧ exec (.captureRead n true) s = .next (modTimer s n fun y => { y with readf := true })
    ∧ (heldIn s p mask = [n] →
      exec (.tmrGcmdStart p mask) s = .next (modTimer s n fun y => { y with count := 0, run := true, loaded := true, started := true })
      ∧ exec (.tmrGcmdStop p mask) s = .next (modTimer s n fun y => { y with run := false }))
    ∧ (heldIn s p mask = [n, m] → n ≠ m → pairLow s m = none → hubTick s = (getTimer s m).next →
      exec (.tmrGcmdStagger p mask) s = .next (modTimer (modTimer s n fun y => { y with offset := 0 }) m fun y => { y with
        period := x.period, pre := x.pre, offset := BitVec.ofNat 32 (per / 2) })))
  ∧ (n.val % 2 = 0 → x.casc = true → hubTick s = x.next →
    exec (.tmrCountRead n) s = .next (modTimer s (highOf n) fun y => { y with latch := true }))

/-! ## The Percolators and the caches (07, 12) -/

/-- 07 R180 to R183, R188, R196 to R199, R202: a write of `TAIL` is stored, and one with a bit at or above `LOG2N` is a ring error. A command that is
taken up from the ring runs to its result: without roots and with nothing on its stack a `MARK` marks nothing; an empty range remaps and cleans
nothing; a line of this device is scrubbed; a region without marked objects, or all of whose cards are copied, needs nothing, and the latter is
pending no more. A command with its result completes: its slot is written, `HEAD` moves, and `LASTERR` and `PRC_IRQ` follow. -/
def Obligations.PercolatorCommands : Prop := ∀ (k : ClusterId) (p : CompId) (s u t t1 : State) (h a b w3 v : W64) (r : Region) (ra : Byte) (o : Nat)
    (run : PercRun) (code : Byte),
  let e := getPerc s k p
  let unit := cmdUnit k
  let ws : List Word := [⟨0x06, h⟩, ⟨0x06, a⟩, ⟨0x06, b⟩, ⟨0x06, w3⟩]
  let op := h.toNat % 256
  let opts := h.toNat / 2 ^ 16 % 256
  let Ends (i : Instr) (w3 : W64) : Prop := ∃ x y, exec i s = .next x ∧ (getPerc x k p).run = some y ∧ y.result = some (0x00, w3)
  let line : List WordWrite := (List.range 8).map fun i => wholeWrite (a.setWidth 44 + BitVec.ofNat 44 (8 * i)) uninit
  exec (.prcTail k p v) s = .next (if 2 ^ e.log2n.toNat ≤ v.toNat % 4096
    then modPerc s k p fun e => { e with tail := v.setWidth 12, rerr := true, en := false }
    else modPerc s k p fun e => { e with tail := v.setWidth 12 })
  ∧ (Starts k p s u ws →
    (op = 1 → opts = 0 → a = 0 → (getPerc u k p).stack = [] → (getPerc u k p).memCount = 0 → Ends (.mark k p) 0)
    ∧ (op = 3 → b = 0 → Ends (.remap k p) 0)
    ∧ (op = 5 → a = b → Ends (.cleanLog k p) 0)
    ∧ (op = 4 → opts = 2 → a.toNat < 2 ^ 44 → b = 64 → paDev (a.setWidth 44) = u.devid → engOff p (a.setWidth 44) unit u = .ok o u →
      (getPerc u k p).used + 4 < 256 * percShare u k p →
      ∃ x y, exec (.scrub k p) s = .next x ∧ (getPerc x k p).run = some y ∧ y.result = some (0x00, 64)
        ∧ x.dram = (l2Store u k (compWays u k (compNo p)) line).dram ∧ x.clusters = (l2Store u k (compWays u k (compNo p)) line).clusters)
    ∧ (op = 2 → opts = 0 → commandRegion k p (va48 a) unit u = .ok (r, ra) t1 → (getPerc t1 k p).run = some (newRun ws) → raState ra = 3 → r.kind ≠ 3 →
      (∀ i < 4096, tabRead k p (r.bitmap + BitVec.ofNat 44 (8 * i)) unit t1 = .ok 0 t1) → Ends (.relocate k p) 0)
    ∧ (op = 6 → opts = 0 → commandRegion k p (va48 a) unit u = .ok (r, ra) t1 → (getPerc t1 k p).run = some (newRun ws) →
      (∀ i < 4096, copyCard k p (r.base + BitVec.ofNat 44 (512 * i)) unit t1 = .ok false t1) →
      ∃ x y, exec (.snapshotCopy k p) s = .next x ∧ (getPerc x k p).run = some y ∧ y.result = some (0x00, 0)
        ∧ (getComp x p).snap = (getComp t1 p).snap.map fun z => { z with copied := z.copied ++ [physRegion r.base] }))
  ∧ (e.run = some run → run.result = some (code, w3) →
    completionWrites k p (slotPa e) (cmdWord run 0) code w3 unit s = .ok () t →
    let y := getPerc t k p
    ∃ x, exec (.percolatorCommandComplete k p) s = .next x ∧ getPerc x k p = { y with
      run := none, head := BitVec.ofNat 12 ((y.head.toNat + 1) % 2 ^ y.log2n.toNat), lasterr := if code = 0 then y.lasterr else code
      irq := bvSet (bvSet y.irq 0 (bit y.irq 0 || bit (cmdWord run 0) 8)) 2 (bit y.irq 2 || code != 0) })

/-- 07 R189 to R195, R202, R203, 06 R173: the services of an engine. A request whose work ends is answered, and leaves its queue; each uses a cycle of
the compartment. A core of this device that asked for a `Forward` has the new address, or none; a card that is not copied yet has its copy begun,
and its writers have their answer as that ends; a request for a card that no 2 MiB leaf maps fails. Mark requests and buffers drain in order. An
idle engine takes half of the busiest's entries, a `MARK` that is ready joins its round, and a new window begins with nothing used. -/
def Obligations.PercolatorServices : Prop := ∀ (k j : ClusterId) (p : CompId) (c : CoreId) (f : FwdReq) (q : CardReq) (m : MarkReq) (rest : List MarkReq)
    (n : Option W64) (e : MarkEntry) (l : List MarkEntry) (s t : State) (b : Bool),
  let g := getEng s k
  let fp := compId f.comp
  let qp := compId q.comp
  let cp := compId (getCore s c).compart
  let work := answerForward k fp (va48 f.va) f.pa f.ptype.toNat (fwdUnit k f)
  let served : State := answerFwd (forget t (fwdUnit k f) fp) k 0 f n
  let drain : EngCtx := { eng := clusterOf c, part := .drain c }
  (f.origin = none → answerFwd s k 0 f n
    = { modEng s k fun e => { e with fwd := e.fwd.eraseIdx 0 } with answers := s.answers ++ [(f.core, .fwd f.va n)] })
  ∧ (g.fwd = [f] → f.waiting = false → work (serviceCycle s k fp) = .ok n t → exec (.forward k) s = .next served)
  ∧ (g.fwd = [f] → f.waiting = true → paDev f.pa = s.devid →
    (work (serviceCycle s k fp) = .ok n t → exec (.forwardCompletionNotice k) s = .next served)
    ∧ (work (serviceCycle (pollForward s k f) k fp) = .ok n t → exec (.forwardPoll k) s = .next served))
  ∧ (g.marks = m :: rest → markServed k m { eng := k, part := .mark } s = .ok () t →
    exec (.markRequest k) s = .next (ackMark (forget t { eng := k, part := .mark } (compId m.comp)) k m))
  ∧ ((getCore s c).mark = e :: l → markPushed (clusterOf c) cp e.va e.pa e.ptype.toNat drain s = .ok () t →
    exec (.markBufferDrain c) s = .next (serviceCycle (modCore (forget t drain cp) c fun x => { x with mark := x.mark.drop 1 }) (clusterOf c) cp))
  ∧ (g.cards = [q] → answerCards s k (cardOf q.pa) b
    = { modEng s k fun e => { e with cards := [] } with answers := s.answers ++ [(q.core, .card q.pa b)] })
  ∧ (g.cards = [q] → q.copying = false →
    (q.leaf = false → exec (.cardRequest k) s = .next (answerCards (forget (serviceCycle s k qp) (cardUnit k) qp) k (cardOf q.pa) false))
    ∧ (q.leaf = true → cardCopied k qp q.pa (cardUnit k) (serviceCycle s k qp) = .ok b t → exec (.cardRequest k) s
      = .next (if b then answerCards (forget t (cardUnit k) qp) k (cardOf q.pa) true
          else modEng (forget t (cardUnit k) qp) k fun e => { e with cards := e.cards.set 0 { q with copying := true } })))
  ∧ (g.cards = [q] → q.copying = true → copyCard k qp q.pa (cardUnit k) s = .ok b t → exec (.cardCopyComplete k) s
      = .next (answerCards (forget (if b then modPerc t k qp fun e => { e with used := e.used + 26 } else t) (cardUnit k) qp) k (cardOf q.pa) true))
  ∧ (busiest s p = j → j ≠ k → (getPerc s k p).stack = [] → (getPerc s k p).memCount = 0 →
    ∃ u, exec (.markStackSteal k p) s = .next u ∧ (getPerc u k p).stack ++ (getPerc u j p).stack = (getPerc s j p).stack
      ∧ (getPerc u k p).stack.length = (getPerc s j p).stack.length / 2)
  ∧ (roundReady s k p = true → (∀ x, x ≠ k → roundReady s x p = false) → (groupOf s (roundGroup s k p)).valid = true →
    (groupOf s (roundGroup s k p)).compart = compNo p → bit (groupOf s (roundGroup s k p)).engmask k.val = true →
    (groupOf s (roundGroup s k p)).failed = false → (memberOf s (roundGroup s k p) (128 + k.val)).st = .idle →
    ∃ u, exec (.terminationRound p) s = .next u ∧ (getPerc u k p).markedSince = false ∧ (memberOf u (roundGroup s k p) (128 + k.val)).st = .arrived
      ∧ (memberOf u (roundGroup s k p) (128 + k.val)).contrib = ⟨0x00, if (getPerc s k p).markedSince then 1 else 0⟩)
  ∧ (∃ u, exec (.schedulingWindow k) s = .next u ∧ (∀ q, (getPerc u k q).used = 0) ∧ (∀ x, x ≠ k → getEng u x = getEng s x) ∧ u.cores = s.cores)

/-- 12 R322 to R324: an operation on a range of DRAM of at most 8 MiB that belongs to its compartment works on every line held of it, none of which is
lost, and counts lines as stated; an empty range does nothing; a walk of `CLEAN` ends at the first line it finds lost, with result 4. `TAGINIT`
leaves `UNINIT` 0 in every word. The oldest operation that waits starts, and a completed one gives way, its interrupt pending where `IRQ` asks for
it. 12 R319, R320, R328, R329: an L2 goes on at once and off through a drain that leaves it empty; a write of `L2_CARAFE.N` above 8 is ignored; ways
convert one at a time until `CUR` is `N`, and a converted way holds no word. -/
def Obligations.MaintenanceAndL2 : Prop :=
  (∀ (k j : ClusterId) (p : CompId) (lo hi d : Nat) (rest : List CompId) (s : State),
  let m := getMnt s k p
  let held := heldLines s (compNo p) lo hi
  (m.start = m.stop →
    (mntDue s k p 1 = true → exec (.clean k p none) s = .next (mntActed s k p 0 0 false))
    ∧ (mntDue s k p 2 = true → exec (.inval k p) s = .next (mntActed s k p 0 0 false))
    ∧ (mntDue s k p 3 = true → exec (.cleanInval k p none) s = .next (mntActed s k p 0 0 false))
    ∧ (mntDue s k p 4 = true → exec (.taginit k p) s = .next (mntActed s k p 0 0 false)))
  ∧ (mntRange s m = .dram lo hi → dramFence s (compNo p) lo hi = true → hi - lo ≤ 0x800000 → (∀ l ∈ held, lostAt s l = none) →
    (mntDue s k p 1 = true → exec (.clean k p none) s = .next (mntActed (held.foldl cleanLine s) k p 0 (held.filter (heldM s)).length false))
    ∧ (mntDue s k p 2 = true → exec (.inval k p) s = .next (mntActed (held.foldl invalLine s) k p 0 held.length false))
    ∧ (mntDue s k p 3 = true → exec (.cleanInval k p none) s
        = .next (mntActed (held.foldl (fun s l => invalLine (cleanLine s l) l) s) k p 0 held.length false))
    ∧ (mntDue s k p 4 = true → hi ≤ s.dram.units * 0x40000000 → hi % 64 = 0 → ∃ t, exec (.taginit k p) s = .next t
        ∧ (getMnt t k p).acted = true ∧ (getMnt t k p).outcome = 0 ∧ (getMnt t k p).count = BitVec.ofNat 32 ((hi - lo) / 64)
        ∧ (∀ o, lo ≤ o → o < hi → smGet dramDefault t.dram.words (o / 8) = dramDefault)))
  ∧ (mntRange s m = .dram lo hi → dramFence s (compNo p) lo hi = true → hi - lo ≤ 0x800000 → mntDue s k p 1 = true →
    held.find? (fun l => (lostAt s l).isSome) = some d → lostAt s d = some j →
    let before := held.filter (· < d)
    exec (.clean k p none) s = .next (l2Check (mntActed (before.foldl cleanLine s) k p 4 (before.filter (heldM s)).length false) j d))
  ∧ (mntRange s m = .dram lo hi → dramFence s (compNo p) lo hi = false → hi - lo ≤ 0x800000 → mntDue s k p 2 = true →
      exec (.inval k p) s = .next (mntActed s k p 2 0 false))
  ∧ ((s.mnt.get k).queue = p :: rest →
    (m.queued = true → exec (.maintenanceQueuedStart k) s = .next (modMnt s k p fun m => { m with busy := true, queued := false }))
    ∧ (m.busy = true → m.acted = true → fld m.op 0 3 < 5 → ∃ t, exec (.maintenanceComplete k) s = .next t
        ∧ (getMnt t k p).busy = false ∧ (getMnt t k p).done = true ∧ (getMnt t k p).result = m.outcome ∧ (getMnt t k p).lines = m.count
        ∧ (getMnt t k p).irqPend = (m.irqPend || bit m.op 3) ∧ (t.mnt.get k).queue = rest ∧ t.cores = s.cores)))
  ∧ (∀ (k : ClusterId) (n : BitVec 4) (s : State),
  let l := l2Of s k
  (∃ t, exec (.l2ReqOn k) s = .next t ∧ (l2Of t k).st = .on ∧ (l2Of t k).lines = (if l.st = .off then [] else l.lines) ∧ t.dram = s.dram)
  ∧ (∃ t, exec (.l2ReqOff k) s = .next t ∧ (l2Of t k).st = (if l.st = .on then .draining else l.st) ∧ (l2Of t k).lines = l.lines ∧ t.dram = s.dram)
  ∧ (l.st = .draining → ∃ t, exec (.l2DrainComplete k) s = .next t ∧ (l2Of t k).st = .off ∧ (l2Of t k).lines = [])
  ∧ (n ≤ 8 → ∃ t, exec (.l2CarafeWrite k n) s = .next t ∧ (l2Of t k).carafeN = n ∧ (l2Of t k).busy = (l.cur != n) ∧ (l2Of t k).cur = l.cur
      ∧ (l2Of t k).carafe = l.carafe)
  ∧ (8 < n → exec (.l2CarafeWrite k n) s = .next s)
  ∧ (l.busy = true → l.cur < l.carafeN → ∃ t, exec (.carafeWayConverted k) s = .next t ∧ (l2Of t k).cur = l.cur + 1
      ∧ (l2Of t k).busy = (l.cur + 1 != l.carafeN) ∧ (∀ e ∈ (l2Of t k).carafe, e.1 / 32768 ≠ l.cur.toNat))
  ∧ (l.busy = true → l.carafeN < l.cur → ∃ t, exec (.carafeWayConverted k) s = .next t ∧ (l2Of t k).cur = l.cur - 1
      ∧ (l2Of t k).busy = (l.cur - 1 != l.carafeN) ∧ (∀ e ∈ (l2Of t k).carafe, e.1 / 32768 ≠ l.cur.toNat - 1)))

/-! ## The Lockkeeper and compartments (15, 16) -/

/-- 15 R364 to R366: the doorbell. A busy mailbox discards the command and sets `REJ`; an idle one holds it until the firmware runs (and, by the model's
choice, log 10, until a command whose response is lost has ended), or answers it with the status of its header. The fields of Table 15.4 are read
from the bytes written. 15 R365, Table 15.4: a response holds the opcode, the length of the result, the `SEQ`, the status, the compartment, the
detail and the result; the mailbox is idle with `DONE` and its interrupt bit. -/
def Obligations.MailboxProtocol : Prop :=
  (∀ (op st : Nat) (m : MbxCmd) (i : Nat) (b : Byte) (cur : CurCmd) (s : State),
  let u := submitted op m s
  hostReaches s = true → op < 0x10000 →
  (s.mbx.busy = true → exec (.getInfo m) s = .next { s with mbx := { s.mbx with rej := true } })
  ∧ (s.mbx.busy = false → s.lk.cur = none → lkRuns s = false → cmdOpcode (submitted 2 m s) = 2 → exec (.getStatus m) s
      = .next { submitted 2 m s with lk := { (submitted 2 m s).lk with held := true } })
  ∧ (s.mbx.busy = false → s.lk.cur = some cur → cur.lost = true → cmdOpcode (submitted 2 m s) = 2 → exec (.getStatus m) s
      = .next { submitted 2 m s with lk := { s.lk with next := (submitted 2 m s).lk.cur, held := true } })
  ∧ (s.mbx.busy = false → s.lk.cur = none → lkRuns s = true → turnedAway (submitted 0x41 m s) = some st → cmdOpcode (submitted 0x41 m s) = 0x41 →
      exec (.linkStatus m) s = .next (respond (submitted 0x41 m s) st 0 []))
  ∧ (s.mbx.busy = false → smSorted s.mbx.cmd = true →
      cmdOpcode u = op ∧ cmdLen u = m.len.toNat ∧ cmdSeq u = m.seq.toNat ∧ cmdComp u = m.compart
        ∧ (hdrClean u = true ↔ m.rsv9 = 0 ∧ m.rsv10 = 0 ∧ m.rsv12 = 0)
        ∧ (i < 4080 → m.args[i]? = some b → argBytes u i 1 = [b])))
  ∧ (∀ (c : CurCmd) (status detail : Nat) (result : List Byte) (s : State),
  let t := respond s status detail result
  s.lk.cur = some c → c.lost = false → smSorted s.mbx.resp = true →
  t.mbx.busy = false ∧ t.mbx.done = true ∧ bit t.mbx.irq 0 = true ∧ t.lk.cur = none ∧ t.comps = s.comps ∧ t.cores = s.cores
  ∧ getBytes t.mbx.resp 0 (16 + result.length) = leBytes 2 c.opcode.toNat ++ leBytes 2 result.length ++ leBytes 4 c.seq.toNat
      ++ leBytes 1 status ++ [c.comp] ++ leBytes 2 detail ++ leBytes 4 0 ++ result)

/-- 15 R367 to R377, Tables 15.6, 15.7, 15.11, 15.14, 18 R430, 17 R406, 01 R22, 13 R344: what the commands of the device do and answer. -/
def Obligations.DeviceCommands : Prop := ∀ (m : MbxCmd) (x : PortId) (k : ClusterId) (b : List Byte) (r : Nat) (uc : Ucode) (s : State),
  let u (op : Nat) : State := submitted op m s
  (Accepted 0x01 m s → exec (.getInfo m) s = .next (respond (u 0x01) 0 0 (infoBytes (u 0x01))) ∧ (infoBytes (u 0x01)).length = 32
      ∧ (infoBytes (u 0x01)).take 4 = [0x72, 0x05, 0, s.devid.setWidth 8])
  ∧ (Accepted 0x02 m s → exec (.getStatus m) s = .next (respond (u 0x02) 0 0 (statusBytes (u 0x02))))
  ∧ (Accepted 0x41 m s → exec (.linkStatus m) s = .next (respond (u 0x41) 0 0 []))
  ∧ (Accepted 0x50 m s → exec (.telemetryRead m) s = .next (respond (u 0x50) 0 0 (telemetryBytes s)))
  ∧ (Accepted 0x60 m s → 1 ≤ argN (u 0x60) 4 2 → argN (u 0x60) 4 2 ≤ 127 → exec (.errorLogRead m) s
      = .next (respond (u 0x60) 0 0 ((logFrom s (argN (u 0x60) 0 4) (argN (u 0x60) 4 2)).flatMap entryBytes)))
  ∧ (Accepted 0x61 m s → ∃ t, exec (.errorLogClear m) s = .next t ∧ t.mbx.busy = false
      ∧ (∀ e, e ∈ logEntries t ↔ e ∈ logEntries s ∧ argN (u 0x61) 0 4 < e.seq.toNat))
  ∧ (Accepted 0x10 m s → argN (u 0x10) 0 1 ≤ 2 → argN (u 0x10) 1 7 = 0 → ∃ t, exec (.setProfile m) s = .next t
      ∧ t.lk.profile = BitVec.ofNat 2 (argN (u 0x10) 0 1) ∧ t.power.cap = capLimit s (BitVec.ofNat 2 (argN (u 0x10) 0 1))
      ∧ t.lk.switching = 0xFFFF ∧ t.mbx.busy = true)
  ∧ (bit s.lk.switching k.val = true → lkRuns s = true → flipBusy s k = false → ∃ t, exec (.profileClusterSwitch k) s = .next t
      ∧ (getCl t k).clk.target = min (ceilingOf s.lk.profile) 48
      ∧ (latched s k = false → (getCl s k).clk.locked = true → (getCl t k).clk.freq = min (ceilingOf s.lk.profile) 48)
      ∧ bit t.lk.switching k.val = false
      ∧ (bvSet s.lk.switching k.val false = 0 → (s.lk.cur.map fun c => (c.opcode, c.lost)) = some (0x10, false) → t.lk.cur = none ∧ t.mbx.busy = false))
  ∧ (Accepted 0x40 m s → argN (u 0x40) 0 1 = 2 ^ x.val → argN (u 0x40) 1 1 ≤ 1 → (getPort s x).trained = false → ∃ t, exec (.linkTrain m) s = .next t
      ∧ (getPort t x).training = true ∧ (∀ y, y ≠ x → getPort t y = getPort s y) ∧ t.mbx.busy = false)
  ∧ (Accepted 0xF0 m s → argN (u 0xF0) 0 1 = 1 → argN (u 0xF0) 1 7 = 0 → ∃ t, exec (.deviceReset m) s = .next t ∧ t.lk.resetDue = true
      ∧ t.mbx.busy = false ∧ t.cores = s.cores ∧ idle t = Machine.deviceReset t)
  ∧ (Accepted 0x70 m s → chunkOk (u 0x70) = true → argN (u 0x70) 0 2 = 0 → withChunk (u 0x70) true 0 = some b → ∃ t, exec (.fwUpdate m) s = .next t
      ∧ t.lk.fwBank = s.lk.fwBank.set (otherBank s) b ∧ t.lk.bank = s.lk.bank ∧ t.mbx.busy = false
      ∧ t.lk.selected = (if chunkLast (u 0x70) && Config.fwSigOk b then !s.lk.bank else s.lk.selected)
      ∧ (t.lk.stage.map (·.bytes)) = (if chunkLast (u 0x70) then none else some b))
  ∧ (Accepted 0x71 m s → chunkOk (u 0x71) = true → argN (u 0x71) 1 1 = 1 ∨ argN (u 0x71) 1 1 = 2 →
    (argN (u 0x71) 0 1 = 0 → withChunk (u 0x71) false (BitVec.ofNat 8 (argN (u 0x71) 1 1)) = some b →
      (chunkLast (u 0x71) = false → ∃ t, exec (.microcodeStage m) s = .next t ∧ (t.lk.stage.map (·.bytes)) = some b ∧ t.lk.ucFlash = s.lk.ucFlash)
      ∧ (chunkLast (u 0x71) = true → checkImage (setStage (u 0x71) none) b = .inr uc → ∃ t, exec (.microcodeStage m) s = .next t
          ∧ t.lk.ucFlash = s.lk.ucFlash.set (argN (u 0x71) 1 1 - 1) b ∧ t.lk.stage = none)
      ∧ (chunkLast (u 0x71) = true → checkImage (setStage (u 0x71) none) b = .inl r → exec (.microcodeStage m) s
          = .next (respond (setStage (u 0x71) none) (if 3 ≤ r ∧ r ≤ 5 then 6 else 2) r [])))
    ∧ (argN (u 0x71) 0 1 = 1 → argN (u 0x71) 8 4 = 85 → argN (u 0x71) 97 4 = 0x4F545031 → ∃ t, exec (.programKeySlot2 m) s = .next t
        ∧ t.lk.key2 = (if s.lk.key2.isSome then s.lk.key2 else some (argBytes (u 0x71) 16 81)) ∧ t.mbx.busy = false))

/-- 15 Table 15.8, R366, R369, R370, R374, 16 R379 to R381: a creation whose arguments are bad, whose compartment is not `EMPTY` or for which a pool
falls short takes nothing, and any other takes what the statement names; a load is accepted, and as its bytes have come it ends, setting the entry
addresses (a load of one word stores it); a start with a zero mask releases the cores; a release lets a locked-up core of a `RUNNING` compartment
run again, and is refused for any other (`RESULT` 1 outside `RUNNING` is the model's choice, log 10). -/
def Obligations.CompartmentBirth : Prop := ∀ (m : MbxCmd) (p : CompId) (c : CoreId) (d : Nat) (l : Load) (data : List Byte) (s : State),
  let u (op : Nat) : State := submitted op m s
  let x := getComp s p
  (Accepted 0x20 m s → curComp (u 0x20) = p → p ≠ 0 →
    (x.st ≠ .empty → createBad (u 0x20) = false → exec (.compartmentCreate m) s = .next (respond (u 0x20) 5 0 []))
    ∧ (createBad (u 0x20) = true → exec (.compartmentCreate m) s = .next (respond (u 0x20) 2 0 []))
    ∧ (x.st = .empty → createBad (u 0x20) = false → createShort (u 0x20) = some d → exec (.compartmentCreate m) s = .next (respond (u 0x20) 4 d []))
    ∧ (x.st = .empty → createBad (u 0x20) = false → createShort (u 0x20) = none → ∃ t, exec (.compartmentCreate m) s = .next t
        ∧ (getComp t p).st = .created ∧ (getComp t p).res.cores = crCores (u 0x20) ∧ (getComp t p).res.culvert = BitVec.ofNat 64 (argN (u 0x20) 64 8)
        ∧ (getComp t p).res.timers = BitVec.ofNat 16 (argN (u 0x20) 72 2) ∧ t.mbx.busy = false
        ∧ (bit (crCores (u 0x20)) c.val = true → (getCore t c).compart = compNo p ∧ (getCore t c).run = .held)))
  ∧ (Accepted 0x21 m s → curComp (u 0x21) = p → x.st = .created → argN (u 0x21) 12 1 ≤ 1 → argN (u 0x21) 13 1 < 4 → argN (u 0x21) 14 2 = 0 →
    argN (u 0x21) 8 4 ≤ 2 ^ 30 → argN (u 0x21) 8 4 % loadRec (argN (u 0x21) 12 1 == 1) = 0 → fld (BitVec.ofNat 64 (argN (u 0x21) 16 8)) 0 3 = 0 →
    insideComp (u 0x21) p (BitVec.ofNat 64 (argN (u 0x21) 16 8)) (argN (u 0x21) 8 4 / loadRec (argN (u 0x21) 12 1 == 1) * 8) = true →
    (∀ q, (getComp s q).load = none) → ∃ t, exec (.compartmentLoad m) s = .next t ∧ t.mbx.busy = false
      ∧ ((getComp t p).load.map fun l => (l.dest, l.bytes, l.stream, l.trust))
        = some (argN (u 0x21) 16 8, argN (u 0x21) 8 4, argN (u 0x21) 12 1 == 1, argN (u 0x21) 13 1 % 2 == 1)
      ∧ ((getComp t p).load.map (·.entry)) = some (if argN (u 0x21) 13 1 / 2 % 2 = 1
          then some (BitVec.ofNat 64 (argN (u 0x21) 24 8), BitVec.ofNat 64 (argN (u 0x21) 32 8)) else none))
  ∧ (x.load = some l → (∀ q, q ≠ p → (getComp s q).load = none) → data.length = l.bytes → s.pcie.trained = true → s.pins.perstN = true →
    ∃ t, exec (.loadDone data) s = .next t ∧ (getComp t p).load = none
      ∧ (∀ b a, l.entry = some (b, a) → (getComp t p).bootepc = b ∧ (getComp t p).apepc = a ∧ (getComp t p).entryDone = true)
      ∧ (l.bytes = loadRec l.stream → t.dram = (memStore (dropReads s fun x => x.chan == none) [wholeWrite (BitVec.ofNat 44 l.dest) (loadWord l data).1]).dram))
  ∧ (Accepted 0x22 m s → curComp (u 0x22) = p → argN (u 0x22) 0 16 = 0 → x.st = .created → x.entryDone = true → bit x.res.cores c.val = true →
    ∃ t, exec (.compartmentStart m) s = .next t ∧ (getComp t p).st = .running ∧ t.mbx.busy = false ∧ (getCore t c).run = .running
      ∧ (getCore t c).pc = va48 (if (compCores s p).head? = some c then x.bootepc else x.apepc) &&& ~~~3#64
      ∧ (getCore t c).st.force = releaseStatus x.res.modes)
  ∧ (x.notice.reqBusy = false → lkRuns s = true → bit x.res.cores c.val = true → (getCore s c).lockHeld = false ∨ x.st ≠ .running →
    ∃ t, exec (.release p c) s = .next t ∧ (getComp t p).notice.reqResult = 1 ∧ t.cores = s.cores)
  ∧ (x.notice.reqBusy = false → lkRuns s = true → bit x.res.cores c.val = true → (getCore s c).lockHeld = true → x.st = .running →
    ∃ t, exec (.release p c) s = .next t ∧ (getComp t p).notice.reqResult = 0 ∧ (getCore t c).run = .running ∧ (getCore t c).lockHeld = false
      ∧ (getCore t c).pc = va48 x.apepc &&& ~~~3#64)
  ∧ (x.notice.reqBusy = false → lkRuns s = true → bit x.res.cores c.val = false →
    ∃ t, exec (.release p c) s = .next t ∧ (getComp t p).notice.reqResult = 2 ∧ t.cores = s.cores)

/-- 16 R395, R401, 15 R370, 16 R382, 14 R360: a quiesce notifies; 200 µs later cores that are held or stand between instructions with empty buffers,
channels and engines stop; it ends when nothing blocks it, or with `TIMEOUT` after 1 ms. Destruction resets the timer channels at once; when its
scrub is done the compartment is at its Reset values (a masked vector 31 stands pending, log 23), owns no unit of memory, and its cores are free. -/
def Obligations.QuiesceAndDestroy : Prop := ∀ (m : MbxCmd) (p : CompId) (c : CoreId) (n : ChanId) (k : ClusterId) (y : TimerId) (q : Quiesce) (cur : CurCmd) (s : State),
  let u (op : Nat) : State := submitted op m s
  let x := getComp s p
  (Accepted 0x23 m s → curComp (u 0x23) = p → x.st = .running → ∃ t, exec (.compartmentQuiesce m) s = .next t ∧ (getComp t p).st = .quiescing
      ∧ bit (getComp t p).notice.bits 1 = true ∧ (getComp t p).quiesce = some { start := s.now, stopped := false } ∧ t.mbx.busy = true)
  ∧ (x.st = .quiescing → x.quiesce = some q → q.stopped = false → q.start + 200000 ≤ s.now →
    (∀ c, bit x.res.cores c.val = true → (getCore s c).run = .held ∨ ((getCore s c).run = .running ∧ (getCore s c).wait = none
      ∧ (getCore s c).mark = [] ∧ (getCore s c).sq = [] ∧ (getCore s c).pend.flip = none ∧ (getCore s c).pend.snap = false)) →
    (∀ k, (getPerc s k p).stack = []) →
    ∃ t, exec (.quiesceStop p) s = .next t ∧ (getComp t p).quiesce = some { q with stopped := true }
      ∧ (bit x.res.cores c.val = true → (getCore s c).run = .running → (getCore t c).run = .stopped)
      ∧ (bit x.res.culvert n.val = true → (getChan t n).stopped = true) ∧ (getPerc t k p).stopped = true)
  ∧ (x.st = .quiescing → x.quiesce.map (·.stopped) = some true → (∀ c, bit x.res.cores c.val = true → (getCore s c).run = .stopped) →
    (∀ k, (getPerc s k p).stopped = true ∧ (getPerc s k p).run = none ∧ (getPerc s k p).stack = []) →
    (quiesceBlocker s p = none → ∃ t, exec (.quiesced p) s = .next t ∧ (getComp t p).st = .quiesced ∧ t.cores = s.cores
      ∧ (quiesceCmd s p = true → s.lk.cur = some cur → cur.lost = false → s.lk.restarting = false → t.mbx.busy = false ∧ t.lk.cur = none))
    ∧ ((quiesceBlocker s p).isSome = true → exec (.quiesced p) s = .next s))
  ∧ (x.st = .quiescing → s.lk.cur = some cur → cur.lost = false → quiesceCmd s p = true → s.lk.restarting = false → cur.start + 1000000 ≤ s.now →
    ∃ t, exec (.quiesceTimeout p) s = .next t ∧ (getComp t p).st = .quiescing ∧ t.lk.cur = none ∧ t.mbx.busy = false
      ∧ t = respond s 7 (((quiesceBlocker s p).map fun b => b.1 + 256 * b.2).getD 0) [])
  ∧ (Accepted 0x25 m s → curComp (u 0x25) = p → x.load = none →
    (x.st = .created ∨ x.st = .quiesced ∨ x.st = .aborted → ∃ t, exec (.compartmentDestroy m) s = .next t ∧ (getComp t p).st = .scrubbing
      ∧ t.mbx.busy = false ∧ (bit x.res.timers y.val = true → getTimer t y = timerReset (getTimer s y)))
    ∧ (x.st = .running → exec (.compartmentDestroy m) s = .next (respond (u 0x25) 5 0 [])))
  ∧ (x.st = .scrubbing → p ≠ 0 → smSorted s.dram.owner = true → ∃ t, exec (.destroyDone p) s = .next t ∧ getComp t p = { Comp.reset with vf := { VirtFn.reset with msixPend := 0x80000000 } }
      ∧ (∀ g, smGet 0 t.dram.owner g ≠ compNo p) ∧ getPerc t k p = Perc.reset
      ∧ (bit x.res.cores c.val = true → (getCore t c).compart = 0 ∧ (getCore t c).lockHeld = false))

/-- 15 R371, R372, R378, 16 R402: an abort starts by command or by its register with the key, holds the cores in reset, is forced by its timer after 4
ms, and completes with its bits in `MBX_ABSTAT`. -/
def Obligations.CompartmentAborts : Prop := ∀ (m : MbxCmd) (v : W64) (p : CompId) (c : CoreId) (a : Abort) (s : State),
  let u := submitted 0x24 m s
  let x := getComp s p
  let Started (t : State) : Prop := (getComp t p).st = .aborting ∧ bit t.mbx.abRun p.val = true
    ∧ (bit x.res.cores c.val = true → (getCore t c).run = .held)
  (Accepted 0x24 m s → curComp u = p → (cmdComp u).toNat < 16 → p ≠ 0 → abortable x.st = true →
    ∃ t, exec (.compartmentAbort m) s = .next t ∧ Started t ∧ t.mbx.busy = true ∧ ((getComp t p).abort.map (·.byCmd)) = some true)
  ∧ (hostReaches s = true → fld v 8 8 = 0xA5 → Fin.ofNat 16 (fld v 0 4) = p → p ≠ 0 → abortable x.st = true → s.lk.restarting = false →
    ∃ t, exec (.mbxAbort v) s = .next t ∧ Started t)
  ∧ (fld v 8 8 ≠ 0xA5 → exec (.mbxAbort v) s = .next s)
  ∧ (x.abort = some a → a.forced = false → a.start + 4000000 ≤ s.now → ∃ t, exec (.abortTimerExpiry p) s = .next t
      ∧ ((getComp t p).abort.map (·.forced)) = some true ∧ (bit x.res.cores c.val = true → (getCore t c).run = .held))
  ∧ (x.abort = some a → a.start + 4000000 > s.now → exec (.abortTimerExpiry p) s = .next s)
  ∧ (x.abort = some a → x.abortDue = false → a.forced = true ∨ (a.orderly = true ∧ a.lost = false ∧ s.lk.restarting = false) → ∃ t, exec (.abortComplete p) s = .next t
      ∧ (getComp t p).st = .aborted ∧ (getComp t p).abort = none ∧ bit t.mbx.abRun p.val = false ∧ bit t.mbx.abDone p.val = true
      ∧ (a.forced = true → bit t.mbx.abForced p.val = true) ∧ bit t.mbx.irq 2 = true)

/-- 08 R213, R219, R229 to R232, R235, 15 R375, 07 R200, 16 R386: the Weir's mailbox commands. -/
def Obligations.WeirCommands : Prop := ∀ (m : MbxCmd) (p : CompId) (r : GroupRecord) (b : ActPort) (s t w : State),
  let u (op : Nat) : State := submitted op m s
  let tick := BitVec.ofNat 64 (argN (u 0x31) 0 8)
  let cmd := BitVec.ofNat 64 (argN (u 0x31) 8 8)
  let g := argN (u 0x80) 16 1
  let base := BitVec.ofNat 64 (argN (u 0x80) 8 8)
  (Accepted 0x30 m s → devByte (argN (u 0x30) 0 1) = true → (∀ x : PortId, devByte (argN (u 0x30) (1 + x.val) 1) = true) →
    argN (u 0x30) 9 1 = 1 → argN (u 0x30) 10 6 = 0 → recordAt (u 0x30) 0 = r → r.clean = true →
    confirmed r (configLinks (u 0x30)) = (true, t) → recordOk t r = true → smSorted s.weir.groups = true → ∃ w, exec (.weirConfig m) s = .next w
      ∧ groupOf w r.g = (if r.valid then
          { valid := true, compart := r.compart, user := r.user, devmask := bvSet r.devmask s.devid.toNat true, engmask := r.engmask,
            cores := r.cores, d := BitVec.ofNat 4 (diameter t (bvSet r.devmask s.devid.toNat true)), failed := false }
        else GroupEntry.none)
      ∧ (∀ x, w.weir.peers.get x = configPeer (u 0x30) x) ∧ w.mbx.busy = false)
  ∧ (Accepted 0x31 m s → curComp (u 0x31) = p → (getComp s p).st = .created ∨ (getComp s p).st = .running → argN (u 0x31) 16 1 = 0 →
    argN (u 0x31) 17 1 < 32 → argN (u 0x31) 18 6 = 0 → cmd &&& ~~~actCmdMask = 0 → postRun (u 0x31) p false (freshPort tick cmd) = (t, b) →
    (b.busy = false → exec (.weirSchedule m) s = .next (respond { t with weir := { t.weir with sched := none } } 0 b.result.toNat []))
    ∧ (b.busy = true → exec (.weirSchedule m) s = .next { t with weir := { t.weir with sched := some (p, b) } }))
  ∧ (Accepted 0x80 m s → curComp (u 0x80) = p → (getComp s p).st = .running → fld base 0 19 = 0 → insideComp (u 0x80) p base 0x80000 = true → g < 64 →
    argN (u 0x80) 17 7 = 0 → (groupOf s (Fin.ofNat 64 g)).valid = true → (groupOf s (Fin.ofNat 64 g)).compart = compNo p → snapPending (u 0x80) p = false →
    (getActPort s 0).busy = false →
    postRun (u 0x80) 0 false (freshPort (BitVec.ofNat 64 (argN (u 0x80) 0 8)) (BitVec.ofNat 64 (7 + 16 * g))) = (w, b) →
    (b.result = 0 → ∃ v, exec (.snapshot m) s = .next v ∧ ((getComp v p).snap.map fun x => (x.t, x.base, x.group, x.reported))
        = some (BitVec.ofNat 64 (argN (u 0x80) 0 8), base.setWidth 44, BitVec.ofNat 6 g, true))
    ∧ (b.busy = false → b.result = 2 → exec (.snapshot m) s = .next (respond w 4 2 [])))

/-- 09 R264, R265, 15 R363, R378, 18 Table 18.1: a locked core whose stores have drained is logged, noticed and reset, and stays held; the heartbeat
counts each millisecond, and the Lockkeeper has its turn with it (the model's choice, log 5), in which with nothing held or due nothing happens;
without it for 10 ms, or after an uncorrectable error, the Lockkeeper restarts alone, and answers a command that executed with `HW_ERROR`. -/
def Obligations.LockkeeperEvents : Prop := ∀ (c : CoreId) (r : LockRecord) (p : CompId) (cur : CurCmd) (s : State),
  let k := getCore s c
  let Reported (t : State) : Prop := (getCore t c).run = .held ∧ (getCore t c).lockHeld = true ∧ (getCore t c).lock = some r
    ∧ t.log.seq = s.log.seq + 1 ∧ (k.compart ≠ 0 → bit (getComp t (compId k.compart)).notice.bits 0 = true) ∧ (∀ d, d ≠ c → getCore t d = getCore s d)
  (k.lock = some r → k.sq = [] → lkRuns s = true →
    (k.run = .locked → ∃ t, exec (.lockupReport c) s = .next t ∧ Reported t)
    ∧ (k.run = .stub → ∃ t, exec (.recoveryStopReport c) s = .next t ∧ Reported t))
  ∧ (firmwareRuns s = true → s.lk.lastBeat + 1000000 ≤ s.now →
    let t := { s with mbx := { s.mbx with hbeat := s.mbx.hbeat + 1 }, lk := { s.lk with lastBeat := s.now } }
    exec .heartbeat s = .next (lkTurn t) ∧ (s.lk.held = false → (∀ q, (getComp s q).abortDue = false) → lkTurn t = t))
  ∧ (firmwareRuns s = true → s.lk.lastBeat + 10000000 ≤ s.now → ∃ t, exec .lockkeeperRestart s = .next t ∧ t.lk.restarting = true
      ∧ t.lk.stage = none ∧ t.log.seq = s.log.seq + 1 ∧ t.cores = s.cores
      ∧ (∀ a, (getComp t p).abort = some a → a.lost = true))
  ∧ (s.now < s.lk.lastBeat + 10000000 → exec .lockkeeperRestart s = .next s)
  ∧ (s.lk.restarting = true → s.lk.held = false → s.lk.cur = some cur → cur.lost = false →
    (∀ q, (getComp s q).notice.reqBusy = false ∧ (getComp s q).abortDue = false) →
    ∃ t, exec .lockkeeperRestartDone s = .next t ∧ t.lk.restarting = false ∧ t.lk.cur = none ∧ t.mbx.busy = false ∧ t.lk.owed = []
      ∧ t.lk.lastBeat = s.now ∧ t.cores = s.cores)
  ∧ (lkRuns s = true → (∃ t, exec (.lockkeeperSramError true) s = .next t ∧ t.log.seq = s.log.seq + 1 ∧ t.lk.restarting = false)
      ∧ (∃ t, exec (.lockkeeperSramError false) s = .next t ∧ t.lk.restarting = true ∧ t.lk.stage = none))

/-- 18 R427, R430, R431, Table 18.3: log entries go to flash, the oldest of severity 0 giving way in a full log; excess corrected errors of a second are
summed in one entry of their source; an entry is 32 bytes. -/
def Obligations.ErrorLogKept : Prop := ∀ (e : LogEntry) (src n : Nat) (s : State),
  (s.log.sram = [e] → s.log.flash.length < 262144 → exec .logFlashWrite s
    = .next { s with log := { s.log with flash := s.log.flash ++ [e], sram := [] } })
  ∧ (s.log.sram = [e] → s.log.flash.length = 262144 → ∃ t, exec .logFlashWrite s = .next t ∧ t.log.sram = [] ∧ t.log.flash.length = 262144
      ∧ e ∈ t.log.flash ∧ (∀ x ∈ s.log.flash, (∃ y ∈ s.log.flash, y.sev = 0) → x.sev ≠ 0 → x ∈ t.log.flash))
  ∧ (s.log.second + 1000000000 ≤ s.now → s.log.excess = [] → exec .correctedErrorSummary s
    = .next { s with log := { s.log with perSec := [], excess := [], second := s.now } })
  ∧ (s.now < s.log.second + 1000000000 → exec .correctedErrorSummary s = .next s)
  ∧ (s.log.second + 1000000000 ≤ s.now → s.log.excess = [(src, n)] → ∃ t, exec .correctedErrorSummary s = .next t ∧ t.log.seq = s.log.seq + 1 ∧ t.log.excess = [] ∧ t.log.perSec = []
      ∧ (t.log.sram.getLast?.map fun x => (x.cls.toNat, x.sev, x.info)) = some ((sourceClass src).1, 0, BitVec.ofNat 64 (n % 2 ^ 32 * 2 ^ 32)))
  ∧ (entryBytes e).length = 32

/-- 00 R4, 07 R178, 11 R456, 12 R319 to R322, 15 R364, R365, 16 R391, 18 Table 18.1: a register write takes effect by its page: a core reaches its
compartment's pages, and an attempt on another's is logged; the Lockkeeper reaches the control pages; the host its functions and the Max Payload
Size. -/
def Obligations.RegisterWrites : Prop := ∀ (c : CoreId) (k : ClusterId) (p : CompId) (v : W64) (off : Nat) (s : State),
  let m := getMnt s k p
  let page := 0x300000 + 0x10000 * k.val + 0x1000 * p.val
  ((getCore s c).run = .running → (getCore s c).compart = compNo p → p ≠ 0 → m.busy = false → m.queued = false →
    (∃ t, exec (.registerWrite (.core c) page 0xFF v) s = .next t ∧ (getMnt t k p).start = v &&& 0xFFFFFFFFFC0 ∧ t.dram = s.dram)
    ∧ (fld v 0 3 ≠ 0 → ∃ t, exec (.registerWrite (.core c) (page + 0x10) 0xFF v) s = .next t ∧ (getMnt t k p).op = v &&& 0xF
        ∧ ((getMnt t k p).busy || (getMnt t k p).queued) = true ∧ (t.mnt.get k).queue = (s.mnt.get k).queue ++ [p]))
  ∧ ((getCore s c).run = .running → (getCore s c).compart ≠ compNo p → ∃ t, exec (.registerWrite (.core c) page 0xFF v) s = .next t
      ∧ t.mnt = s.mnt ∧ t.log.seq = s.log.seq + 1)
  ∧ (lkRuns s = true → (l2Of s k).st = .off → ∃ t, exec (.registerWrite .lockkeeper (0x400000 + 0x1000 * k.val) 0xFF 4) s = .next t
      ∧ (l2Of t k).st = .on ∧ (l2Of t k).lines = [])
  ∧ (hostReaches s = true →
    (∃ t, exec (.registerWrite .hostPf 0x10 0xFF v) s = .next t ∧ t.mbx.irq = s.mbx.irq &&& ~~~(v.setWidth 3)
        ∧ t.mbx.irqEn = (v >>> 8).setWidth 3 ∧ t.cores = s.cores)
    ∧ (s.mbx.busy = false → smSorted s.mbx.cmd = true → off < 512 → ∃ t, exec (.registerWrite .hostPf (0x1000 + 8 * off) 0xFF v) s = .next t
        ∧ getBytes t.mbx.cmd (8 * off) 8 = leBytes 8 v.toNat ∧ t.comps = s.comps)
    ∧ (s.mbx.busy = true → exec (.registerWrite .hostPf 0x1000 0xFF v) s = .next { s with mbx := { s.mbx with rej := true } })
    ∧ (p ≠ 0 → vfWritable (getComp s p).st = true → ∃ t, exec (.registerWrite (.hostVf p) 0x30 0xFF v) s = .next t
        ∧ (getQp t p 0).cqhead = BitVec.ofNat 12 (v.toNat % 4096)))
  ∧ (configAnswers s = true → v.toNat % 8 ≤ 2 → exec (.registerWrite (.hostConfig .maxPayload) off 0xFF v) s
      = .next { s with pcie := { s.pcie with maxPayload := 128 * 2 ^ (v.toNat % 8) } })
  ∧ (hostReaches s = false → exec (.registerWrite .hostPf (8 * off) 0xFF v) s = .next s)

/-! ## Power, start-up and the outside (17, 19, 20) -/

/-- 19 R435, R436, Tables 19.2, 19.3, 18 R429: the regulator controller from input power to `ON`, its timeouts and trips, and the way down. -/
def Obligations.PowerSequence : Prop := ∀ (d : DevId) (r : Rail) (t : ThermalReading) (s : State),
  (s.pins.input12 = false → ∃ u, exec .inputPowerApplied s = .next u ∧ u.power.reg = .off ∧ u.power.rails = 0 ∧ u.pins.input12 = true)
  ∧ (s.pins.input12 = true → ∃ u, exec .inputPowerRemoved s = .next u ∧ u.power.reg = .off ∧ u.power.rails = 0 ∧ u.pins.input12 = false
      ∧ u.pins.thermtripN = true)
  ∧ (s.pins.pwrgood = false → s.pins.input12 = true → s.power.reg = .off → ∃ u, exec (.pwrgoodRise d) s = .next u ∧ u.power.reg = .ramp
      ∧ u.power.rails = 0 ∧ u.devid = BitVec.ofFin d ∧ u.pins.pwrgood = true)
  ∧ (s.power.reg = .ramp →
    (s.power.rails < 3 → exec .railGood s = .next { s with power := { s.power with rails := s.power.rails + 1 } })
    ∧ (s.power.rails = 3 → exec .railGood s = .next { s with power := { s.power with rails := 4, dramPwrEn := true, since := s.now } })
    ∧ (s.power.rails = 4 → s.pins.dramPg = true → ∃ u, exec .railGood s = .next u ∧ u.power.reg = .on ∧ u.power.rails = 5 ∧ u.lk.boot = .rom)
    ∧ (s.power.rails = 4 → s.pins.dramPg = false → exec .railGood s = .next s)
    ∧ (s.power.rails = 4 → s.pins.dramPg = false → s.power.since + 2500000 ≤ s.now → ∃ u, exec .dramPgTimeout s = .next u
        ∧ u.power.reg = .trip ∧ u.power.tripRec = some 2 ∧ u.power.rails = 0))
  ∧ (s.power.dramPwrEn = true → exec .dramPg s = .next { s with pins := { s.pins with dramPg := true } })
  ∧ (s.power.reg = .on → ∃ u, exec (.railFault r) s = .next u ∧ u.power.reg = .trip ∧ u.power.tripRec = some 2 ∧ u.power.dramPwrEn = false)
  ∧ (s.power.temps = some t → s.power.reg = .on → anyAbove t 1150 = true → ∃ u, exec .thermalTrip s = .next u ∧ u.power.reg = .trip
      ∧ u.power.tripRec = some 1 ∧ u.pins.thermtripN = false)
  ∧ (s.pins.pwrgood = true → s.power.reg = .on ∨ s.power.reg = .ramp → ∃ u, exec .pwrgoodFall s = .next u ∧ u.power.reg = .down
      ∧ u.pins.pwrgood = false ∧ u.pins.ready = false ∧ u.power.since = s.now)

/-- 19 R437 to R439, R446 to R449, 01 R18, R22, 15 R377, 18 R427: cluster clocks change within the profile, fall back and return; the power cap steps
one cluster; the current and the temperature limits hold every cluster on the fallback clock; a sample records what the sensors read. -/
def Obligations.ClocksAndLimits : Prop := ∀ (k : ClusterId) (f ma mv : Nat) (up : Bool) (t : ThermalReading) (r : SensorSample) (s : State),
  let c := (getCl s k).clk
  let calm (t : ThermalReading) : Prop := anyAbove t 1000 = false
  (lkRuns s = true → mayChange s k = true → 16 ≤ f → f ≤ ceilingOf s.lk.profile → ∃ u, exec (.clusterFrequencyChange k f) s = .next u
      ∧ (getCl u k).clk.freq = f ∧ (getCl u k).clk.target = f ∧ (∀ j, j ≠ k → getCl u j = getCl s j) ∧ u.cores = s.cores)
  ∧ (ceilingOf s.lk.profile < f → exec (.clusterFrequencyChange k f) s = .next s)
  ∧ (c.locked = true → ∃ u, exec (.clusterPllLossOfLock k) s = .next u ∧ (getCl u k).clk.locked = false ∧ (getCl u k).clk.fallback = true
      ∧ (getCl u k).clk.freq = 16 ∧ u.log.seq = s.log.seq + 1)
  ∧ (clocksRun s = true → s.lk.boot = .ready → latched s k = false → ∃ u, exec (.clusterPllRelock k) s = .next u ∧ (getCl u k).clk.locked = true
      ∧ (getCl u k).clk.fallback = false ∧ (getCl u k).clk.freq = c.target)
  ∧ (lkRuns s = true → mayChange s k = true → s.power.cap < s.lk.sample.s.power → 16 < c.target → stepsFirst s k = true →
    ∃ u, exec (.powerCapStep k false) s = .next u ∧ (getCl u k).clk.freq = c.target - 1)
  ∧ (lkRuns s = true → mayChange s k = true → s.lk.sample.s.power < s.power.cap → c.target < ceilingOf s.lk.profile → bit s.power.throttle k.val = false →
    ∃ u, exec (.powerCapStep k true) s = .next u ∧ (getCl u k).clk.freq = c.target + 1)
  ∧ (lkRuns s = true → bit s.power.curLatch k.val = true → s.power.overSamples = 0 →
    ∃ u, exec (.powerCapStep k up) s = .next u ∧ bit u.power.curLatch k.val = false)
  ∧ (s.power.reg = .on →
    (ma ≤ 37000 → exec (.currentSample ma) s = .next { s with power := { s.power with overSamples := 0 } })
    ∧ (37000 < ma → 9 ≤ s.power.overSamples → ∃ u, exec (.currentSample ma) s = .next u ∧ u.power.curLatch = 0xFFFF
        ∧ (∀ j, (getCl u j).clk.freq = 16 ∧ (getCl u j).clk.fallback = true)))
  ∧ (s.power.reg = .on → s.pins.resetN = true →
    (anyAbove t 1100 = true → lkRuns s = false → ∃ u, exec (.thermalSample t) s = .next u ∧ u.power.hotLatch = 0xFFFF
        ∧ (∀ j, (getCl u j).clk.freq = 16))
    ∧ (calm t → s.power.hotLatch = 0 → exec (.thermalSample t) s = .next { s with power := { s.power with temps := some t } })
    ∧ (calm t → s.power.hotLatch ≠ 0 → lkRuns s = true → s.power.curLatch = 0 → c.locked = true → ∃ u, exec (.thermalSample t) s = .next u
        ∧ u.power.hotLatch = 0 ∧ (getCl u k).clk.freq = c.target))
  ∧ (lkRuns s = true → s.lk.boot = .ready → s.lk.sample.tick.toNat + 1000000 ≤ (hubTick s).toNat → s.power.throttle = 0 →
    ∃ u, exec (.telemetrySample r) s = .next u ∧ u.lk.sample.s = r ∧ u.lk.sample.tick = hubTick s
      ∧ u.power.cap = min (profileCap s.lk.profile) (37 * r.vin) ∧ u.clusters = s.clusters)
  ∧ (s.power.reg = .on → lkRuns s = true →
    (700 ≤ mv → mv ≤ 950 → mv % 5 = 0 → ∃ u, exec (.regulatorCommand (.setVcore k mv)) s = .next u ∧ (getCl u k).clk.vcore = mv
        ∧ (getCl u k).clk.freq = c.freq)
    ∧ (mv ≤ capLimit s s.lk.profile → exec (.regulatorCommand (.setCap mv)) s = .next { s with power := { s.power with cap := mv } })
    ∧ (capLimit s s.lk.profile < mv → exec (.regulatorCommand (.setCap mv)) s = .next s))

/-- 15 R362, 19 R443 to R445, Table 19.6, 17 R419, 08 R212, R213, 02 R42, 13 R345 to R347: the steps of start-up in their order. -/
def Obligations.StartUp : Prop := ∀ (r : CalResult) (bad : List CoreId) (k : ClusterId) (c : CoreId) (x : Fin 16) (s : State),
  let sel := s.lk.selected
  (s.lk.boot = .rom → clocksRun s = true → s.lk.held = false → s.power.tripRec = none →
    (s.lk.lastFailed = false → bankOk s sel = true → ∃ t, exec .firmwareVerification s = .next t ∧ t.lk.boot = .calibration ∧ t.lk.bank = sel)
    ∧ ((s.lk.lastFailed = true ∨ bankOk s sel = false) → bankOk s (!sel) = true → ∃ t, exec .firmwareVerification s = .next t
        ∧ t.lk.boot = .calibration ∧ t.lk.bank = !sel ∧ t.log.seq = s.log.seq + 1)
    ∧ (bankOk s sel = false → bankOk s (!sel) = false → ∃ t, exec .firmwareVerification s = .next t
        ∧ t.lk.boot = .recovery ∧ t.mbx.recovery = true))
  ∧ (s.lk.restarting = false → clocksRun s = true →
    (s.lk.boot = .calibration → r.failedSub = none → ∃ t, exec (.calibration r) s = .next t ∧ t.lk.boot = .memory ∧ t.weir.lock = true
        ∧ t.weir.cal = r.rootPath ∧ t.dram.rate = rateFrom s.lk.memCfg.rate r.rateSteps ∧ t.dram.units = s.lk.memCfg.units ∧ (getCl t k).clk.locked = true
        ∧ bit t.weir.live s.devid.toNat = r.rootPath)
    ∧ (s.lk.boot = .calibration → r.failedSub = some x → ∃ t, exec (.calibration r) s = .next t ∧ t.lk.boot = .failed ∧ t.dram.rate = rateFrom s.lk.memCfg.rate 2
        ∧ t.log.seq = s.log.seq + 1 ∧ t.pins.ready = s.pins.ready)
    ∧ (s.lk.boot = .memory → exec .memoryInitialisation s
        = .next { s with dram := { s.dram with words := [] }, lk := { s.lk with boot := .microcode } })
    ∧ (s.lk.boot = .microcode → s.lk.ucFlash = [[], []] → ∃ t, exec (.microcodeLoad bad) s = .next t ∧ t.lk.boot = .ready ∧ t.pins.ready = true
        ∧ t.lk.accepted = [none, none] ∧ t.lk.reasons = [0, 0] ∧ ((l2Of s k).st = .off → (l2Of t k).st = .on)
        ∧ (getCore t c).micro.table = [] ∧ (getCore t c).micro.patch = [] ∧ (getCore t c).mcHeld = bad.contains c))

/-- 19 R440 to R442, 20 R453, R454: `RESET_N` low resets every unit, `PERST_N` low the PCIe side; the SMBus port answers the blocks of Table 20.3; JTAG
instructions that drive pins need `RESET_N` low. -/
def Obligations.ResetAndBoardPins : Prop := ∀ (p : CompId) (n : ChanId) (cmd : Byte) (j : JtagInstr) (s : State),
  (∃ t, exec (.resetN false) s = .next t ∧ t.cores = State.reset.cores ∧ t.comps = State.reset.comps ∧ t.engines = State.reset.engines
      ∧ t.weir = State.reset.weir ∧ t.xitex = State.reset.xitex ∧ t.mbx = State.reset.mbx ∧ t.dram.words = [] ∧ t.log.sram = []
      ∧ t.log.seq = s.log.seq ∧ t.power.reg = s.power.reg ∧ t.power.rails = s.power.rails ∧ t.lk.fwBank = s.lk.fwBank ∧ t.lk.ucFlash = s.lk.ucFlash
      ∧ t.lk.key2 = s.lk.key2 ∧ t.devid = s.devid ∧ t.pins.resetN = false)
  ∧ (exec (.resetN true) s = .next { s with pins := { s.pins with resetN := true }, lk := { s.lk with lastBeat := s.now } })
  ∧ (exec (.perstN true) s = .next { s with pins := { s.pins with perstN := true } })
  ∧ (∃ t, exec (.perstN false) s = .next t ∧ t.pcie.trained = false ∧ (getComp t p).vf = VirtFn.reset ∧ (getComp t p).load = none
      ∧ (getComp t p).st = (getComp s p).st ∧ t.cores = s.cores ∧ t.mbx.abRun = 0 ∧ t.mbx.busy = false ∧ t.mbx.irqEn = 0
      ∧ (∀ r, (getChan s n).run = some r → cvLive r = true → cvOp r ≠ 3 → (getChan t n).run = some { r with result := some 3 }))
  ∧ (clocksRun s = true → lkRuns s = true →
    exec (.smbusBlockRead 0x10) s = .next { s with pins := { s.pins with smb := some ((telemetryBytes s).take 32) } }
    ∧ exec (.smbusBlockRead 0x13) s = .next { s with pins := { s.pins with smb := some (((telemetryBytes s).drop 96).take 32) } }
    ∧ exec (.smbusBlockRead 0x20) s = .next { s with pins := { s.pins with smb := some ((statusBytes s).take 32) } }
    ∧ exec (.smbusBlockRead 0x21) s = .next { s with pins := { s.pins with smb := some (((statusBytes s).drop 32).take 24) } })
  ∧ (lkRuns s = false → exec (.smbusBlockRead cmd) s = .next { s with pins := { s.pins with smb := none } })
  ∧ (1 ≤ s.power.rails → exec (.jtagInstruction j) s = .next { s with pins := { s.pins with ir :=
      if s.pins.resetN = true ∧ (j = .extest ∨ j = .extestPulse ∨ j = .extestTrain) then .bypass else j } })

/-- 17 R410, R413, Tables 17.2, 17.4, 17.5, 16 R385, R386, 18 Table 18.1: the first request received is performed at its home: it reads, writes or
compares (on all 72 bits, the model's reading of Table 17.4, log 57) the words of its address and is answered; writes whose card has still to be
copied leave it where it was. One that its device may not make, or that reaches no memory of its compartment, is refused with a status (shown for
`RD_WORD` and `WR_WORD`). A response on a port that may send goes out with the request's device, `TID` and compartment. -/
def Obligations.HomeRequests : Prop := ∀ (x : PortId) (f : Flit) (rest : List (PortId × Flit)) (w : Word) (ws : List Word) (st : BitVec 4) (s v : State),
  let t := { s with xitex := { s.xitex with rxq := rest } }
  let a := wordPa f.pa
  let Takes1 (n : Nat) : Prop := deviceMay t f.compart f.src = true ∧ homeStatus t f n = none
  let Answered (i : Instr) (o : EngOut Unit) : Prop := exec i s = .next (match o with
    | .done _ v => reply v x f 8 0 []
    | .stop n v => reply v x f 8 (n.setWidth 4) []
    | .wait v => stays v x f)
  s.xitex.rxq = (x, f) :: rest →
  (f.typ = 0 → Takes1 1 → wordRead a t = (w, v) → exec .rdWord s = .next (reply v x f 7 0 [w]))
  ∧ (f.typ = 1 → Takes1 8 → homeRead t (lineBase f) 8 = (ws, v) → ws.length = 8 ∧ exec .rdLine s = .next (reply v x f 7 0 ws))
  ∧ (f.typ = 2 → Takes1 (8 * bulkLines f) → homeRead t (lineBase f) (8 * bulkLines f) = (ws, v) →
      ws.length = 8 * (f.nline.toNat + 1) ∧ exec .rdBulk s = .next (reply v x f 7 0 ws))
  ∧ (f.typ = 3 → Takes1 1 → Answered .wrWord
      (homeWrites f.compart [{ pa := a, mask := f.bytemask, w := f.body.headD uninit, tagged := f.bodytag }] t))
  ∧ (f.typ = 4 → Takes1 8 → Answered .wrLine (homeWrites f.compart (bodyWrites f fun i => i < 8 && bit f.wmask i) t))
  ∧ (f.typ = 5 → Takes1 (8 * bulkLines f) → Answered .wrBulk (homeWrites f.compart (bodyWrites f fun i => i < 8 * bulkLines f) t))
  ∧ (f.typ = 6 → Takes1 1 → casRead t f a = (w, v) →
    (f.body[0]? ≠ some w → exec .cas s = .next (reply v x f 8 1 []))
    ∧ (f.body[0]? = some w → Answered .cas (homeWrites f.compart [wholeWrite a (f.body.getD 1 uninit)] v)))
  ∧ (deviceMay t f.compart f.src = true → homeStatus t f 1 = some st →
    (f.typ = 0 → exec .rdWord s = .next (reply t x f 8 st [])) ∧ (f.typ = 3 → exec .wrWord s = .next (reply t x f 8 st [])))
  ∧ (f.typ = 3 → deviceMay t f.compart f.src = false → ∃ u, exec .wrWord s = .next u ∧ u.dram = s.dram ∧ u.log.seq = s.log.seq + 1)
  ∧ (canSend (getPort v x) = true → (getPort v x).queued = [] → ∃ g, (getPort (reply v x f 8 st ws) x).sent = (getPort v x).sent ++ [g]
      ∧ g.typ = 8 ∧ g.dst = f.src ∧ g.src = v.devid ∧ g.tid = f.tid ∧ g.compart = f.compart ∧ g.status = st ∧ g.body = ws
      ∧ g.seq = (getPort v x).txSeq ∧ (getPort (reply v x f 8 st ws) x).txSeq = (getPort v x).txSeq + 1)

/-- 17 R410 to R412, Table 17.5: a response ends its request and reaches the core, the channel or the engine that waits for it; a late one is discarded;
a request without a response after 100 µs fails as a bus error; a message reaches the engines; credits freed let those who wait for one go on. -/
def Obligations.RequesterSide : Prop := ∀ (x : PortId) (f : Flit) (rest : List (PortId × Flit)) (r : Remote) (c : CoreId) (n : ChanId) (k : ClusterId)
    (g : EngGot) (wm : Byte) (nl : BitVec 3) (body : List Word) (tid : BitVec 12) (s : State),
  let t := { s with xitex := { s.xitex with rxq := rest } }
  let Goes (u : State) (a : Option (List Word)) : State := resumeCore c (modCore u c fun k =>
    { k with replay := { k.replay with remote := k.replay.remote ++ [(answerKey r, a)] } })
  let asks := r.user = .engine k .cmd ∧ (getEng s k).got = [g] ∧ g.unit = .cmd ∧ g.comp = r.comp ∧ g.ans = none ∧ g.ask = .access r.typ r.pa wm nl body
  let Got (u : State) (code : Byte) (ws : List Word) : State := modEng u k fun e => { e with got := [{ g with ans := some (code, ws) }] }
  (s.xitex.rxq = (x, f) :: rest →
    (f.typ = 9 → exec .msg s = .next (engineMessage t f.src f.compart (f.body.map (·.payload))))
    ∧ (f.typ = 7 → f.status ≠ 5 → smGet? s.xitex.outstanding f.tid.toNat = none → exec .respData s = .next t)
    ∧ (smGet? s.xitex.outstanding f.tid.toNat = some r → paDev r.pa = f.src →
      (f.typ = 7 → f.status = 0 → r.typ ≠ 6 →
        (r.user = .core c → waitOf s c = some (.remote f.tid) →
          exec .respData s = .next (Goes (dropTid t f.tid.toNat) (some (f.body.map received))))
        ∧ (asks → exec .respData s = .next (Got (dropTid t f.tid.toNat) 0 (f.body.map received))))
      ∧ (f.typ = 8 → f.status = 0 → r.typ = 6 → r.user = .core c → waitOf s c = some (.remote f.tid) →
        exec .respAck s = .next (Goes (dropTid t f.tid.toNat) (some [trueW])))
      ∧ (f.typ = 8 → f.status = 0 → r.user = .sq c → exec .respAck s = .next (dropTid t f.tid.toNat))
      ∧ (f.typ = 8 → f.status = 2 → r.typ ≠ 6 → r.user = .chan n → exec .respAck s = .next (modChan (dropTid t f.tid.toNat) n fun h =>
          { h with run := h.run.map fun y => { y with result := some 2 } }))))
  ∧ (smGet? s.xitex.outstanding tid.toNat = some r →
    (s.now < r.issued + 100000 → exec (.remoteRequestTimeout tid) s = .next s)
    ∧ (r.issued + 100000 ≤ s.now → asks → exec (.remoteRequestTimeout tid) s = .next (Got (dropTid s tid.toNat) 6 []))
    ∧ (r.issued + 100000 ≤ s.now → r.user = .core c → waitOf s c = some (.remote tid) →
        exec (.remoteRequestTimeout tid) s = .next (Goes (dropTid s tid.toNat) none)))
  ∧ ((∀ d, waitOf s d = some .credit → creditsHeld s (getCore s d).compart x ≤ creditsUsed s (getCore s d).compart x) →
      exec (.creditFree x) s = .next s)
  ∧ (exec (.creditFree x) s = .next (resumeWhere (fun d w => w == .credit && decide (creditsUsed s (getCore s d).compart x
      < creditsHeld s (getCore s d).compart x)) s))
  ∧ (c.val = 127 → (∀ d, d ≠ c → waitOf s d ≠ some .credit) → waitOf s c = some .credit →
      creditsUsed s (getCore s c).compart x < creditsHeld s (getCore s c).compart x → exec (.creditFree x) s = .next (resumeCore c s))

/-- 17 R404 to R409, 01 R25, 18 R427: bytes whose `CRC` checks are a flit: one for this device in sequence is accepted, acknowledges and is counted, and
one out of sequence, or bytes that are no flit, are owed a `NAK`; a port that waits for an acknowledgement retrains, and goes down where that fails;
it trains, and enters and leaves standby. -/
def Obligations.LinkLayer : Prop := ∀ (x : PortId) (body trailer : List Byte) (f g : Flit) (r : TrainResult) (s : State),
  let p := getPort s x
  let up := p.trained = true ∧ p.down = false
  (up → parseFlit (body ++ trailer) = none → exec (.flitReceive x body trailer) s = .next (modPort s x fun p => { p with nak := true }))
  ∧ (up → parseFlit (body ++ trailer) = some f → f.nak = false →
    (malformed f = false → f.dst = s.devid → f.seq = p.rxSeq → p.queued = [] → (p.sent = [] ∨ (p.sent = [g] ∧ g.seq = f.ack)) →
      ∃ t, exec (.flitReceive x body trailer) s = .next t ∧ t.xitex.rxq = s.xitex.rxq ++ [(x, f)] ∧ (getPort t x).rxSeq = p.rxSeq + 1
        ∧ (getPort t x).nak = false ∧ (getPort t x).sent = [] ∧ t.xitex.outstanding = s.xitex.outstanding)
    ∧ (f.seq ≠ p.rxSeq → ∃ t, exec (.flitReceive x body trailer) s = .next t ∧ t.xitex.rxq = s.xitex.rxq ∧ (getPort t x).nak = true
        ∧ (getPort t x).rxSeq = p.rxSeq))
  ∧ (up → p.retrain = false → p.sent ≠ [] → ∃ t, exec (.ackTimeout x) s = .next t ∧ (getPort t x).retrain = true ∧ (getPort t x).sent = p.sent)
  ∧ (p.retrain = true → p.queued = [] →
    exec (.linkRetrainComplete x true) s = .next (modPort s x fun p => { p with retrain := false, fails := 0 })
    ∧ ∃ t, exec (.linkRetrainComplete x false) s = .next t ∧ (getPort t x).down = true ∧ (getPort t x).sent = [] ∧ t.log.seq = s.log.seq + 1)
  ∧ (p.training = true → trainFails s x r = false → p.trained = false → p.queued = [] → ∃ t, exec (.linkTrained x r) s = .next t
      ∧ (getPort t x).trained = true ∧ (getPort t x).width = r.width ∧ (getPort t x).peer = BitVec.ofFin r.peer ∧ (getPort t x).training = false
      ∧ (getPort t x).txSeq = 0 ∧ (getPort t x).rxSeq = 0 ∧ (getPort t x).down = false)
  ∧ (p.training = true → trainFails s x r = true → p.trained = false → ∃ t, exec (.linkTrained x r) s = .next t ∧ (getPort t x).trained = false
      ∧ (getPort t x).training = false)
  ∧ (canSend p = true → p.sent = [] → p.queued = [] → standbyAgreed s x = true → exec (.standbyEntry x) s
      = .next (modPort s x fun p => { p with standby := true }))
  ∧ (p.standby = true → p.queued ≠ [] → exec (.standbyWake x) s = .next (modPort s x fun p => { p with standby := false, waking := true }))
  ∧ (p.waking = true → canSend { p with waking := false } = true → p.queued = [f] → exec (.standbyWakeComplete x) s
      = .next (modPort s x fun p => { p with waking := false, queued := [], txSeq := p.txSeq + 1, nak := false
                                             sent := p.sent ++ [{ f with seq := p.txSeq, ack := p.rxSeq - 1, nak := p.nak }] }))

/-- 16 R396 to R400, 02 R59, R60, 17 R415, R416, 18 R428: a channel's `TAIL` is stored, a bit at or above `LOG2N` being a ring error; a fetched
descriptor waits for its tick; one that reads the host asks for the rest of its source (shown where that lies in one line); the last word of a
descriptor is moved (in each of the three directions, between local memory and `BYTES` of the host) and ends it; a descriptor with a result
completes; the host side's failures end it with code 3; the port trains, at a rate and width that are free values (log 3). 16 R391 to R394: the
queue pairs of a function take pointers from either side; a changed completion tail, `VF_HOSTIRQ` and a changed state signal their vectors: the
message of a vector that is not masked is posted, and a masked one stands in the pending-bit array (log 23). -/
def Obligations.HostDataPath : Prop :=
  (∀ (n : ChanId) (p : CompId) (r : CvRun) (data : List Byte) (v : W64) (w : Word) (code : Byte) (x : HostRead)
    (s t u : State),
  let h := getChan s n
  let b := putRun s n r
  let src := cvAt (cvSrc r) r.doneW
  let dst := cvAt (cvDst r) r.doneW
  let from' := cvSrc r + BitVec.ofNat 64 r.issued
  let total := cvCount r * cvRec r
  let last := h.run = some r ∧ cvLive r = true ∧ h.stopped = false ∧ r.doneW + 1 = cvCount r ∧ r.poisoned = none
  let Done (t : State) (words : CvRun) : Prop := (getChan t n).run = some { words with doneW := r.doneW + 1, result := some 0 }
  exec (.cvTail n v) s = .next (if 2 ^ h.log2n.toNat ≤ fld v 0 12
    then modChan s n fun h => { h with tail := BitVec.ofNat 12 (fld v 0 12), rerr := true, en := false }
    else modChan s n fun h => { h with tail := BitVec.ofNat 12 (fld v 0 12) })
  ∧ (h.run = none → cvFetch s n = .got r t → r.result = none → r.started = false → cvOp r = 1 → nbtPassed t r = false →
      ∃ y, exec (.hostToDevice n) s = .next y ∧ (getChan y n).run = some r ∧ (getChan y n).nbwait = true ∧ y.dram = t.dram)
  ∧ (h.run = some r → h.nbwait = true → nbtPassed s r = true → ∃ y, exec (.nbt n) s = .next y ∧ ((getChan y n).run.map (·.started)) = some true
      ∧ (getChan y n).nbwait = false)
  ∧ (h.run = some r → cvLive r = true → cvOp r = 1 → r.pendingBytes = [] → r.doneW ≠ cvCount r → h.stopped = false → s.pcie.trained = true →
      r.issued < total → total - r.issued ≤ 64 - fld from' 0 6 → (chanReads s n).length < 64 →
      (s.pcie.reads.filter fun x => x.fn == chanOwner s n).length < 256 →
      ∃ y, exec (.hostToDevice n) s = .next y ∧ (getChan y n).run = some { r with issued := total } ∧ y.dram = s.dram
        ∧ y.pcie.reads = s.pcie.reads ++ [{ fn := chanOwner s n, chan := some n, addr := from', len := total - r.issued, issued := s.now }])
  ∧ (last → cvOp r = 1 → cvFmt r = 0 → data.length = 8 → chanReads s n = [x] → x.len = 8 → r.pendingBytes = [] → paDev dst = s.devid →
      cvStoreLocal n dst [⟨0x06, BitVec.ofNat 64 (ofLe data)⟩] { s with pcie := { s.pcie with reads := takeReads n 8 s.pcie.reads } } = .ok () t →
      getChan t n = h → ∃ y, exec (.pcieCompletion n data false) s = .next y ∧ Done y { r with tainted := false } ∧ y.dram = t.dram)
  ∧ (last → cvOp r = 2 → cvFmt r = 0 → s.pcie.trained = true → paDev src = s.devid → cvLoad n src b = (w, t) → w.tag ≠ 0x08 → 8 ≤ t.pcie.maxPayload →
      ∃ y, exec (.deviceToHost n) s = .next y ∧ Done y { r with ask := none, got := none } ∧ y.dram = t.dram
        ∧ y.pcie.posted = t.pcie.posted ++ [.data (chanOwner t n) (cvDst r + BitVec.ofNat 64 (r.doneW * 8)) (leBytes 8 w.payload.toNat)])
  ∧ (last → cvOp r = 3 → paDev src = s.devid → paDev dst = s.devid → cvLoad n src b = (w, t) → t.devid = s.devid →
      cvStoreLocal n dst [w] t = .ok () u → ∃ y, exec (.deviceToDevice n) s = .next y ∧ Done y { r with ask := none, got := none } ∧ y.dram = u.dram)
  ∧ (h.run = some r → r.result = some code → cvOutstanding s n = false → ∃ y, exec (.descriptorComplete n) s = .next y
      ∧ (getChan y n).run = none ∧ (getChan y n).head = BitVec.ofNat 12 ((h.head.toNat + 1) % 2 ^ h.log2n.toNat)
      ∧ (getChan y n).en = (h.en && code == 0) ∧ (getChan y n).lasterr = (if code = 0 then h.lasterr else code)
      ∧ bit (getChan y n).irq 0 = (bit h.irq 0 || bit (cvWord r 0) 11) ∧ bit (getChan y n).irq 1 = (bit h.irq 1 || code != 0))
  ∧ (h.run = some r → cvLive r = true → cvOp r = 1 →
    (x ∈ chanReads s n → x.issued + 500000 ≤ s.now → ∃ y, exec (.completionTimeout n) s = .next y
      ∧ (getChan y n).run = some { r with result := some 3 } ∧ y.log.seq = s.log.seq + 1)
    ∧ (chanOwner s n = p → ∃ y, exec (.pcieError p (.completion n)) s = .next y ∧ (getChan y n).run = some { r with result := some 3 })
    ∧ (∃ y, exec (.pcieError p .fatal) s = .next y ∧ (getChan y n).run = some { r with result := some 3 } ∧ y.pcie.trained = false)
    ∧ (p ≠ 0 → hostReaches s = true → bit (getComp s p).res.culvert n.val = true → ∃ y, exec (.vfFlr p) s = .next y ∧ (getComp y p).vf = VirtFn.reset
        ∧ (getChan y n).run = some { r with result := some 3 } ∧ y.cores = s.cores))
  ∧ (∃ y, exec (.pcieError p .correctable) s = .next y ∧ y.log.seq = s.log.seq + 1 ∧ y.chans = s.chans ∧ y.pcie.trained = s.pcie.trained)
  ∧ (s.power.reg = .on → s.pins.perstN = true → s.pins.resetN = true → exec .pcieTraining s = .next { s with
      free := s.free + 1
      pcie := { s.pcie with trained := true, rate := BitVec.ofNat 3 ((Config.pcieRate s.free).val + 1), width := laneCount (Config.pcieWidth s.free) } }))
  ∧ (∀ (p : CompId) (q : QpId) (v : W64) (i : Fin 32) (st : CState) (s : State),
  let x := getQp s p q
  let tail : BitVec 12 := BitVec.ofNat 12 (v.toNat % 4096)
  let put := modQp s p q fun x => { x with cqtail := tail }
  (p ≠ 0 → hostReaches s = true → vfWritable (getComp s p).st = true → exec (.qpSqtail p q v) s
      = .next (modQp s p q fun x => { x with sqtail := BitVec.ofNat 12 (v.toNat % 4096 % 2 ^ x.sqlog2.toNat) }))
  ∧ (hostReaches s = false ∨ vfWritable (getComp s p).st = false → exec (.qpSqtail p q v) s = .next s)
  ∧ exec (.qpSqhead p q v) s = .next (modQp s p q fun x => { x with sqhead := tail })
  ∧ exec (.qpCqtail p q v) s = .next (if x.cqtail ≠ tail ∧ x.cqirq = true then signal put p q.val else put)
  ∧ ((getComp s p).st ≠ st → setCompState s p st = signal (modComp s p fun k => { k with st := st }) p 31)
  ∧ exec (.vfHostirq p v) s
      = .next (if bit v 8 = true ∧ 8 ≤ v.toNat % 32 ∧ v.toNat % 32 ≤ 30 then signal s p (v.toNat % 32) else s)
  ∧ (bit (msixCtl s p i.val) 32 = false → signal s p i.val = { s with pcie := { s.pcie with posted := s.pcie.posted ++ [.msix p i.val] } })
  ∧ (p ≠ 0 → bit (msixCtl s p i.val) 32 = true → (signal s p i.val).pcie = s.pcie ∧ bit (getComp (signal s p i.val) p).vf.msixPend i.val = true))
end

