-- ==== Sys2Proof/Laws/State.lean ====
section
/-! SUPPORT. What the updates of the state leave alone: one lemma per field, and what they put in place. -/

namespace Sys2Proof.Machine

theorem vget_eq {α : Type} {n : Nat} (v : Vector α n) (i : Fin n) : v.get i = v[i.val] := rfl

@[simp] theorem vget_set {α : Type} {n : Nat} (v : Vector α n) (i : Fin n) (x : α) : (v.set i.val x i.isLt).get i = x := by
  simp [vget_eq]

theorem vget_set_of_ne {α : Type} {n : Nat} (v : Vector α n) (i j : Fin n) (x : α) (h : j ≠ i) :
    (v.set i.val x i.isLt).get j = v.get j := by
  have : i.val ≠ j.val := fun e => h (Fin.ext e.symm)
  simp [vget_eq, this]

section

variable (s : State) (c d : CoreId) (f : Core → Core)

@[simp] theorem getCore_modCore : getCore (modCore s c f) c = f (getCore s c) := vget_set _ _ _

theorem getCore_modCore_of_ne (h : d ≠ c) : getCore (modCore s c f) d = getCore s d :=
  vget_set_of_ne _ _ _ _ h

theorem modCore_modCore (g : Core → Core) : modCore (modCore s c f) c g = modCore s c (fun k => g (f k)) := by
  simp [modCore]

@[simp] theorem modCore_clusters : (modCore s c f).clusters = s.clusters := rfl
@[simp] theorem modCore_engines : (modCore s c f).engines = s.engines := rfl
@[simp] theorem modCore_mnt : (modCore s c f).mnt = s.mnt := rfl
@[simp] theorem modCore_comps : (modCore s c f).comps = s.comps := rfl
@[simp] theorem modCore_timers : (modCore s c f).timers = s.timers := rfl
@[simp] theorem modCore_timerActs : (modCore s c f).timerActs = s.timerActs := rfl
@[simp] theorem modCore_chans : (modCore s c f).chans = s.chans := rfl
@[simp] theorem modCore_weir : (modCore s c f).weir = s.weir := rfl
@[simp] theorem modCore_xitex : (modCore s c f).xitex = s.xitex := rfl
@[simp] theorem modCore_dram : (modCore s c f).dram = s.dram := rfl
@[simp] theorem modCore_log : (modCore s c f).log = s.log := rfl
@[simp] theorem modCore_mbx : (modCore s c f).mbx = s.mbx := rfl
@[simp] theorem modCore_lk : (modCore s c f).lk = s.lk := rfl
@[simp] theorem modCore_power : (modCore s c f).power = s.power := rfl
@[simp] theorem modCore_pins : (modCore s c f).pins = s.pins := rfl
@[simp] theorem modCore_pcie : (modCore s c f).pcie = s.pcie := rfl
@[simp] theorem modCore_answers : (modCore s c f).answers = s.answers := rfl
@[simp] theorem modCore_bcast : (modCore s c f).bcast = s.bcast := rfl
@[simp] theorem modCore_devid : (modCore s c f).devid = s.devid := rfl
@[simp] theorem modCore_now : (modCore s c f).now = s.now := rfl
@[simp] theorem modCore_free : (modCore s c f).free = s.free := rfl
@[simp] theorem modCore_pending : (modCore s c f).pending = s.pending := rfl

end

section

variable (s : State) (k j : ClusterId) (f : Cluster → Cluster)

@[simp] theorem getCl_modCl : getCl (modCl s k f) k = f (getCl s k) := vget_set _ _ _

theorem getCl_modCl_of_ne (h : j ≠ k) : getCl (modCl s k f) j = getCl s j :=
  vget_set_of_ne _ _ _ _ h

@[simp] theorem modCl_cores : (modCl s k f).cores = s.cores := rfl
@[simp] theorem modCl_engines : (modCl s k f).engines = s.engines := rfl
@[simp] theorem modCl_mnt : (modCl s k f).mnt = s.mnt := rfl
@[simp] theorem modCl_comps : (modCl s k f).comps = s.comps := rfl
@[simp] theorem modCl_timers : (modCl s k f).timers = s.timers := rfl
@[simp] theorem modCl_timerActs : (modCl s k f).timerActs = s.timerActs := rfl
@[simp] theorem modCl_chans : (modCl s k f).chans = s.chans := rfl
@[simp] theorem modCl_weir : (modCl s k f).weir = s.weir := rfl
@[simp] theorem modCl_xitex : (modCl s k f).xitex = s.xitex := rfl
@[simp] theorem modCl_dram : (modCl s k f).dram = s.dram := rfl
@[simp] theorem modCl_log : (modCl s k f).log = s.log := rfl
@[simp] theorem modCl_mbx : (modCl s k f).mbx = s.mbx := rfl
@[simp] theorem modCl_lk : (modCl s k f).lk = s.lk := rfl
@[simp] theorem modCl_power : (modCl s k f).power = s.power := rfl
@[simp] theorem modCl_pins : (modCl s k f).pins = s.pins := rfl
@[simp] theorem modCl_pcie : (modCl s k f).pcie = s.pcie := rfl
@[simp] theorem modCl_answers : (modCl s k f).answers = s.answers := rfl
@[simp] theorem modCl_bcast : (modCl s k f).bcast = s.bcast := rfl
@[simp] theorem modCl_devid : (modCl s k f).devid = s.devid := rfl
@[simp] theorem modCl_now : (modCl s k f).now = s.now := rfl
@[simp] theorem modCl_free : (modCl s k f).free = s.free := rfl
@[simp] theorem modCl_pending : (modCl s k f).pending = s.pending := rfl

end

section

variable (s : State) (k j : ClusterId) (f : Engine → Engine)

@[simp] theorem getEng_modEng : getEng (modEng s k f) k = f (getEng s k) := vget_set _ _ _

theorem getEng_modEng_of_ne (h : j ≠ k) : getEng (modEng s k f) j = getEng s j :=
  vget_set_of_ne _ _ _ _ h

@[simp] theorem modEng_cores : (modEng s k f).cores = s.cores := rfl
@[simp] theorem modEng_clusters : (modEng s k f).clusters = s.clusters := rfl
@[simp] theorem modEng_mnt : (modEng s k f).mnt = s.mnt := rfl
@[simp] theorem modEng_comps : (modEng s k f).comps = s.comps := rfl
@[simp] theorem modEng_timers : (modEng s k f).timers = s.timers := rfl
@[simp] theorem modEng_timerActs : (modEng s k f).timerActs = s.timerActs := rfl
@[simp] theorem modEng_chans : (modEng s k f).chans = s.chans := rfl
@[simp] theorem modEng_weir : (modEng s k f).weir = s.weir := rfl
@[simp] theorem modEng_xitex : (modEng s k f).xitex = s.xitex := rfl
@[simp] theorem modEng_dram : (modEng s k f).dram = s.dram := rfl
@[simp] theorem modEng_log : (modEng s k f).log = s.log := rfl
@[simp] theorem modEng_mbx : (modEng s k f).mbx = s.mbx := rfl
@[simp] theorem modEng_lk : (modEng s k f).lk = s.lk := rfl
@[simp] theorem modEng_power : (modEng s k f).power = s.power := rfl
@[simp] theorem modEng_pins : (modEng s k f).pins = s.pins := rfl
@[simp] theorem modEng_pcie : (modEng s k f).pcie = s.pcie := rfl
@[simp] theorem modEng_answers : (modEng s k f).answers = s.answers := rfl
@[simp] theorem modEng_bcast : (modEng s k f).bcast = s.bcast := rfl
@[simp] theorem modEng_devid : (modEng s k f).devid = s.devid := rfl
@[simp] theorem modEng_now : (modEng s k f).now = s.now := rfl
@[simp] theorem modEng_free : (modEng s k f).free = s.free := rfl
@[simp] theorem modEng_pending : (modEng s k f).pending = s.pending := rfl

end

section

variable (s : State) (k j : ClusterId) (f : MntEngine → MntEngine)

@[simp] theorem modMntEng_cores : (modMntEng s k f).cores = s.cores := rfl
@[simp] theorem modMntEng_clusters : (modMntEng s k f).clusters = s.clusters := rfl
@[simp] theorem modMntEng_engines : (modMntEng s k f).engines = s.engines := rfl
@[simp] theorem modMntEng_comps : (modMntEng s k f).comps = s.comps := rfl
@[simp] theorem modMntEng_timers : (modMntEng s k f).timers = s.timers := rfl
@[simp] theorem modMntEng_timerActs : (modMntEng s k f).timerActs = s.timerActs := rfl
@[simp] theorem modMntEng_chans : (modMntEng s k f).chans = s.chans := rfl
@[simp] theorem modMntEng_weir : (modMntEng s k f).weir = s.weir := rfl
@[simp] theorem modMntEng_xitex : (modMntEng s k f).xitex = s.xitex := rfl
@[simp] theorem modMntEng_dram : (modMntEng s k f).dram = s.dram := rfl
@[simp] theorem modMntEng_log : (modMntEng s k f).log = s.log := rfl
@[simp] theorem modMntEng_mbx : (modMntEng s k f).mbx = s.mbx := rfl
@[simp] theorem modMntEng_lk : (modMntEng s k f).lk = s.lk := rfl
@[simp] theorem modMntEng_power : (modMntEng s k f).power = s.power := rfl
@[simp] theorem modMntEng_pins : (modMntEng s k f).pins = s.pins := rfl
@[simp] theorem modMntEng_pcie : (modMntEng s k f).pcie = s.pcie := rfl
@[simp] theorem modMntEng_answers : (modMntEng s k f).answers = s.answers := rfl
@[simp] theorem modMntEng_bcast : (modMntEng s k f).bcast = s.bcast := rfl
@[simp] theorem modMntEng_devid : (modMntEng s k f).devid = s.devid := rfl
@[simp] theorem modMntEng_now : (modMntEng s k f).now = s.now := rfl
@[simp] theorem modMntEng_free : (modMntEng s k f).free = s.free := rfl
@[simp] theorem modMntEng_pending : (modMntEng s k f).pending = s.pending := rfl

end

section

variable (s : State) (k j : CompId) (f : Comp → Comp)

@[simp] theorem getComp_modComp : getComp (modComp s k f) k = f (getComp s k) := vget_set _ _ _

theorem getComp_modComp_of_ne (h : j ≠ k) : getComp (modComp s k f) j = getComp s j :=
  vget_set_of_ne _ _ _ _ h

@[simp] theorem modComp_cores : (modComp s k f).cores = s.cores := rfl
@[simp] theorem modComp_clusters : (modComp s k f).clusters = s.clusters := rfl
@[simp] theorem modComp_engines : (modComp s k f).engines = s.engines := rfl
@[simp] theorem modComp_mnt : (modComp s k f).mnt = s.mnt := rfl
@[simp] theorem modComp_timers : (modComp s k f).timers = s.timers := rfl
@[simp] theorem modComp_timerActs : (modComp s k f).timerActs = s.timerActs := rfl
@[simp] theorem modComp_chans : (modComp s k f).chans = s.chans := rfl
@[simp] theorem modComp_weir : (modComp s k f).weir = s.weir := rfl
@[simp] theorem modComp_xitex : (modComp s k f).xitex = s.xitex := rfl
@[simp] theorem modComp_dram : (modComp s k f).dram = s.dram := rfl
@[simp] theorem modComp_log : (modComp s k f).log = s.log := rfl
@[simp] theorem modComp_mbx : (modComp s k f).mbx = s.mbx := rfl
@[simp] theorem modComp_lk : (modComp s k f).lk = s.lk := rfl
@[simp] theorem modComp_power : (modComp s k f).power = s.power := rfl
@[simp] theorem modComp_pins : (modComp s k f).pins = s.pins := rfl
@[simp] theorem modComp_pcie : (modComp s k f).pcie = s.pcie := rfl
@[simp] theorem modComp_answers : (modComp s k f).answers = s.answers := rfl
@[simp] theorem modComp_bcast : (modComp s k f).bcast = s.bcast := rfl
@[simp] theorem modComp_devid : (modComp s k f).devid = s.devid := rfl
@[simp] theorem modComp_now : (modComp s k f).now = s.now := rfl
@[simp] theorem modComp_free : (modComp s k f).free = s.free := rfl
@[simp] theorem modComp_pending : (modComp s k f).pending = s.pending := rfl

end

section

variable (s : State) (k j : TimerId) (f : Timer → Timer)

@[simp] theorem getTimer_modTimer : getTimer (modTimer s k f) k = f (getTimer s k) := vget_set _ _ _

theorem getTimer_modTimer_of_ne (h : j ≠ k) : getTimer (modTimer s k f) j = getTimer s j :=
  vget_set_of_ne _ _ _ _ h

@[simp] theorem modTimer_cores : (modTimer s k f).cores = s.cores := rfl
@[simp] theorem modTimer_clusters : (modTimer s k f).clusters = s.clusters := rfl
@[simp] theorem modTimer_engines : (modTimer s k f).engines = s.engines := rfl
@[simp] theorem modTimer_mnt : (modTimer s k f).mnt = s.mnt := rfl
@[simp] theorem modTimer_comps : (modTimer s k f).comps = s.comps := rfl
@[simp] theorem modTimer_timerActs : (modTimer s k f).timerActs = s.timerActs := rfl
@[simp] theorem modTimer_chans : (modTimer s k f).chans = s.chans := rfl
@[simp] theorem modTimer_weir : (modTimer s k f).weir = s.weir := rfl
@[simp] theorem modTimer_xitex : (modTimer s k f).xitex = s.xitex := rfl
@[simp] theorem modTimer_dram : (modTimer s k f).dram = s.dram := rfl
@[simp] theorem modTimer_log : (modTimer s k f).log = s.log := rfl
@[simp] theorem modTimer_mbx : (modTimer s k f).mbx = s.mbx := rfl
@[simp] theorem modTimer_lk : (modTimer s k f).lk = s.lk := rfl
@[simp] theorem modTimer_power : (modTimer s k f).power = s.power := rfl
@[simp] theorem modTimer_pins : (modTimer s k f).pins = s.pins := rfl
@[simp] theorem modTimer_pcie : (modTimer s k f).pcie = s.pcie := rfl
@[simp] theorem modTimer_answers : (modTimer s k f).answers = s.answers := rfl
@[simp] theorem modTimer_bcast : (modTimer s k f).bcast = s.bcast := rfl
@[simp] theorem modTimer_devid : (modTimer s k f).devid = s.devid := rfl
@[simp] theorem modTimer_now : (modTimer s k f).now = s.now := rfl
@[simp] theorem modTimer_free : (modTimer s k f).free = s.free := rfl
@[simp] theorem modTimer_pending : (modTimer s k f).pending = s.pending := rfl

end

section

variable (s : State) (k j : ChanId) (f : Channel → Channel)

@[simp] theorem getChan_modChan : getChan (modChan s k f) k = f (getChan s k) := vget_set _ _ _

theorem getChan_modChan_of_ne (h : j ≠ k) : getChan (modChan s k f) j = getChan s j :=
  vget_set_of_ne _ _ _ _ h

@[simp] theorem modChan_cores : (modChan s k f).cores = s.cores := rfl
@[simp] theorem modChan_clusters : (modChan s k f).clusters = s.clusters := rfl
@[simp] theorem modChan_engines : (modChan s k f).engines = s.engines := rfl
@[simp] theorem modChan_mnt : (modChan s k f).mnt = s.mnt := rfl
@[simp] theorem modChan_comps : (modChan s k f).comps = s.comps := rfl
@[simp] theorem modChan_timers : (modChan s k f).timers = s.timers := rfl
@[simp] theorem modChan_timerActs : (modChan s k f).timerActs = s.timerActs := rfl
@[simp] theorem modChan_weir : (modChan s k f).weir = s.weir := rfl
@[simp] theorem modChan_xitex : (modChan s k f).xitex = s.xitex := rfl
@[simp] theorem modChan_dram : (modChan s k f).dram = s.dram := rfl
@[simp] theorem modChan_log : (modChan s k f).log = s.log := rfl
@[simp] theorem modChan_mbx : (modChan s k f).mbx = s.mbx := rfl
@[simp] theorem modChan_lk : (modChan s k f).lk = s.lk := rfl
@[simp] theorem modChan_power : (modChan s k f).power = s.power := rfl
@[simp] theorem modChan_pins : (modChan s k f).pins = s.pins := rfl
@[simp] theorem modChan_pcie : (modChan s k f).pcie = s.pcie := rfl
@[simp] theorem modChan_answers : (modChan s k f).answers = s.answers := rfl
@[simp] theorem modChan_bcast : (modChan s k f).bcast = s.bcast := rfl
@[simp] theorem modChan_devid : (modChan s k f).devid = s.devid := rfl
@[simp] theorem modChan_now : (modChan s k f).now = s.now := rfl
@[simp] theorem modChan_free : (modChan s k f).free = s.free := rfl
@[simp] theorem modChan_pending : (modChan s k f).pending = s.pending := rfl

end

section

variable (s : State) (k : ClusterId) (p : CompId) (f : Perc → Perc)

@[simp] theorem modPerc_cores : (modPerc s k p f).cores = s.cores := rfl
@[simp] theorem modPerc_clusters : (modPerc s k p f).clusters = s.clusters := rfl
@[simp] theorem modPerc_mnt : (modPerc s k p f).mnt = s.mnt := rfl
@[simp] theorem modPerc_comps : (modPerc s k p f).comps = s.comps := rfl
@[simp] theorem modPerc_timers : (modPerc s k p f).timers = s.timers := rfl
@[simp] theorem modPerc_timerActs : (modPerc s k p f).timerActs = s.timerActs := rfl
@[simp] theorem modPerc_chans : (modPerc s k p f).chans = s.chans := rfl
@[simp] theorem modPerc_weir : (modPerc s k p f).weir = s.weir := rfl
@[simp] theorem modPerc_xitex : (modPerc s k p f).xitex = s.xitex := rfl
@[simp] theorem modPerc_dram : (modPerc s k p f).dram = s.dram := rfl
@[simp] theorem modPerc_log : (modPerc s k p f).log = s.log := rfl
@[simp] theorem modPerc_mbx : (modPerc s k p f).mbx = s.mbx := rfl
@[simp] theorem modPerc_lk : (modPerc s k p f).lk = s.lk := rfl
@[simp] theorem modPerc_power : (modPerc s k p f).power = s.power := rfl
@[simp] theorem modPerc_pins : (modPerc s k p f).pins = s.pins := rfl
@[simp] theorem modPerc_pcie : (modPerc s k p f).pcie = s.pcie := rfl
@[simp] theorem modPerc_answers : (modPerc s k p f).answers = s.answers := rfl
@[simp] theorem modPerc_bcast : (modPerc s k p f).bcast = s.bcast := rfl
@[simp] theorem modPerc_devid : (modPerc s k p f).devid = s.devid := rfl
@[simp] theorem modPerc_now : (modPerc s k p f).now = s.now := rfl
@[simp] theorem modPerc_free : (modPerc s k p f).free = s.free := rfl
@[simp] theorem modPerc_pending : (modPerc s k p f).pending = s.pending := rfl

end

section

variable (s : State) (k : ClusterId) (p : CompId) (f : Mnt → Mnt)

@[simp] theorem modMnt_cores : (modMnt s k p f).cores = s.cores := rfl
@[simp] theorem modMnt_clusters : (modMnt s k p f).clusters = s.clusters := rfl
@[simp] theorem modMnt_engines : (modMnt s k p f).engines = s.engines := rfl
@[simp] theorem modMnt_comps : (modMnt s k p f).comps = s.comps := rfl
@[simp] theorem modMnt_timers : (modMnt s k p f).timers = s.timers := rfl
@[simp] theorem modMnt_timerActs : (modMnt s k p f).timerActs = s.timerActs := rfl
@[simp] theorem modMnt_chans : (modMnt s k p f).chans = s.chans := rfl
@[simp] theorem modMnt_weir : (modMnt s k p f).weir = s.weir := rfl
@[simp] theorem modMnt_xitex : (modMnt s k p f).xitex = s.xitex := rfl
@[simp] theorem modMnt_dram : (modMnt s k p f).dram = s.dram := rfl
@[simp] theorem modMnt_log : (modMnt s k p f).log = s.log := rfl
@[simp] theorem modMnt_mbx : (modMnt s k p f).mbx = s.mbx := rfl
@[simp] theorem modMnt_lk : (modMnt s k p f).lk = s.lk := rfl
@[simp] theorem modMnt_power : (modMnt s k p f).power = s.power := rfl
@[simp] theorem modMnt_pins : (modMnt s k p f).pins = s.pins := rfl
@[simp] theorem modMnt_pcie : (modMnt s k p f).pcie = s.pcie := rfl
@[simp] theorem modMnt_answers : (modMnt s k p f).answers = s.answers := rfl
@[simp] theorem modMnt_bcast : (modMnt s k p f).bcast = s.bcast := rfl
@[simp] theorem modMnt_devid : (modMnt s k p f).devid = s.devid := rfl
@[simp] theorem modMnt_now : (modMnt s k p f).now = s.now := rfl
@[simp] theorem modMnt_free : (modMnt s k p f).free = s.free := rfl
@[simp] theorem modMnt_pending : (modMnt s k p f).pending = s.pending := rfl

end

section

variable (s : State) (k : PortId) (f : Port → Port)

@[simp] theorem modPort_cores : (modPort s k f).cores = s.cores := rfl
@[simp] theorem modPort_clusters : (modPort s k f).clusters = s.clusters := rfl
@[simp] theorem modPort_engines : (modPort s k f).engines = s.engines := rfl
@[simp] theorem modPort_mnt : (modPort s k f).mnt = s.mnt := rfl
@[simp] theorem modPort_comps : (modPort s k f).comps = s.comps := rfl
@[simp] theorem modPort_timers : (modPort s k f).timers = s.timers := rfl
@[simp] theorem modPort_timerActs : (modPort s k f).timerActs = s.timerActs := rfl
@[simp] theorem modPort_chans : (modPort s k f).chans = s.chans := rfl
@[simp] theorem modPort_weir : (modPort s k f).weir = s.weir := rfl
@[simp] theorem modPort_dram : (modPort s k f).dram = s.dram := rfl
@[simp] theorem modPort_log : (modPort s k f).log = s.log := rfl
@[simp] theorem modPort_mbx : (modPort s k f).mbx = s.mbx := rfl
@[simp] theorem modPort_lk : (modPort s k f).lk = s.lk := rfl
@[simp] theorem modPort_power : (modPort s k f).power = s.power := rfl
@[simp] theorem modPort_pins : (modPort s k f).pins = s.pins := rfl
@[simp] theorem modPort_pcie : (modPort s k f).pcie = s.pcie := rfl
@[simp] theorem modPort_answers : (modPort s k f).answers = s.answers := rfl
@[simp] theorem modPort_bcast : (modPort s k f).bcast = s.bcast := rfl
@[simp] theorem modPort_devid : (modPort s k f).devid = s.devid := rfl
@[simp] theorem modPort_now : (modPort s k f).now = s.now := rfl
@[simp] theorem modPort_free : (modPort s k f).free = s.free := rfl
@[simp] theorem modPort_pending : (modPort s k f).pending = s.pending := rfl

end

section

variable (s : State) (k : CompId) (f : ActPort → ActPort)

@[simp] theorem modActPort_cores : (modActPort s k f).cores = s.cores := rfl
@[simp] theorem modActPort_clusters : (modActPort s k f).clusters = s.clusters := rfl
@[simp] theorem modActPort_engines : (modActPort s k f).engines = s.engines := rfl
@[simp] theorem modActPort_mnt : (modActPort s k f).mnt = s.mnt := rfl
@[simp] theorem modActPort_comps : (modActPort s k f).comps = s.comps := rfl
@[simp] theorem modActPort_timers : (modActPort s k f).timers = s.timers := rfl
@[simp] theorem modActPort_timerActs : (modActPort s k f).timerActs = s.timerActs := rfl
@[simp] theorem modActPort_chans : (modActPort s k f).chans = s.chans := rfl
@[simp] theorem modActPort_xitex : (modActPort s k f).xitex = s.xitex := rfl
@[simp] theorem modActPort_dram : (modActPort s k f).dram = s.dram := rfl
@[simp] theorem modActPort_log : (modActPort s k f).log = s.log := rfl
@[simp] theorem modActPort_mbx : (modActPort s k f).mbx = s.mbx := rfl
@[simp] theorem modActPort_lk : (modActPort s k f).lk = s.lk := rfl
@[simp] theorem modActPort_power : (modActPort s k f).power = s.power := rfl
@[simp] theorem modActPort_pins : (modActPort s k f).pins = s.pins := rfl
@[simp] theorem modActPort_pcie : (modActPort s k f).pcie = s.pcie := rfl
@[simp] theorem modActPort_answers : (modActPort s k f).answers = s.answers := rfl
@[simp] theorem modActPort_bcast : (modActPort s k f).bcast = s.bcast := rfl
@[simp] theorem modActPort_devid : (modActPort s k f).devid = s.devid := rfl
@[simp] theorem modActPort_now : (modActPort s k f).now = s.now := rfl
@[simp] theorem modActPort_free : (modActPort s k f).free = s.free := rfl
@[simp] theorem modActPort_pending : (modActPort s k f).pending = s.pending := rfl

end

section

variable (s : State) (k : Nat) (f : Word)

@[simp] theorem dramWrite_cores : (dramWrite s k f).cores = s.cores := rfl
@[simp] theorem dramWrite_clusters : (dramWrite s k f).clusters = s.clusters := rfl
@[simp] theorem dramWrite_engines : (dramWrite s k f).engines = s.engines := rfl
@[simp] theorem dramWrite_mnt : (dramWrite s k f).mnt = s.mnt := rfl
@[simp] theorem dramWrite_comps : (dramWrite s k f).comps = s.comps := rfl
@[simp] theorem dramWrite_timers : (dramWrite s k f).timers = s.timers := rfl
@[simp] theorem dramWrite_timerActs : (dramWrite s k f).timerActs = s.timerActs := rfl
@[simp] theorem dramWrite_chans : (dramWrite s k f).chans = s.chans := rfl
@[simp] theorem dramWrite_weir : (dramWrite s k f).weir = s.weir := rfl
@[simp] theorem dramWrite_xitex : (dramWrite s k f).xitex = s.xitex := rfl
@[simp] theorem dramWrite_log : (dramWrite s k f).log = s.log := rfl
@[simp] theorem dramWrite_mbx : (dramWrite s k f).mbx = s.mbx := rfl
@[simp] theorem dramWrite_lk : (dramWrite s k f).lk = s.lk := rfl
@[simp] theorem dramWrite_power : (dramWrite s k f).power = s.power := rfl
@[simp] theorem dramWrite_pins : (dramWrite s k f).pins = s.pins := rfl
@[simp] theorem dramWrite_pcie : (dramWrite s k f).pcie = s.pcie := rfl
@[simp] theorem dramWrite_answers : (dramWrite s k f).answers = s.answers := rfl
@[simp] theorem dramWrite_bcast : (dramWrite s k f).bcast = s.bcast := rfl
@[simp] theorem dramWrite_devid : (dramWrite s k f).devid = s.devid := rfl
@[simp] theorem dramWrite_now : (dramWrite s k f).now = s.now := rfl
@[simp] theorem dramWrite_free : (dramWrite s k f).free = s.free := rfl
@[simp] theorem dramWrite_pending : (dramWrite s k f).pending = s.pending := rfl

end

/-! ## A core -/

section

variable (k : Core) (b : Fin 8) (r : Reg) (w : Word) (g : Bank → Bank)

@[simp] theorem modBank_pc : (modBank k b g).pc = k.pc := rfl
@[simp] theorem modBank_st : (modBank k b g).st = k.st := rfl
@[simp] theorem modBank_exc : (modBank k b g).exc = k.exc := rfl
@[simp] theorem modBank_mmu : (modBank k b g).mmu = k.mmu := rfl
@[simp] theorem modBank_bw : (modBank k b g).bw = k.bw := rfl
@[simp] theorem modBank_irq : (modBank k b g).irq = k.irq := rfl
@[simp] theorem modBank_heap : (modBank k b g).heap = k.heap := rfl
@[simp] theorem modBank_compart : (modBank k b g).compart = k.compart := rfl
@[simp] theorem modBank_alarm : (modBank k b g).alarm = k.alarm := rfl
@[simp] theorem modBank_cycles : (modBank k b g).cycles = k.cycles := rfl
@[simp] theorem modBank_instret : (modBank k b g).instret = k.instret := rfl
@[simp] theorem modBank_v : (modBank k b g).v = k.v := rfl
@[simp] theorem modBank_nfl : (modBank k b g).nfl = k.nfl := rfl
@[simp] theorem modBank_longs : (modBank k b g).longs = k.longs := rfl
@[simp] theorem modBank_tlb : (modBank k b g).tlb = k.tlb := rfl
@[simp] theorem modBank_l1 : (modBank k b g).l1 = k.l1 := rfl
@[simp] theorem modBank_pred : (modBank k b g).pred = k.pred := rfl
@[simp] theorem modBank_sq : (modBank k b g).sq = k.sq := rfl
@[simp] theorem modBank_micro : (modBank k b g).micro = k.micro := rfl
@[simp] theorem modBank_mark : (modBank k b g).mark = k.mark := rfl
@[simp] theorem modBank_cards : (modBank k b g).cards = k.cards := rfl
@[simp] theorem modBank_recent : (modBank k b g).recent = k.recent := rfl
@[simp] theorem modBank_run : (modBank k b g).run = k.run := rfl
@[simp] theorem modBank_wait : (modBank k b g).wait = k.wait := rfl
@[simp] theorem modBank_replay : (modBank k b g).replay = k.replay := rfl
@[simp] theorem modBank_pend : (modBank k b g).pend = k.pend := rfl
@[simp] theorem modBank_lock : (modBank k b g).lock = k.lock := rfl
@[simp] theorem modBank_lockHeld : (modBank k b g).lockHeld = k.lockHeld := rfl
@[simp] theorem modBank_mcHeld : (modBank k b g).mcHeld = k.mcHeld := rfl
@[simp] theorem modBank_ahead : (modBank k b g).ahead = k.ahead := rfl
@[simp] theorem setRegOf_pc : (setRegOf k b r w).pc = k.pc := by unfold setRegOf; split <;> rfl
@[simp] theorem setRegOf_st : (setRegOf k b r w).st = k.st := by unfold setRegOf; split <;> rfl
@[simp] theorem setRegOf_exc : (setRegOf k b r w).exc = k.exc := by unfold setRegOf; split <;> rfl
@[simp] theorem setRegOf_mmu : (setRegOf k b r w).mmu = k.mmu := by unfold setRegOf; split <;> rfl
@[simp] theorem setRegOf_bw : (setRegOf k b r w).bw = k.bw := by unfold setRegOf; split <;> rfl
@[simp] theorem setRegOf_irq : (setRegOf k b r w).irq = k.irq := by unfold setRegOf; split <;> rfl
@[simp] theorem setRegOf_heap : (setRegOf k b r w).heap = k.heap := by unfold setRegOf; split <;> rfl
@[simp] theorem setRegOf_compart : (setRegOf k b r w).compart = k.compart := by unfold setRegOf; split <;> rfl
@[simp] theorem setRegOf_alarm : (setRegOf k b r w).alarm = k.alarm := by unfold setRegOf; split <;> rfl
@[simp] theorem setRegOf_cycles : (setRegOf k b r w).cycles = k.cycles := by unfold setRegOf; split <;> rfl
@[simp] theorem setRegOf_instret : (setRegOf k b r w).instret = k.instret := by unfold setRegOf; split <;> rfl
@[simp] theorem setRegOf_v : (setRegOf k b r w).v = k.v := by unfold setRegOf; split <;> rfl
@[simp] theorem setRegOf_nfl : (setRegOf k b r w).nfl = k.nfl := by unfold setRegOf; split <;> rfl
@[simp] theorem setRegOf_longs : (setRegOf k b r w).longs = k.longs := by unfold setRegOf; split <;> rfl
@[simp] theorem setRegOf_tlb : (setRegOf k b r w).tlb = k.tlb := by unfold setRegOf; split <;> rfl
@[simp] theorem setRegOf_l1 : (setRegOf k b r w).l1 = k.l1 := by unfold setRegOf; split <;> rfl
@[simp] theorem setRegOf_pred : (setRegOf k b r w).pred = k.pred := by unfold setRegOf; split <;> rfl
@[simp] theorem setRegOf_sq : (setRegOf k b r w).sq = k.sq := by unfold setRegOf; split <;> rfl
@[simp] theorem setRegOf_micro : (setRegOf k b r w).micro = k.micro := by unfold setRegOf; split <;> rfl
@[simp] theorem setRegOf_mark : (setRegOf k b r w).mark = k.mark := by unfold setRegOf; split <;> rfl
@[simp] theorem setRegOf_cards : (setRegOf k b r w).cards = k.cards := by unfold setRegOf; split <;> rfl
@[simp] theorem setRegOf_recent : (setRegOf k b r w).recent = k.recent := by unfold setRegOf; split <;> rfl
@[simp] theorem setRegOf_run : (setRegOf k b r w).run = k.run := by unfold setRegOf; split <;> rfl
@[simp] theorem setRegOf_wait : (setRegOf k b r w).wait = k.wait := by unfold setRegOf; split <;> rfl
@[simp] theorem setRegOf_replay : (setRegOf k b r w).replay = k.replay := by unfold setRegOf; split <;> rfl
@[simp] theorem setRegOf_pend : (setRegOf k b r w).pend = k.pend := by unfold setRegOf; split <;> rfl
@[simp] theorem setRegOf_lock : (setRegOf k b r w).lock = k.lock := by unfold setRegOf; split <;> rfl
@[simp] theorem setRegOf_lockHeld : (setRegOf k b r w).lockHeld = k.lockHeld := by unfold setRegOf; split <;> rfl
@[simp] theorem setRegOf_mcHeld : (setRegOf k b r w).mcHeld = k.mcHeld := by unfold setRegOf; split <;> rfl
@[simp] theorem setRegOf_ahead : (setRegOf k b r w).ahead = k.ahead := by unfold setRegOf; split <;> rfl
@[simp] theorem gwrite_pc : (gwrite k r w).pc = k.pc := by simp [gwrite]
@[simp] theorem gwrite_st : (gwrite k r w).st = k.st := by simp [gwrite]
@[simp] theorem gwrite_exc : (gwrite k r w).exc = k.exc := by simp [gwrite]
@[simp] theorem gwrite_mmu : (gwrite k r w).mmu = k.mmu := by simp [gwrite]
@[simp] theorem gwrite_bw : (gwrite k r w).bw = k.bw := by simp [gwrite]
@[simp] theorem gwrite_irq : (gwrite k r w).irq = k.irq := by simp [gwrite]
@[simp] theorem gwrite_heap : (gwrite k r w).heap = k.heap := by simp [gwrite]
@[simp] theorem gwrite_compart : (gwrite k r w).compart = k.compart := by simp [gwrite]
@[simp] theorem gwrite_alarm : (gwrite k r w).alarm = k.alarm := by simp [gwrite]
@[simp] theorem gwrite_cycles : (gwrite k r w).cycles = k.cycles := by simp [gwrite]
@[simp] theorem gwrite_instret : (gwrite k r w).instret = k.instret := by simp [gwrite]
@[simp] theorem gwrite_v : (gwrite k r w).v = k.v := by simp [gwrite]
@[simp] theorem gwrite_nfl : (gwrite k r w).nfl = k.nfl := by simp [gwrite]
@[simp] theorem gwrite_longs : (gwrite k r w).longs = k.longs := by simp [gwrite]
@[simp] theorem gwrite_tlb : (gwrite k r w).tlb = k.tlb := by simp [gwrite]
@[simp] theorem gwrite_l1 : (gwrite k r w).l1 = k.l1 := by simp [gwrite]
@[simp] theorem gwrite_pred : (gwrite k r w).pred = k.pred := by simp [gwrite]
@[simp] theorem gwrite_sq : (gwrite k r w).sq = k.sq := by simp [gwrite]
@[simp] theorem gwrite_micro : (gwrite k r w).micro = k.micro := by simp [gwrite]
@[simp] theorem gwrite_mark : (gwrite k r w).mark = k.mark := by simp [gwrite]
@[simp] theorem gwrite_cards : (gwrite k r w).cards = k.cards := by simp [gwrite]
@[simp] theorem gwrite_recent : (gwrite k r w).recent = k.recent := by simp [gwrite]
@[simp] theorem gwrite_run : (gwrite k r w).run = k.run := by simp [gwrite]
@[simp] theorem gwrite_wait : (gwrite k r w).wait = k.wait := by simp [gwrite]
@[simp] theorem gwrite_replay : (gwrite k r w).replay = k.replay := by simp [gwrite]
@[simp] theorem gwrite_pend : (gwrite k r w).pend = k.pend := by simp [gwrite]
@[simp] theorem gwrite_lock : (gwrite k r w).lock = k.lock := by simp [gwrite]
@[simp] theorem gwrite_lockHeld : (gwrite k r w).lockHeld = k.lockHeld := by simp [gwrite]
@[simp] theorem gwrite_mcHeld : (gwrite k r w).mcHeld = k.mcHeld := by simp [gwrite]
@[simp] theorem gwrite_ahead : (gwrite k r w).ahead = k.ahead := by simp [gwrite]

@[simp] theorem bankOf_modBank : bankOf (modBank k b g) b = g (bankOf k b) := vget_set _ _ _

theorem bankOf_modBank_of_ne (d : Fin 8) (h : d ≠ b) : bankOf (modBank k b g) d = bankOf k d :=
  vget_set_of_ne _ _ _ _ h

@[simp] theorem ipl_gwrite : ipl (gwrite k r w) = ipl k := by simp [ipl]

@[simp] theorem isSys_gwrite : isSys (gwrite k r w) = isSys k := by simp [isSys]

/-- A register other than g0 holds what was written (03 R61). -/
theorem regOf_setRegOf (h : r ≠ 0) : regOf (setRegOf k b r w) b r = w := by
  simp [regOf, setRegOf, h]

theorem regOf_setRegOf_of_ne (q : Reg) (h : q ≠ r) : regOf (setRegOf k b r w) b q = regOf k b q := by
  unfold regOf setRegOf
  split
  · rfl
  · split
    · rfl
    · simp [vget_set_of_ne _ _ _ _ h]

/-- g0 reads as `FIXNUM` 0. -/
@[simp] theorem regOf_zero : regOf k b 0 = fixZero := rfl

@[simp] theorem gread_zero : gread k 0 = fixZero := rfl

theorem gread_gwrite (h : r ≠ 0) : gread (gwrite k r w) r = w := by
  rw [gread, ipl_gwrite]
  exact regOf_setRegOf k (ipl k) r w h

theorem gread_gwrite_of_ne (q : Reg) (h : q ≠ r) : gread (gwrite k r w) q = gread k q := by
  rw [gread, ipl_gwrite]
  exact regOf_setRegOf_of_ne k (ipl k) r w q h

end

end Sys2Proof.Machine
end

