-- ==== Sys2Proof/Laws/Memory.lean ====
section
/-! SUPPORT. Sparse maps and memory: what is stored is read, nothing else changes, and every operation on memory keeps its canonical form. -/

namespace Sys2Proof.Machine

section
variable {α : Type}

/-! ## Sparse maps -/

theorem smSorted_tail {j : Nat} {v : α} {r : SMap α} (h : smSorted ((j, v) :: r) = true) : smSorted r = true := by
  cases r with
  | nil => rfl
  | cons e r => simp only [smSorted, Bool.and_eq_true] at h; exact h.2

theorem smSorted_head {j : Nat} {v : α} {r : SMap α} (h : smSorted ((j, v) :: r) = true) : ∀ e ∈ r, j < e.1 := by
  induction r generalizing j v with
  | nil => simp
  | cons a r ih =>
    obtain ⟨k, w⟩ := a
    simp only [smSorted, Bool.and_eq_true, decide_eq_true_eq] at h
    intro e he
    rcases List.mem_cons.mp he with rfl | he
    · exact h.1
    · exact Nat.lt_trans h.1 (ih h.2 e he)

theorem smSorted_cons {j : Nat} {v : α} {r : SMap α} (h : smSorted r = true) (hj : ∀ e ∈ r, j < e.1) : smSorted ((j, v) :: r) = true := by
  cases r with
  | nil => rfl
  | cons e r => simp only [smSorted, Bool.and_eq_true, decide_eq_true_eq]; exact ⟨hj e (by simp), h⟩

theorem smGet?_none_of_lt {m : SMap α} {k : Nat} (h : ∀ e ∈ m, k < e.1) : smGet? m k = none := by
  cases m with
  | nil => rfl
  | cons a m => obtain ⟨j, v⟩ := a; have hj := h (j, v) (by simp); simp only at hj; simp only [smGet?]; rw [if_neg (by omega), if_pos hj]

theorem smSet_keys {m : SMap α} {k : Nat} {v : α} : ∀ e ∈ smSet m k v, e.1 = k ∨ e ∈ m := by
  induction m with
  | nil => simp [smSet]
  | cons a m ih =>
    obtain ⟨j, w⟩ := a
    intro e he
    simp only [smSet] at he
    split at he
    · rcases List.mem_cons.mp he with rfl | he
      · exact .inl rfl
      · exact .inr he
    · split at he
      · rcases List.mem_cons.mp he with rfl | he
        · exact .inl rfl
        · exact .inr (List.mem_cons_of_mem _ he)
      · rcases List.mem_cons.mp he with rfl | he
        · exact .inr (by simp)
        · exact (ih e he).imp_right (List.mem_cons_of_mem _)

theorem smDel_sub {m : SMap α} {k : Nat} : ∀ e ∈ smDel m k, e ∈ m := by
  induction m with
  | nil => simp [smDel]
  | cons a m ih =>
    obtain ⟨j, w⟩ := a
    intro e he
    simp only [smDel] at he
    split at he
    · exact List.mem_cons_of_mem _ he
    · split at he
      · exact he
      · rcases List.mem_cons.mp he with rfl | he
        · simp
        · exact List.mem_cons_of_mem _ (ih e he)

/-- Listing a value keeps the keys strictly rising. -/
theorem smSet_sorted {m : SMap α} {k : Nat} {v : α} (h : smSorted m = true) : smSorted (smSet m k v) = true := by
  induction m with
  | nil => rfl
  | cons a m ih =>
    obtain ⟨j, w⟩ := a
    have ht := smSorted_tail h
    have hh := smSorted_head h
    simp only [smSet]
    split
    · rename_i hk
      exact smSorted_cons h fun e he => by
        rcases List.mem_cons.mp he with rfl | he
        · exact hk
        · exact Nat.lt_trans hk (hh e he)
    · split
      · rename_i hk; subst hk; exact smSorted_cons ht hh
      · refine smSorted_cons (ih ht) fun e he => ?_
        rcases smSet_keys e he with h1 | h1
        · rw [h1]; omega
        · exact hh e h1

/-- Taking an entry off keeps the keys strictly rising. -/
theorem smDel_sorted {m : SMap α} {k : Nat} (h : smSorted m = true) : smSorted (smDel m k) = true := by
  induction m with
  | nil => rfl
  | cons a m ih =>
    obtain ⟨j, w⟩ := a
    have ht := smSorted_tail h
    simp only [smDel]
    split
    · exact ht
    · split
      · exact h
      · exact smSorted_cons (ih ht) fun e he => smSorted_head h e (smDel_sub e he)

theorem smFilter_sorted {m : SMap α} (p : Nat × α → Bool) (h : smSorted m = true) : smSorted (m.filter p) = true := by
  induction m with
  | nil => rfl
  | cons a m ih =>
    obtain ⟨j, w⟩ := a
    have ht := ih (smSorted_tail h)
    simp only [List.filter_cons]
    split
    · exact smSorted_cons ht fun e he => smSorted_head h e ((List.mem_filter.mp he).1)
    · exact ht

/-- A listed value is found, and no other key's is touched. -/
theorem smGet?_smSet {m : SMap α} {k : Nat} {v : α} (l : Nat) (h : smSorted m = true) :
    smGet? (smSet m k v) l = if l = k then some v else smGet? m l := by
  induction m with
  | nil => simp only [smSet, smGet?]; split <;> (try split) <;> (try split) <;> first | rfl | omega
  | cons a m ih =>
    obtain ⟨j, w⟩ := a
    have ih := ih (smSorted_tail h)
    have hh := smSorted_head h
    simp only [smSet]
    split
    · simp only [smGet?]
      by_cases hl : l = k
      · simp [hl]
      · rw [if_neg (Ne.symm hl), if_neg hl]
        split
        · rw [if_neg (by omega), if_pos (by omega)]
        · rfl
    · split
      · rename_i hjk
        subst hjk
        simp only [smGet?]
        by_cases hl : l = j
        · simp [hl]
        · rw [if_neg (Ne.symm hl), if_neg hl, if_neg (Ne.symm hl)]
      · simp only [smGet?, ih]
        by_cases hl : l = k
        · subst hl; rw [if_neg (by omega), if_neg (by omega), if_pos rfl, if_pos rfl]
        · simp [hl]

theorem smGet?_smDel {m : SMap α} {k : Nat} (l : Nat) (h : smSorted m = true) : smGet? (smDel m k) l = if l = k then none else smGet? m l := by
  induction m with
  | nil => simp [smDel, smGet?]
  | cons a m ih =>
    obtain ⟨j, w⟩ := a
    have ih := ih (smSorted_tail h)
    have hh := smSorted_head h
    simp only [smDel]
    split
    · rename_i hjk
      subst hjk
      by_cases hl : l = j
      · rw [if_pos hl]; subst hl; exact smGet?_none_of_lt hh
      · rw [if_neg hl]; simp only [smGet?]; rw [if_neg (Ne.symm hl)]
        split
        · rename_i hlj; exact smGet?_none_of_lt fun e he => Nat.lt_trans hlj (hh e he)
        · rfl
    · split
      · rename_i hkj
        by_cases hl : l = k
        · subst hl; rw [if_pos rfl]
          exact smGet?_none_of_lt fun e he => by
            rcases List.mem_cons.mp he with rfl | he
            · exact hkj
            · exact Nat.lt_trans hkj (hh e he)
        · rw [if_neg hl]
      · simp only [smGet?, ih]
        by_cases hl : l = k
        · subst hl; rw [if_neg (by omega), if_neg (by omega), if_pos rfl, if_pos rfl]
        · simp [hl]

/-- What is stored is read back, and every other key reads as before. -/
theorem smGet_smPut [DecidableEq α] {d v : α} {m : SMap α} {k : Nat} (l : Nat) (h : smSorted m = true) :
    smGet d (smPut d m k v) l = if l = k then v else smGet d m l := by
  unfold smPut smGet
  split
  · rename_i hv
    rw [smGet?_smDel l h]
    split <;> simp [hv]
  · rw [smGet?_smSet l h]
    split <;> rfl

/-- A store keeps the canonical form: the default value is not listed. -/
theorem smPut_wf [DecidableEq α] {d v : α} {m : SMap α} {k : Nat} (h : smWf d m = true) : smWf d (smPut d m k v) = true := by
  simp only [smWf, Bool.and_eq_true, List.all_eq_true, decide_eq_true_eq] at h ⊢
  unfold smPut
  split
  · exact ⟨smDel_sorted h.1, fun e he => h.2 e (smDel_sub e he)⟩
  · rename_i hv
    refine ⟨smSet_sorted h.1, fun e he => ?_⟩
    rcases smSet_value e he with h1 | h1
    · rw [h1]; exact hv
    · exact h.2 e h1
where
  smSet_value {m : SMap α} {k : Nat} {v : α} : ∀ e ∈ smSet m k v, e.2 = v ∨ e ∈ m := by
    induction m with
    | nil => simp [smSet]
    | cons a m ih =>
      obtain ⟨j, w⟩ := a
      intro e he
      simp only [smSet] at he
      split at he
      · rcases List.mem_cons.mp he with rfl | he
        · exact .inl rfl
        · exact .inr he
      · split at he
        · rcases List.mem_cons.mp he with rfl | he
          · exact .inl rfl
          · exact .inr (List.mem_cons_of_mem _ he)
        · rcases List.mem_cons.mp he with rfl | he
          · exact .inr (by simp)
          · exact (ih e he).imp_right (List.mem_cons_of_mem _)

theorem smFilter_wf [DecidableEq α] {d : α} {m : SMap α} (p : Nat × α → Bool) (h : smWf d m = true) : smWf d (m.filter p) = true := by
  simp only [smWf, Bool.and_eq_true, List.all_eq_true] at h ⊢
  exact ⟨smFilter_sorted p h.1, fun e he => h.2 e ((List.mem_filter.mp he).1)⟩

end

/-! ## Memory -/

/-- A property of memory that every write of a word keeps; the canonical form is one (`wf_kept`). -/
def Kept (P : SMap DramWord → Prop) : Prop := ∀ m i v, P m → P (smPut dramDefault m i v)

theorem wf_kept : Kept (fun m => Memory.wf m = true) := fun _ _ _ h => smPut_wf h

section
variable {P : SMap DramWord → Prop} (hP : Kept P) (s : State) (c : CoreId) (k : ClusterId)

theorem reset_memory_wf : Memory.wf State.reset.dram.words = true := rfl

include hP in
/-- A write of a word keeps such a property. -/
theorem dramWrite_keeps (off : Nat) (w : Word) (h : P s.dram.words) : P (dramWrite s off w).dram.words := hP _ _ _ h

/-- The word that a write leaves, and every other word. -/
theorem dramWrite_get (off i : Nat) (w : Word) (h : smSorted s.dram.words = true) :
    smGet dramDefault (dramWrite s off w).dram.words i = if i = off / 8 then toDram w else smGet dramDefault s.dram.words i := smGet_smPut i h

@[simp] theorem postEvent_dram (code comp : Nat) (seq : BitVec 32) (data : W64) : (postEvent s code comp seq data).dram = s.dram := by
  unfold postEvent
  split
  · rfl
  · unfold ringEvent
    simp only
    split
    · rfl
    · unfold mbxIrq
      simp only
      split <;> rfl

@[simp] theorem logErr_dram (cls sev comp unit : Nat) (a i : W64) : (logErr s cls sev comp unit a i).dram = s.dram := by
  unfold logErr
  exact postEvent_dram _ _ _ _ _

theorem logCorrected_dram (src cls comp unit : Nat) (a i : W64) : (logCorrected s src cls comp unit a i).dram = s.dram := by
  unfold logCorrected
  simp only
  split
  · rw [logErr_dram]
  · rfl

include hP in
/-- What the controller does about a syndrome keeps such a property. -/
theorem dramDeliver_keeps (patrol : Bool) (off : Nat) (d : DramWord) (y : Syndrome) (h : P s.dram.words) :
    P (dramDeliver patrol off d y s).2.dram.words := by
  cases y with
  | clean => exact h
  | data i => simp only [dramDeliver, dramCorrect, logCorrected_dram]; exact dramWrite_keeps hP s off _ h
  | check j => simp only [dramDeliver, dramCorrect, logCorrected_dram]; exact dramWrite_keeps hP s off _ h
  | bad => simp only [dramDeliver, dramPoison, logErr_dram]; exact dramWrite_keeps hP s off _ h

include hP in
/-- A read of a word keeps such a property. -/
theorem dramRead_keeps (patrol : Bool) (off : Nat) (h : P s.dram.words) : P (dramRead patrol off s).2.dram.words := by
  unfold dramRead
  exact dramDeliver_keeps hP s patrol off _ _ h

include hP in
theorem lineToDram_keeps (line : Nat) (ws : List Word) (h : P s.dram.words) : P (lineToDram s line ws).dram.words := by
  unfold lineToDram
  generalize List.range 8 = l
  induction l generalizing s with
  | nil => exact h
  | cons i l ih => exact ih _ (dramWrite_keeps hP s _ _ h)

include hP in
theorem dramApply_keeps (l : List WordWrite) (h : P s.dram.words) : P (dramApply s l).dram.words := by
  unfold dramApply
  induction l generalizing s with
  | nil => exact h
  | cons w l ih =>
    refine ih _ ?_
    unfold dramApply1
    split
    · exact dramWrite_keeps hP s _ _ h
    · exact dramWrite_keeps hP _ _ _ (dramRead_keeps hP s false _ h)

@[simp] theorem modL2_dram (f : L2 → L2) : (modL2 s k f).dram = s.dram := rfl
@[simp] theorem modL1_dram (f : L1 → L1) : (modL1 s c f).dram = s.dram := rfl

@[simp] theorem l2Put_dram (line : Nat) (f : L2Line → L2Line) : (l2Put s k line f).dram = s.dram := by
  unfold l2Put
  split <;> rfl

@[simp] theorem backInval_dram (x : L2Line) : (backInval s k x).dram = s.dram := by
  unfold backInval
  generalize List.finRange 8 = l
  induction l generalizing s with
  | nil => rfl
  | cons j l ih =>
    simp only [List.foldl_cons]
    rw [ih]
    split <;> split <;> rfl

/-- What every step of a fold keeps, the fold keeps. -/
theorem foldl_keeps {σ ι : Type} {Q : σ → Prop} {f : σ → ι → σ} (hf : ∀ s i, Q s → Q (f s i)) (l : List ι) (s : σ) (h : Q s) : Q (l.foldl f s) := by
  induction l generalizing s with
  | nil => exact h
  | cons i l ih => exact ih _ (hf s i h)

@[simp] theorem l2Drop_dram (line : Nat) : (l2Drop s k line).dram = s.dram := by
  unfold l2Drop
  split <;> simp

@[simp] theorem pendMc_dram (r : McReport) : (pendMc s c r).dram = s.dram := by
  unfold pendMc
  simp only
  split <;> rfl

@[simp] theorem pendMcAll_dram (p : CompId) (r : McReport) : (pendMcAll s p r).dram = s.dram := by
  unfold pendMcAll
  split
  · rfl
  · exact foldl_keeps (Q := fun t : State => t.dram = s.dram) (fun t c h => (pendMc_dram t c r).trans h) _ s rfl

@[simp] theorem loseComp_dram (cls unit : Nat) (p : CompId) (addr : W64) (r : McReport) : (loseComp s cls unit p addr r).dram = s.dram := by
  unfold loseComp
  simp only
  split <;> simp

@[simp] theorem logParity_dram (comp : BitVec 4) (addr : W64) : (logParity s k comp addr).dram = s.dram := logCorrected_dram s _ _ _ _ _ _

include hP in
theorem dirtyLine_keeps (line : Nat) (b : Bool) (h : P s.dram.words) : P (dirtyLine s k line b).dram.words := by
  unfold dirtyLine loseLine
  simp only [loseComp_dram]
  refine lineToDram_keeps hP _ line _ ?_
  exact foldl_keeps (Q := fun t : State => P t.dram.words) (fun t j ht => by rw [l2Drop_dram]; exact ht) _ s h

include hP in
/-- The check of an entry that is read keeps such a property. -/
theorem l2Check_keeps (line : Nat) (h : P s.dram.words) : P (l2Check s k line).dram.words := by
  unfold l2Check
  split
  · exact h
  · split
    · exact dirtyLine_keeps hP s k line _ h
    · split
      · rw [logParity_dram, l2Drop_dram]; exact h
      · exact h

include hP in
theorem l2Clean_keeps (line : Nat) (h : P s.dram.words) : P (l2Clean s k line).dram.words := by
  have hc := l2Check_keeps hP s k line h
  unfold l2Clean
  generalize l2Check s k line = t at hc
  simp only
  split
  · split
    · rw [l2Put_dram]; exact lineToDram_keeps hP t line _ hc
    · exact hc
  · exact hc

include hP in
theorem l2Evict_keeps (line : Nat) (h : P s.dram.words) : P (l2Evict s k line).dram.words := by
  unfold l2Evict
  rw [l2Drop_dram]; exact l2Clean_keeps hP s k line h

include hP in
theorem othersDrop_keeps (j : Option ClusterId) (line : Nat) (h : P s.dram.words) : P (othersDrop s j line).dram.words := by
  unfold othersDrop
  refine foldl_keeps (Q := fun t : State => P t.dram.words) (fun t i ht => ?_) _ s h
  split
  · exact ht
  · exact l2Evict_keeps hP t i line ht

@[simp] theorem dramPush_snd (ws : List Word) (q : Word × State) : (dramPush ws q).2 = q.2 := rfl

include hP in
theorem dramNext_keeps (off : Nat) (r : List Word × State) (h : P r.2.dram.words) : P (dramNext off r).2.dram.words := by
  unfold dramNext
  rw [dramPush_snd]
  exact dramRead_keeps hP r.2 false off h

include hP in
theorem dramLine_keeps (line : Nat) (h : P s.dram.words) : P (dramLine line s).2.dram.words := by
  unfold dramLine
  exact foldl_keeps (Q := fun r : List Word × State => P r.2.dram.words) (fun r i hr => dramNext_keeps hP _ r hr) _ ([], s) h

include hP in
theorem checkHeld_keeps (line : Nat) (h : P s.dram.words) : P (checkHeld s line).dram.words := by
  unfold checkHeld
  refine foldl_keeps (Q := fun t : State => P t.dram.words) (fun t i ht => ?_) _ s h
  split
  · exact l2Check_keeps hP t i line ht
  · exact ht

include hP in
theorem lineFrom_keeps (line : Nat) (o : Option ClusterId) (h : P s.dram.words) : P (lineFrom line o s).2.dram.words := by
  cases o with
  | none => exact dramLine_keeps hP s line h
  | some k => exact h

include hP in
theorem lineRead_keeps (line : Nat) (h : P s.dram.words) : P (lineRead line s).2.dram.words := by
  have hc := checkHeld_keeps hP s line h
  unfold lineRead
  generalize checkHeld s line = t at hc
  exact lineFrom_keeps hP t line _ hc

include hP in
theorem wordFrom_keeps (pa : BitVec 44) (o : Option ClusterId) (h : P s.dram.words) : P (wordFrom pa o s).2.dram.words := by
  cases o with
  | none => exact dramRead_keeps hP s false _ h
  | some k => exact h

include hP in
theorem wordRead_keeps (pa : BitVec 44) (h : P s.dram.words) : P (wordRead pa s).2.dram.words := by
  have hc := checkHeld_keeps hP s (lineOf pa) h
  unfold wordRead
  generalize checkHeld s (lineOf pa) = t at hc
  exact wordFrom_keeps hP t pa _ hc

include hP in
theorem l2Insert_keeps (mask : BitVec 16) (x : L2Line) (h : P s.dram.words) : P (l2Insert s k mask x).dram.words := by
  unfold l2Insert
  simp only
  split
  · exact h
  · split
    · exact h
    · rw [modL2_dram]
      split
      · exact l2Evict_keeps hP s k _ h
      · exact h

include hP in
theorem l2Allocate_keeps (mask : BitVec 16) (line : Nat) (l : List WordWrite) (ws : List Word) (h : P s.dram.words) :
    P (l2Allocate k mask line l ws s).dram.words := by
  unfold l2Allocate
  split
  · exact l2Insert_keeps hP s k mask _ h
  · exact dramApply_keeps hP s l h

include hP in
theorem l2StoreLine_keeps (mask : BitVec 16) (line : Nat) (l : List WordWrite) (x : Option L2Line) (st : L2State) (h : P s.dram.words) :
    P (l2StoreLine s k mask line l x st).dram.words := by
  have hm : P (l2StoreMiss s k mask line l).dram.words := by
    unfold l2StoreMiss
    split
    · exact l2Allocate_keeps hP s k mask line l _ h
    · exact l2Allocate_keeps hP _ k mask line l _ (lineRead_keeps hP s line h)
  unfold l2StoreLine
  split
  · rw [l2Put_dram]; exact lineToDram_keeps hP s _ _ h
  · rw [l2Put_dram]; exact h
  · exact hm
  · exact dramApply_keeps hP s l h

@[simp] theorem l1dSync_dram (own : Option CoreId) (line : Nat) : (l1dSync s k own line).dram = s.dram := by
  unfold l1dSync
  split
  · rfl
  · refine foldl_keeps (Q := fun t : State => t.dram = s.dram) (fun t j h => ?_) _ s rfl
    split
    · rw [l2Put_dram]; exact h
    · exact h

include hP in
theorem l2StoreAlone_keeps (mask : BitVec 16) (line : Nat) (l : List WordWrite) (h : P s.dram.words) :
    P (l2StoreAlone s k mask line l).dram.words := by
  have hc := l2Check_keeps hP s k line h
  unfold l2StoreAlone
  generalize l2Check s k line = t at hc
  exact l2StoreLine_keeps hP t k mask _ _ _ _ hc

include hP in
/-- A coherent write keeps such a property. -/
theorem l2StoreBy_keeps (own : Option CoreId) (mask : BitVec 16) (l : List WordWrite) (h : P s.dram.words) :
    P (l2StoreBy own s k mask l).dram.words := by
  unfold l2StoreBy
  split
  · exact h
  · rename_i w r
    rw [l1dSync_dram]
    exact l2StoreAlone_keeps hP _ k mask _ _ (othersDrop_keeps hP s (some k) _ h)

include hP in
theorem l2Store_keeps (mask : BitVec 16) (l : List WordWrite) (h : P s.dram.words) : P (l2Store s k mask l).dram.words :=
  l2StoreBy_keeps hP s k none mask l h

include hP in
theorem storeHeld_keeps (l : List WordWrite) (o : Option ClusterId) (h : P s.dram.words) : P (storeHeld s l o).dram.words := by
  cases o with
  | none => exact dramApply_keeps hP s _ h
  | some k => exact l2Store_keeps hP s k 0 _ h

include hP in
/-- So does a write by a unit that allocates in no L2. -/
theorem memStore_keeps (l : List WordWrite) (h : P s.dram.words) : P (memStore s l).dram.words := by
  cases l with
  | nil => exact h
  | cons w r => exact storeHeld_keeps hP s (w :: r) _ h

/-! ## Every memory operation keeps the canonical form -/

theorem dramWrite_wf (off : Nat) (w : Word) (h : Memory.wf s.dram.words = true) : Memory.wf (dramWrite s off w).dram.words = true :=
  dramWrite_keeps wf_kept s off w h

theorem dramRead_wf (patrol : Bool) (off : Nat) (h : Memory.wf s.dram.words = true) : Memory.wf (dramRead patrol off s).2.dram.words = true :=
  dramRead_keeps wf_kept s patrol off h

theorem lineRead_wf (line : Nat) (h : Memory.wf s.dram.words = true) : Memory.wf (lineRead line s).2.dram.words = true :=
  lineRead_keeps wf_kept s line h

theorem l2Evict_wf (line : Nat) (h : Memory.wf s.dram.words = true) : Memory.wf (l2Evict s k line).dram.words = true :=
  l2Evict_keeps wf_kept s k line h

theorem l2Store_wf (mask : BitVec 16) (l : List WordWrite) (h : Memory.wf s.dram.words = true) : Memory.wf (l2Store s k mask l).dram.words = true :=
  l2Store_keeps wf_kept s k mask l h

theorem memStore_wf (l : List WordWrite) (h : Memory.wf s.dram.words = true) : Memory.wf (memStore s l).dram.words = true :=
  memStore_keeps wf_kept s l h

end

/-! ## Reads that change nothing -/

theorem smGet?_skip {α : Type} {a b : SMap α} {k : Nat} (h : ∀ e ∈ a, e.1 < k) : smGet? (a ++ b) k = smGet? b k := by
  induction a with
  | nil => rfl
  | cons e a ih =>
    obtain ⟨j, v⟩ := e
    have hj := h (j, v) (by simp)
    simp only at hj
    rw [List.cons_append, smGet?, if_neg (by omega), if_neg (by omega)]
    exact ih fun e he => h e (List.mem_cons_of_mem _ he)

theorem smGet?_append_some {α : Type} {a b : SMap α} {k : Nat} {v : α} (h : smGet? a k = some v) : smGet? (a ++ b) k = some v := by
  induction a with
  | nil => cases h
  | cons e a ih =>
    obtain ⟨j, w⟩ := e
    rw [List.cons_append]
    simp only [smGet?] at h ⊢
    split at h
    · rename_i hj; rw [if_pos hj]; exact h
    · rename_i hj
      rw [if_neg hj]
      split at h
      · cases h
      · rename_i hk; rw [if_neg hk]; exact ih h

/-- A block of equal values. -/
theorem smGet?_block {α : Type} (v : α) (n b k : Nat) (h : b ≤ k) (hk : k < b + n) : smGet? ((List.range' b n).map fun i => (i, v)) k = some v := by
  induction n generalizing b with
  | zero => omega
  | succ n ih =>
    simp only [List.range'_succ, List.map_cons, smGet?]
    by_cases hb : b = k
    · rw [if_pos hb]
    · rw [if_neg hb, if_neg (by omega)]
      exact ih (b + 1) (by omega) (by omega)

/-- A word whose syndrome is clean is delivered as it lies there. -/
theorem dramRead_clean (s : State) (patrol : Bool) (off : Nat) (h : syndrome (smGet dramDefault s.dram.words (off / 8)) = .clean) :
    dramRead patrol off s = (⟨(smGet dramDefault s.dram.words (off / 8)).tag, (smGet dramDefault s.dram.words (off / 8)).payload⟩, s) := by
  unfold dramRead
  rw [h]
  rfl

theorem l2Get?_empty (s : State) (k : ClusterId) (line : Nat) (h : (l2Of s k).lines = []) : l2Get? s k line = none := by
  unfold l2Get?
  rw [h]
  simp only [smGet?]
  cases l2Idx? (l2Of s k) line <;> rfl

theorem holders_empty (s : State) (line : Nat) (h : ∀ k, (l2Of s k).lines = []) : holders s line = [] := by
  unfold holders
  rw [List.filter_eq_nil_iff]
  intro k _
  rw [l2Get?_empty s k line (h k)]
  simp

/-- The words of a line of which each is clean. -/
theorem dramLine_clean (s : State) (line : Nat) (w : Nat → Word)
    (h : ∀ i < 8, dramRead false (lineOff line + 8 * i) s = (w i, s)) : dramLine line s = ((List.range 8).map w, s) := by
  have step : ∀ i < 8, ∀ ws, dramNext (lineOff line + 8 * i) (ws, s) = (ws ++ [w i], s) := fun i hi ws => by
    unfold dramNext
    rw [h i hi]
    rfl
  unfold dramLine
  simp only [List.range_succ, List.range_zero, List.nil_append, List.cons_append, List.foldl_cons, List.foldl_nil]
  rw [step 0 (by omega), step 1 (by omega), step 2 (by omega), step 3 (by omega), step 4 (by omega), step 5 (by omega), step 6 (by omega), step 7 (by omega)]
  rfl

theorem l2Check_none (s : State) (k : ClusterId) (line : Nat) (h : l2Get? s k line = none) : l2Check s k line = s := by
  unfold l2Check
  rw [h]

theorem checkHeld_empty (s : State) (line : Nat) (h : ∀ k, (l2Of s k).lines = []) : checkHeld s line = s := by
  unfold checkHeld
  refine foldl_keeps (Q := fun t : State => t = s) (fun t k ht => ?_) _ s rfl
  subst ht
  simp only [holders_empty t line h, List.head?_nil, reduceCtorEq, ↓reduceIte]

/-- An L2 that is off, with no copy of the line in any other, is filled by nothing: DRAM's words are read. -/
theorem l2Fill_off (s : State) (k : ClusterId) (mask : BitVec 16) (line : Nat) (excl : Bool) (use : StreamUse) (w : Nat → Word)
    (hl : ∀ k, (l2Of s k).lines = []) (ho : (l2Of s k).st ≠ .on) (h : ∀ i < 8, dramRead false (lineOff line + 8 * i) s = (w i, s)) :
    l2Fill k mask line excl use s = ((List.range 8).map w, s) := by
  have hh := holders_empty s line hl
  have hg := l2Get?_empty s k line (hl k)
  have hr : lineRead line s = ((List.range 8).map w, s) := by
    unfold lineRead
    simp only [checkHeld_empty s line hl, hh, List.head?_nil]
    exact dramLine_clean s line w h
  unfold l2Fill
  simp only [l2Check_none s k line hg, hg, othersDrop, othersShare, hh, List.foldl_nil, ite_self, hr]
  unfold l2Insert
  rw [if_pos ho]

end Sys2Proof.Machine
end

