-- ==== Sys2Proof/Laws/Device.lean ====
section
/-! SUPPORT. What the shared operations of the units outside the cores do: signals to the host, the Lockkeeper's turn, the reads that
check parity, line fills, timer channels, and the entry of a flit. -/

namespace Sys2Proof.Machine

/-! ## Signals to the host (16 R391, R393) -/

theorem signal_posted (s : State) (p : CompId) (n : Nat) (h : p = 0 ∨ bit (msixCtl s p n) 32 = false) :
    signal s p n = post s (.msix p n) := by
  unfold signal; split
  · next g => rcases h with h | h
              · exact absurd h g.1
              · exact absurd g.2 (by simp [h])
  · rfl

theorem signal_masked (s : State) (p : CompId) (n : Nat) (h0 : p ≠ 0) (h : bit (msixCtl s p n) 32 = true) :
    signal s p n = modComp s p fun x => { x with vf := { x.vf with msixPend := bvSet x.vf.msixPend n true } } := by
  simp [signal, h0, h]

/-- A signal is a message or a pending bit, and nothing else. -/
theorem signal_frame (s : State) (p : CompId) (n : Nat) :
    (signal s p n).cores = s.cores ∧ (signal s p n).clusters = s.clusters ∧ (signal s p n).dram = s.dram ∧ (signal s p n).log = s.log
      ∧ (signal s p n).mbx = s.mbx ∧ (signal s p n).weir = s.weir ∧ (signal s p n).lk = s.lk := by
  unfold signal; split <;> exact ⟨rfl, rfl, rfl, rfl, rfl, rfl, rfl⟩

theorem unmasked_quiet (s : State) (p : CompId) (n : Nat) (h : bit (getComp s p).vf.msixPend n = false ∨ bit (msixCtl s p n) 32 = true) :
    unmasked s p n = s := by
  unfold unmasked; split
  · next g => rcases h with h | h <;> simp [h] at g
  · rfl

theorem hostReaches_iff (s : State) :
    hostReaches s = true ↔ s.power.reg = .on ∧ s.pins.resetN = true ∧ s.pins.perstN = true ∧ s.pcie.trained = true := by
  simp [hostReaches, clocksRun, and_assoc]

/-! ## The Lockkeeper's turn (12 R317, 19 R442, R445) -/

theorem dueAbort_none (s : State) (p : CompId) (h : (getComp s p).abortDue = false) : dueAbort s p = s := by simp [dueAbort, h]

theorem dueAborts_none (s : State) (h : ∀ p, (getComp s p).abortDue = false) : dueAborts s = s := by
  have : ∀ l : List CompId, l.foldl dueAbort s = s := by
    intro l
    induction l with
    | nil => rfl
    | cons p l ih => rw [List.foldl_cons, dueAbort_none s p (h p), ih]
  exact this allComps

theorem takeHeld_none (s : State) (h : s.lk.held = false) : takeHeld s = s := by simp [takeHeld, h]

theorem lkTurn_none (s : State) (h : ∀ p, (getComp s p).abortDue = false) (hh : s.lk.held = false) : lkTurn s = s := by
  rw [lkTurn, dueAborts_none s h, takeHeld_none s hh]

/-! ## Firmware banks (15 R362, 19 Table 19.8) -/

theorem bankOk_part (s : State) (b : Bool) (h : bit s.lk.fwWhole b.toNat = false) : bankOk s b = false := by simp [bankOk, h]

/-! ## Reads that check parity (12 Table 12.4) -/

theorem dRead_hit (s : State) (c : CoreId) (line : Nat) (x : ILine) (h : dGet? (getCore s c).l1 line = some x) (hp : x.isBad = false) :
    dRead c line s = (some x, s) := by simp [dRead, h, hp]

theorem dRead_victim (s : State) (c : CoreId) (line : Nat) (x : ILine) (h : dGet? (getCore s c).l1 line = none)
    (hv : vGet? (getCore s c).l1 line = some x) (hp : x.isBad = false) :
    dRead c line s = (some x, modL1 s c fun l => dFill l x) := by simp [dRead, h, hv, hp]

theorem dRead_miss (s : State) (c : CoreId) (line : Nat) (h : dGet? (getCore s c).l1 line = none)
    (hv : vGet? (getCore s c).l1 line = none) : dRead c line s = (none, s) := by simp [dRead, h, hv]

theorem dRead_bad (s : State) (c : CoreId) (line : Nat) (x : ILine) (h : dGet? (getCore s c).l1 line = some x) (hp : x.isBad = true) :
    dRead c line s = (none, logParity (modL1 s c (dDrop · line)) (clusterOf c) (getCore s c).compart (BitVec.ofNat 64 (line * 64))) := by
  simp [dRead, h, hp]

theorem l2Check_unheld (s : State) (k : ClusterId) (line : Nat) (h : l2Get? s k line = none) : l2Check s k line = s := by
  simp [l2Check, h]

theorem l2Check_good (s : State) (k : ClusterId) (line : Nat) (x : L2Line) (h : l2Get? s k line = some x) (hs : x.sbad = false)
    (hb : x.bad = 0) : l2Check s k line = s := by simp [l2Check, h, hs, hb]

theorem carafeCheck_good (s : State) (k : ClusterId) (o : Nat) (h : smGet 0 (l2Of s k).cbad (o / 8) = 0) : carafeCheck s k o = s := by
  unfold carafeCheck; exact if_pos h

theorem carafeLoad_good (s : State) (k : ClusterId) (o : Nat) (h : smGet 0 (l2Of s k).cbad (o / 8) = 0) :
    carafeLoad k o s = (carafeRead s k o, s) := by simp only [carafeLoad, carafeCheck_good s k o h]

/-! ## Line fills (12 R309, R330) -/

theorem fillOldest_nil (s : State) (c : CoreId) (h : (getCore s c).l1.miss = []) : fillOldest c s = s := by simp [fillOldest, h]

theorem fillOldest_cons (s : State) (c : CoreId) (m : Miss) (r : List Miss) (h : (getCore s c).l1.miss = m :: r) :
    fillOldest c s = doFill c m (modL1 s c fun l => { l with miss := r }) := by simp [fillOldest, h]

theorem execLineFill_clean (s : State) (c : CoreId) : execLineFill c ⟨.clean, none⟩ s = .next (fillOldest c s) := rfl

/-! ## Timer channels (14 R350 to R353) -/

theorem throughTick_single (s : State) (n : TimerId) (t : W64) (h : pairLow s n = none) :
    throughTick s n t = modTimer s n fun x => runTicks (t - x.next).toNat x := by simp [throughTick, h]

theorem throughTick_pair (s : State) (n lo : TimerId) (t : W64) (h : pairLow s n = some lo) :
    throughTick s n t = modTimer (modTimer s lo fun _ => (runTicksPair (t - (getTimer s lo).next).toNat (getTimer s lo)
      (getTimer s (highOf lo))).1) (highOf lo) fun _ => (runTicksPair (t - (getTimer s lo).next).toNat (getTimer s lo)
      (getTimer s (highOf lo))).2 := by simp [throughTick, h]

/-! ## Flits (17 R405, R407, R408) -/

theorem execFlitReceive_bad (s : State) (x : PortId) (body trailer : List Byte) (ht : (getPort s x).trained = true)
    (hd : (getPort s x).down = false) (hp : parseFlit (body ++ trailer) = none) :
    execFlitReceive x body trailer s = .next (owesNak s x) := by simp [execFlitReceive, ht, hd, hp]

theorem acceptFlit_here (s : State) (x : PortId) (f : Flit) (hm : malformed f = false) (hd : f.dst = s.devid) :
    acceptFlit s x f = { s with xitex := { s.xitex with rxq := s.xitex.rxq ++ [(x, f)] } } := by simp [acceptFlit, hm, hd]

theorem relayPort_response (s : State) (x : PortId) (f : Flit) (r : Relay) (h : isResponse f = true)
    (hr : relayOf s f.dst f.tid = some r) : relayPort s x f = some (r.port, f.hops.toNat - 1) := by simp [relayPort, h, hr]

theorem relayPort_request (s : State) (x : PortId) (f : Flit) (h : isResponse f = false) : relayPort s x f = onward s x f := by
  simp [relayPort, h]

end Sys2Proof.Machine
end

