-- ==== Sys2Proof/Laws/Dispatch.lean ====
section
/-! SUPPORT. Which meaning each command has: one equation per arm of `exec`. -/

namespace Sys2Proof.Machine

variable (s : State)

theorem exec_syscall (c : CoreId) (n : BitVec 5) :
    exec (.syscall c n) s = execSyscall c n s := rfl
theorem exec_retx (c : CoreId) :
    exec (.retx c) s = execRetx c s := rfl
theorem exec_isync (c : CoreId) :
    exec (.isync c) s = execIsync c s := rfl
theorem exec_fenceL (c : CoreId) :
    exec (.fenceL c) s = execFenceL c s := rfl
theorem exec_fenceS (c : CoreId) :
    exec (.fenceS c) s = execFenceS c s := rfl
theorem exec_fenceA (c : CoreId) :
    exec (.fenceA c) s = execFenceA c s := rfl
theorem exec_mfc (c : CoreId) (gd : Reg) (n : BitVec 12) :
    exec (.mfc c gd n) s = execMfc c gd n s := rfl
theorem exec_mtc (c : CoreId) (n : BitVec 12) (ga : Reg) :
    exec (.mtc c n ga) s = execMtc c n ga s := rfl
theorem exec_wdset (c : CoreId) (ga : Reg) :
    exec (.wdset c ga) s = execWdset c ga s := rfl
theorem exec_wdclr (c : CoreId) (ga : Reg) :
    exec (.wdclr c ga) s = execWdclr c ga s := rfl
theorem exec_irouteWr (c : CoreId) (ga : Reg) :
    exec (.irouteWr c ga) s = execIrouteWr c ga s := rfl
theorem exec_swi (c : CoreId) (ga : Reg) :
    exec (.swi c ga) s = execSwi c ga s := rfl
theorem exec_swclr (c : CoreId) (ga : Reg) :
    exec (.swclr c ga) s = execSwclr c ga s := rfl
theorem exec_mfb (c : CoreId) (gd : Reg) (r : Reg) :
    exec (.mfb c gd r) s = execMfb c gd r s := rfl
theorem exec_mtb (c : CoreId) (r : Reg) (ga : Reg) :
    exec (.mtb c r ga) s = execMtb c r ga s := rfl
theorem exec_invtlb (c : CoreId) (ga : Reg) (sel : BitVec 2) :
    exec (.invtlb c ga sel) s = execInvtlb c ga sel s := rfl
theorem exec_invtlbB (c : CoreId) (ga : Reg) (sel : BitVec 2) :
    exec (.invtlbB c ga sel) s = execInvtlbB c ga sel s := rfl
theorem exec_invtlbBArrival (c : CoreId) :
    exec (.invtlbBArrival c) s = execInvtlbBArrival c s := rfl
theorem exec_invtlbBComplete (c : CoreId) :
    exec (.invtlbBComplete c) s = execInvtlbBComplete c s := rfl
theorem exec_halt (c : CoreId) :
    exec (.halt c) s = execHalt c s := rfl
theorem exec_brk (c : CoreId) (n : BitVec 12) :
    exec (.brk c n) s = execBrk c n s := rfl
theorem exec_dret (c : CoreId) (ga : Reg) :
    exec (.dret c ga) s = execDret c ga s := rfl
theorem exec_add (c : CoreId) (gd : Reg) (ga : Reg) (gb : Reg) :
    exec (.add c gd ga gb) s = execAdd c gd ga gb s := rfl
theorem exec_sub (c : CoreId) (gd : Reg) (ga : Reg) (gb : Reg) :
    exec (.sub c gd ga gb) s = execSub c gd ga gb s := rfl
theorem exec_and (c : CoreId) (gd : Reg) (ga : Reg) (gb : Reg) :
    exec (.and c gd ga gb) s = execAnd c gd ga gb s := rfl
theorem exec_or (c : CoreId) (gd : Reg) (ga : Reg) (gb : Reg) :
    exec (.or c gd ga gb) s = execOr c gd ga gb s := rfl
theorem exec_xor (c : CoreId) (gd : Reg) (ga : Reg) (gb : Reg) :
    exec (.xor c gd ga gb) s = execXor c gd ga gb s := rfl
theorem exec_shl (c : CoreId) (gd : Reg) (ga : Reg) (gb : Reg) :
    exec (.shl c gd ga gb) s = execShl c gd ga gb s := rfl
theorem exec_shr (c : CoreId) (gd : Reg) (ga : Reg) (gb : Reg) :
    exec (.shr c gd ga gb) s = execShr c gd ga gb s := rfl
theorem exec_sar (c : CoreId) (gd : Reg) (ga : Reg) (gb : Reg) :
    exec (.sar c gd ga gb) s = execSar c gd ga gb s := rfl
theorem exec_rol (c : CoreId) (gd : Reg) (ga : Reg) (gb : Reg) :
    exec (.rol c gd ga gb) s = execRol c gd ga gb s := rfl
theorem exec_cmps (c : CoreId) (gd : Reg) (ga : Reg) (gb : Reg) :
    exec (.cmps c gd ga gb) s = execCmps c gd ga gb s := rfl
theorem exec_cmpu (c : CoreId) (gd : Reg) (ga : Reg) (gb : Reg) :
    exec (.cmpu c gd ga gb) s = execCmpu c gd ga gb s := rfl
theorem exec_mul (c : CoreId) (gd : Reg) (ga : Reg) (gb : Reg) :
    exec (.mul c gd ga gb) s = execMul c gd ga gb s := rfl
theorem exec_mulh (c : CoreId) (gd : Reg) (ga : Reg) (gb : Reg) :
    exec (.mulh c gd ga gb) s = execMulh c gd ga gb s := rfl
theorem exec_div (c : CoreId) (gd : Reg) (ga : Reg) (gb : Reg) :
    exec (.div c gd ga gb) s = execDiv c gd ga gb s := rfl
theorem exec_divu (c : CoreId) (gd : Reg) (ga : Reg) (gb : Reg) :
    exec (.divu c gd ga gb) s = execDivu c gd ga gb s := rfl
theorem exec_rem (c : CoreId) (gd : Reg) (ga : Reg) (gb : Reg) :
    exec (.rem c gd ga gb) s = execRem c gd ga gb s := rfl
theorem exec_remu (c : CoreId) (gd : Reg) (ga : Reg) (gb : Reg) :
    exec (.remu c gd ga gb) s = execRemu c gd ga gb s := rfl
theorem exec_addi (c : CoreId) (gd : Reg) (imm : BitVec 16) :
    exec (.addi c gd imm) s = execAddi c gd imm s := rfl
theorem exec_andi (c : CoreId) (gd : Reg) (imm : BitVec 16) :
    exec (.andi c gd imm) s = execAndi c gd imm s := rfl
theorem exec_ori (c : CoreId) (gd : Reg) (imm : BitVec 16) :
    exec (.ori c gd imm) s = execOri c gd imm s := rfl
theorem exec_xori (c : CoreId) (gd : Reg) (imm : BitVec 16) :
    exec (.xori c gd imm) s = execXori c gd imm s := rfl
theorem exec_shli (c : CoreId) (gd : Reg) (imm : BitVec 16) :
    exec (.shli c gd imm) s = execShli c gd imm s := rfl
theorem exec_shri (c : CoreId) (gd : Reg) (imm : BitVec 16) :
    exec (.shri c gd imm) s = execShri c gd imm s := rfl
theorem exec_sari (c : CoreId) (gd : Reg) (imm : BitVec 16) :
    exec (.sari c gd imm) s = execSari c gd imm s := rfl
theorem exec_movi (c : CoreId) (gd : Reg) (imm : BitVec 16) :
    exec (.movi c gd imm) s = execMovi c gd imm s := rfl
theorem exec_movhi (c : CoreId) (gd : Reg) (imm : BitVec 16) (h : Fin 3) :
    exec (.movhi c gd imm h) s = execMovhi c gd imm h s := rfl
theorem exec_gadd (c : CoreId) (gd : Reg) (ga : Reg) (b : GSrc) :
    exec (.gadd c gd ga b) s = execGadd c gd ga b s := rfl
theorem exec_gsub (c : CoreId) (gd : Reg) (ga : Reg) (b : GSrc) :
    exec (.gsub c gd ga b) s = execGsub c gd ga b s := rfl
theorem exec_gmul (c : CoreId) (gd : Reg) (ga : Reg) (b : GSrc) :
    exec (.gmul c gd ga b) s = execGmul c gd ga b s := rfl
theorem exec_gdiv (c : CoreId) (gd : Reg) (ga : Reg) (b : GSrc) :
    exec (.gdiv c gd ga b) s = execGdiv c gd ga b s := rfl
theorem exec_gquo (c : CoreId) (gd : Reg) (ga : Reg) (b : GSrc) :
    exec (.gquo c gd ga b) s = execGquo c gd ga b s := rfl
theorem exec_grem (c : CoreId) (gd : Reg) (ga : Reg) (b : GSrc) :
    exec (.grem c gd ga b) s = execGrem c gd ga b s := rfl
theorem exec_gneg (c : CoreId) (gd : Reg) (ga : Reg) :
    exec (.gneg c gd ga) s = execGneg c gd ga s := rfl
theorem exec_glt (c : CoreId) (gd : Reg) (ga : Reg) (b : GSrc) :
    exec (.glt c gd ga b) s = execGlt c gd ga b s := rfl
theorem exec_gle (c : CoreId) (gd : Reg) (ga : Reg) (b : GSrc) :
    exec (.gle c gd ga b) s = execGle c gd ga b s := rfl
theorem exec_geq (c : CoreId) (gd : Reg) (ga : Reg) (b : GSrc) :
    exec (.geq c gd ga b) s = execGeq c gd ga b s := rfl
theorem exec_gcmp (c : CoreId) (gd : Reg) (ga : Reg) (b : GSrc) :
    exec (.gcmp c gd ga b) s = execGcmp c gd ga b s := rfl
theorem exec_eq (c : CoreId) (gd : Reg) (ga : Reg) (b : GSrc) :
    exec (.eq c gd ga b) s = execEq c gd ga b s := rfl
theorem exec_gtag (c : CoreId) (gd : Reg) (ga : Reg) :
    exec (.gtag c gd ga) s = execGtag c gd ga s := rfl
theorem exec_stag (c : CoreId) (gd : Reg) (ga : Reg) (t : BitVec 8) :
    exec (.stag c gd ga t) s = execStag c gd ga t s := rfl
theorem exec_tcls (c : CoreId) (gd : Reg) (ga : Reg) :
    exec (.tcls c gd ga) s = execTcls c gd ga s := rfl
theorem exec_car (c : CoreId) (gd : Reg) (ga : Reg) :
    exec (.car c gd ga) s = execCar c gd ga s := rfl
theorem exec_cdr (c : CoreId) (gd : Reg) (ga : Reg) :
    exec (.cdr c gd ga) s = execCdr c gd ga s := rfl
theorem exec_cons (c : CoreId) (gd : Reg) (ga : Reg) (gb : Reg) :
    exec (.cons c gd ga gb) s = execCons c gd ga gb s := rfl
theorem exec_rplaca (c : CoreId) (ga : Reg) (gb : Reg) :
    exec (.rplaca c ga gb) s = execRplaca c ga gb s := rfl
theorem exec_rplacd (c : CoreId) (ga : Reg) (gb : Reg) :
    exec (.rplacd c ga gb) s = execRplacd c ga gb s := rfl
theorem exec_lwalk (c : CoreId) (rep : Option Reg) (gd : Reg) (ga : Reg) (gb : Reg) :
    exec (.lwalk c rep gd ga gb) s = execLwalk c rep gd ga gb s := rfl
theorem exec_alloc (c : CoreId) (gd : Reg) (ga : Reg) (p : BitVec 5) :
    exec (.alloc c gd ga p) s = execAlloc c gd ga p s := rfl
theorem exec_hdr (c : CoreId) (gd : Reg) (ga : Reg) :
    exec (.hdr c gd ga) s = execHdr c gd ga s := rfl
theorem exec_vref (c : CoreId) (gd : Reg) (ga : Reg) (gb : Reg) :
    exec (.vref c gd ga gb) s = execVref c gd ga gb s := rfl
theorem exec_vset (c : CoreId) (gd : Reg) (ga : Reg) (gb : Reg) :
    exec (.vset c gd ga gb) s = execVset c gd ga gb s := rfl
theorem exec_vlen (c : CoreId) (gd : Reg) (ga : Reg) :
    exec (.vlen c gd ga) s = execVlen c gd ga s := rfl
theorem exec_ldw (c : CoreId) (gd : Reg) (ga : Reg) (disp : BitVec 13) (rsv : BitVec 2) :
    exec (.ldw c gd ga disp rsv) s = execLdw c gd ga disp rsv s := rfl
theorem exec_ldwNb (c : CoreId) (gd : Reg) (ga : Reg) (disp : BitVec 13) (rsv : BitVec 2) :
    exec (.ldwNb c gd ga disp rsv) s = execLdwNb c gd ga disp rsv s := rfl
theorem exec_stw (c : CoreId) (gd : Reg) (ga : Reg) (disp : BitVec 13) (rsv : BitVec 2) :
    exec (.stw c gd ga disp rsv) s = execStw c gd ga disp rsv s := rfl
theorem exec_stwNb (c : CoreId) (gd : Reg) (ga : Reg) (disp : BitVec 13) (rsv : BitVec 2) :
    exec (.stwNb c gd ga disp rsv) s = execStwNb c gd ga disp rsv s := rfl
theorem exec_ldB (c : CoreId) (gd : Reg) (ga : Reg) (u : Bool) (disp : BitVec 13) :
    exec (.ldB c gd ga u disp) s = execLdB c gd ga u disp s := rfl
theorem exec_ldH (c : CoreId) (gd : Reg) (ga : Reg) (u : Bool) (disp : BitVec 13) :
    exec (.ldH c gd ga u disp) s = execLdH c gd ga u disp s := rfl
theorem exec_ldW (c : CoreId) (gd : Reg) (ga : Reg) (u : Bool) (disp : BitVec 13) :
    exec (.ldW c gd ga u disp) s = execLdW c gd ga u disp s := rfl
theorem exec_ldD (c : CoreId) (gd : Reg) (ga : Reg) (u : Bool) (disp : BitVec 13) :
    exec (.ldD c gd ga u disp) s = execLdD c gd ga u disp s := rfl
theorem exec_stB (c : CoreId) (gd : Reg) (ga : Reg) (disp : BitVec 13) :
    exec (.stB c gd ga disp) s = execStB c gd ga disp s := rfl
theorem exec_stH (c : CoreId) (gd : Reg) (ga : Reg) (disp : BitVec 13) :
    exec (.stH c gd ga disp) s = execStH c gd ga disp s := rfl
theorem exec_stW (c : CoreId) (gd : Reg) (ga : Reg) (disp : BitVec 13) :
    exec (.stW c gd ga disp) s = execStW c gd ga disp s := rfl
theorem exec_stD (c : CoreId) (gd : Reg) (ga : Reg) (disp : BitVec 13) :
    exec (.stD c gd ga disp) s = execStD c gd ga disp s := rfl
theorem exec_splitStoreBusError (c : CoreId) :
    exec (.splitStoreBusError c) s = execSplitStoreBusError c s := rfl
theorem exec_casw (c : CoreId) (gd : Reg) (ga : Reg) (gb : Reg) :
    exec (.casw c gd ga gb) s = execCasw c gd ga gb s := rfl
theorem exec_movw (c : CoreId) (rep : Option Reg) (gd : Reg) (ga : Reg) (gb : Reg) :
    exec (.movw c rep gd ga gb) s = execMovw c rep gd ga gb s := rfl
theorem exec_fillw (c : CoreId) (rep : Option Reg) (gd : Reg) (ga : Reg) (gb : Reg) :
    exec (.fillw c rep gd ga gb) s = execFillw c rep gd ga gb s := rfl
theorem exec_scanw (c : CoreId) (rep : Option Reg) (gd : Reg) (ga : Reg) (gb : Reg) :
    exec (.scanw c rep gd ga gb) s = execScanw c rep gd ga gb s := rfl
theorem exec_cmpw (c : CoreId) (rep : Option Reg) (gd : Reg) (ga : Reg) (gb : Reg) :
    exec (.cmpw c rep gd ga gb) s = execCmpw c rep gd ga gb s := rfl
theorem exec_movb (c : CoreId) (rep : Option Reg) (gd : Reg) (ga : Reg) (gb : Reg) :
    exec (.movb c rep gd ga gb) s = execMovb c rep gd ga gb s := rfl
theorem exec_pref (c : CoreId) (h : BitVec 5) (ga : Reg) (disp : BitVec 16) :
    exec (.pref c h ga disp) s = execPref c h ga disp s := rfl
theorem exec_beq (c : CoreId) (ga : Reg) (gb : Reg) (disp : BitVec 11) :
    exec (.beq c ga gb disp) s = execBeq c ga gb disp s := rfl
theorem exec_bne (c : CoreId) (ga : Reg) (gb : Reg) (disp : BitVec 11) :
    exec (.bne c ga gb disp) s = execBne c ga gb disp s := rfl
theorem exec_bnil (c : CoreId) (ga : Reg) (disp : BitVec 16) :
    exec (.bnil c ga disp) s = execBnil c ga disp s := rfl
theorem exec_bnnil (c : CoreId) (ga : Reg) (disp : BitVec 16) :
    exec (.bnnil c ga disp) s = execBnnil c ga disp s := rfl
theorem exec_bz (c : CoreId) (ga : Reg) (disp : BitVec 16) :
    exec (.bz c ga disp) s = execBz c ga disp s := rfl
theorem exec_bnz (c : CoreId) (ga : Reg) (disp : BitVec 16) :
    exec (.bnz c ga disp) s = execBnz c ga disp s := rfl
theorem exec_bltf (c : CoreId) (ga : Reg) (gb : Reg) (disp : BitVec 11) :
    exec (.bltf c ga gb disp) s = execBltf c ga gb disp s := rfl
theorem exec_bgef (c : CoreId) (ga : Reg) (gb : Reg) (disp : BitVec 11) :
    exec (.bgef c ga gb disp) s = execBgef c ga gb disp s := rfl
theorem exec_btag (c : CoreId) (ga : Reg) (t : BitVec 8) (disp : BitVec 8) :
    exec (.btag c ga t disp) s = execBtag c ga t disp s := rfl
theorem exec_bntag (c : CoreId) (ga : Reg) (t : BitVec 8) (disp : BitVec 8) :
    exec (.bntag c ga t disp) s = execBntag c ga t disp s := rfl
theorem exec_bcls (c : CoreId) (ga : Reg) (k : BitVec 3) (disp : BitVec 16) :
    exec (.bcls c ga k disp) s = execBcls c ga k disp s := rfl
theorem exec_jmp (c : CoreId) (disp : BitVec 26) :
    exec (.jmp c disp) s = execJmp c disp s := rfl
theorem exec_call (c : CoreId) (disp : BitVec 26) :
    exec (.call c disp) s = execCall c disp s := rfl
theorem exec_jr (c : CoreId) (ga : Reg) :
    exec (.jr c ga) s = execJr c ga s := rfl
theorem exec_callr (c : CoreId) (ga : Reg) :
    exec (.callr c ga) s = execCallr c ga s := rfl
theorem exec_ret (c : CoreId) (ga : Reg) :
    exec (.ret c ga) s = execRet c ga s := rfl
theorem exec_rdt (c : CoreId) (gd : Reg) :
    exec (.rdt c gd) s = execRdt c gd s := rfl
theorem exec_waitt (c : CoreId) (ga : Reg) :
    exec (.waitt c ga) s = execWaitt c ga s := rfl
theorem exec_waittExpiry (c : CoreId) :
    exec (.waittExpiry c) s = execWaittExpiry c s := rfl
theorem exec_armt (c : CoreId) (ga : Reg) (n : Fin 4) :
    exec (.armt c ga n) s = execArmt c ga n s := rfl
theorem exec_alarmFire (c : CoreId) (n : Fin 4) :
    exec (.alarmFire c n) s = execAlarmFire c n s := rfl
theorem exec_barw (c : CoreId) (ga : Reg) :
    exec (.barw c ga) s = execBarw c ga s := rfl
theorem exec_bara (c : CoreId) (ga : Reg) :
    exec (.bara c ga) s = execBara c ga s := rfl
theorem exec_bart (c : CoreId) (gd : Reg) (ga : Reg) :
    exec (.bart c gd ga) s = execBart c gd ga s := rfl
theorem exec_bcst (c : CoreId) (gd : Reg) (ga : Reg) (gb : Reg) :
    exec (.bcst c gd ga gb) s = execBcst c gd ga gb s := rfl
theorem exec_rduc (c : CoreId) (gd : Reg) (ga : Reg) (gb : Reg) (f : BitVec 3) :
    exec (.rduc c gd ga gb f) s = execRduc c gd ga gb f s := rfl
theorem exec_groupMessage (g : GroupId) (d : DevId) (a : GroupArrival) :
    exec (.groupMessage g d a) s = execGroupMessage g d a s := rfl
theorem exec_groupOperationComplete (g : GroupId) :
    exec (.groupOperationComplete g) s = execGroupOperationComplete g s := rfl
theorem exec_vaddD (c : CoreId) (vd : Reg) (va : Reg) (vb : Reg) :
    exec (.vaddD c vd va vb) s = execVaddD c vd va vb s := rfl
theorem exec_vsubD (c : CoreId) (vd : Reg) (va : Reg) (vb : Reg) :
    exec (.vsubD c vd va vb) s = execVsubD c vd va vb s := rfl
theorem exec_vmulD (c : CoreId) (vd : Reg) (va : Reg) (vb : Reg) :
    exec (.vmulD c vd va vb) s = execVmulD c vd va vb s := rfl
theorem exec_vdivD (c : CoreId) (vd : Reg) (va : Reg) (vb : Reg) :
    exec (.vdivD c vd va vb) s = execVdivD c vd va vb s := rfl
theorem exec_vfmaD (c : CoreId) (vd : Reg) (va : Reg) (vb : Reg) :
    exec (.vfmaD c vd va vb) s = execVfmaD c vd va vb s := rfl
theorem exec_vsqrtD (c : CoreId) (vd : Reg) (va : Reg) :
    exec (.vsqrtD c vd va) s = execVsqrtD c vd va s := rfl
theorem exec_vminD (c : CoreId) (vd : Reg) (va : Reg) (vb : Reg) :
    exec (.vminD c vd va vb) s = execVminD c vd va vb s := rfl
theorem exec_vmaxD (c : CoreId) (vd : Reg) (va : Reg) (vb : Reg) :
    exec (.vmaxD c vd va vb) s = execVmaxD c vd va vb s := rfl
theorem exec_vcmpltD (c : CoreId) (vd : Reg) (va : Reg) (vb : Reg) :
    exec (.vcmpltD c vd va vb) s = execVcmpltD c vd va vb s := rfl
theorem exec_vcmpeqD (c : CoreId) (vd : Reg) (va : Reg) (vb : Reg) :
    exec (.vcmpeqD c vd va vb) s = execVcmpeqD c vd va vb s := rfl
theorem exec_vcvtLd (c : CoreId) (vd : Reg) (va : Reg) :
    exec (.vcvtLd c vd va) s = execVcvtLd c vd va s := rfl
theorem exec_vcvtDl (c : CoreId) (vd : Reg) (va : Reg) :
    exec (.vcvtDl c vd va) s = execVcvtDl c vd va s := rfl
theorem exec_vaddL (c : CoreId) (vd : Reg) (va : Reg) (vb : Reg) :
    exec (.vaddL c vd va vb) s = execVaddL c vd va vb s := rfl
theorem exec_vsubL (c : CoreId) (vd : Reg) (va : Reg) (vb : Reg) :
    exec (.vsubL c vd va vb) s = execVsubL c vd va vb s := rfl
theorem exec_vmulL (c : CoreId) (vd : Reg) (va : Reg) (vb : Reg) :
    exec (.vmulL c vd va vb) s = execVmulL c vd va vb s := rfl
theorem exec_vand (c : CoreId) (vd : Reg) (va : Reg) (vb : Reg) :
    exec (.vand c vd va vb) s = execVand c vd va vb s := rfl
theorem exec_vor (c : CoreId) (vd : Reg) (va : Reg) (vb : Reg) :
    exec (.vor c vd va vb) s = execVor c vd va vb s := rfl
theorem exec_vxor (c : CoreId) (vd : Reg) (va : Reg) (vb : Reg) :
    exec (.vxor c vd va vb) s = execVxor c vd va vb s := rfl
theorem exec_vldF (c : CoreId) (vd : Reg) (ga : Reg) (gb : Reg) :
    exec (.vldF c vd ga gb) s = execVldF c vd ga gb s := rfl
theorem exec_vldB (c : CoreId) (vd : Reg) (ga : Reg) (gb : Reg) :
    exec (.vldB c vd ga gb) s = execVldB c vd ga gb s := rfl
theorem exec_vstF (c : CoreId) (vd : Reg) (ga : Reg) (gb : Reg) :
    exec (.vstF c vd ga gb) s = execVstF c vd ga gb s := rfl
theorem exec_vstB (c : CoreId) (vd : Reg) (ga : Reg) (gb : Reg) :
    exec (.vstB c vd ga gb) s = execVstB c vd ga gb s := rfl
theorem exec_vins (c : CoreId) (vd : Reg) (ga : Reg) (l : Fin 4) :
    exec (.vins c vd ga l) s = execVins c vd ga l s := rfl
theorem exec_vextF (c : CoreId) (gd : Reg) (va : Reg) (l : Fin 4) :
    exec (.vextF c gd va l) s = execVextF c gd va l s := rfl
theorem exec_vextL (c : CoreId) (gd : Reg) (va : Reg) (l : Fin 4) :
    exec (.vextL c gd va l) s = execVextL c gd va l s := rfl
theorem exec_vsplat (c : CoreId) (vd : Reg) (ga : Reg) :
    exec (.vsplat c vd ga) s = execVsplat c vd ga s := rfl
theorem exec_nrdf (c : CoreId) (gd : Reg) :
    exec (.nrdf c gd) s = execNrdf c gd s := rfl
theorem exec_nwrf (c : CoreId) (ga : Reg) :
    exec (.nwrf c ga) s = execNwrf c ga s := rfl
theorem exec_interruptEntry (c : CoreId) :
    exec (.interruptEntry c) s = execInterruptEntry c s := rfl
theorem exec_machineCheck (c : CoreId) (src : McSource) :
    exec (.machineCheck c src) s = execMachineCheck c src s := rfl
theorem exec_divideComplete (c : CoreId) :
    exec (.divideComplete c) s = execDivideComplete c s := rfl
theorem exec_longOperationComplete (c : CoreId) :
    exec (.longOperationComplete c) s = execLongOperationComplete c s := rfl
theorem exec_markBufferRoom (c : CoreId) :
    exec (.markBufferRoom c) s = execMarkBufferRoom c s := rfl
theorem exec_forwardReply (c : CoreId) :
    exec (.forwardReply c) s = execForwardReply c s := rfl
theorem exec_cardCheckReply (c : CoreId) :
    exec (.cardCheckReply c) s = execCardCheckReply c s := rfl
theorem exec_lineFill (c : CoreId) (what : FillCause) :
    exec (.lineFill c what) s = execLineFill c what s := rfl
theorem exec_storeQueueDrain (c : CoreId) :
    exec (.storeQueueDrain c) s = execStoreQueueDrain c s := rfl
theorem exec_dramRead (pa : BitVec 44) (evict : Option (ClusterId × BitVec 44)) :
    exec (.dramRead pa evict) s = execDramRead pa evict s := rfl
theorem exec_patrolRead (m : Fin 8) :
    exec (.patrolRead m) s = execPatrolRead m s := rfl
theorem exec_refresh (sub : Fin 16) :
    exec (.refresh sub) s = execRefresh sub s := rfl
theorem exec_driftTracking (sub : Fin 16) :
    exec (.driftTracking sub) s = execDriftTracking sub s := rfl
theorem exec_setGoodcol (e : Fin 32) :
    exec (.setGoodcol e) s = execSetGoodcol e s := rfl
theorem exec_phaseFlipStop (c : CoreId) :
    exec (.phaseFlipStop c) s = execPhaseFlipStop c s := rfl
theorem exec_phaseFlipResume (c : CoreId) :
    exec (.phaseFlipResume c) s = execPhaseFlipResume c s := rfl
theorem exec_groupInterrupt (e : Fin 32) :
    exec (.groupInterrupt e) s = execGroupInterrupt e s := rfl
theorem exec_startCulvertChannel (e : Fin 32) :
    exec (.startCulvertChannel e) s = execStartCulvertChannel e s := rfl
theorem exec_startPercolatorCommand (e : Fin 32) :
    exec (.startPercolatorCommand e) s = execStartPercolatorCommand e s := rfl
theorem exec_startTimerChannels (e : Fin 32) :
    exec (.startTimerChannels e) s = execStartTimerChannels e s := rfl
theorem exec_staggerTimerChannels (e : Fin 32) :
    exec (.staggerTimerChannels e) s = execStaggerTimerChannels e s := rfl
theorem exec_snapshotStop (e : Fin 32) :
    exec (.snapshotStop e) s = execSnapshotStop e s := rfl
theorem exec_snapshotCoreStop (c : CoreId) :
    exec (.snapshotCoreStop c) s = execSnapshotCoreStop c s := rfl
theorem exec_snapshotDump (c : CoreId) :
    exec (.snapshotDump c) s = execSnapshotDump c s := rfl
theorem exec_snapshotStopReport (p : CompId) :
    exec (.snapshotStopReport p) s = execSnapshotStopReport p s := rfl
theorem exec_compartmentReset (e : Fin 32) :
    exec (.compartmentReset e) s = execCompartmentReset e s := rfl
theorem exec_actPostGo (p : CompId) :
    exec (.actPostGo p) s = execActPostGo p s := rfl
theorem exec_actPostCancel (p : CompId) (e : Fin 32) :
    exec (.actPostCancel p e) s = execActPostCancel p e s := rfl
theorem exec_actionInstall (a : ActionInstall) :
    exec (.actionInstall a) s = execActionInstall a s := rfl
theorem exec_actionCancelFlood (d : DevId) (id : Nat) :
    exec (.actionCancelFlood d id) s = execActionCancelFlood d id s := rfl
theorem exec_actionPostComplete (p : CompId) (full : BitVec 16) (failed : BitVec 16) :
    exec (.actionPostComplete p full failed) s = execActionPostComplete p full failed s := rfl
theorem exec_weirSyncPulse :
    exec (.weirSyncPulse) s = execWeirSyncPulse s := rfl
theorem exec_timingSymbolExchange (x : PortId) (off : Int) :
    exec (.timingSymbolExchange x off) s = execTimingSymbolExchange x off s := rfl
theorem exec_onDieResynchronisation :
    exec (.onDieResynchronisation) s = execOnDieResynchronisation s := rfl
theorem exec_weirPllLossOfLock :
    exec (.weirPllLossOfLock) s = execWeirPllLossOfLock s := rfl
theorem exec_deviceFailed (d : DevId) :
    exec (.deviceFailed d) s = execDeviceFailed d s := rfl
theorem exec_rootChange (d : DevId) :
    exec (.rootChange d) s = execRootChange d s := rfl
theorem exec_timerAdvance (n : TimerId) :
    exec (.timerAdvance n) s = execTimerAdvance n s := rfl
theorem exec_evtEdge (n : TimerId) (rising : Bool) (late : Fin 3) :
    exec (.evtEdge n rising late) s = execEvtEdge n rising late s := rfl
theorem exec_tmrCountRead (n : TimerId) :
    exec (.tmrCountRead n) s = execTmrCountRead n s := rfl
theorem exec_captureRead (n : TimerId) (falling : Bool) :
    exec (.captureRead n falling) s = execCaptureRead n falling s := rfl
theorem exec_tmrGcmdStart (p : CompId) (mask : BitVec 16) :
    exec (.tmrGcmdStart p mask) s = execTmrGcmdStart p mask s := rfl
theorem exec_tmrGcmdStop (p : CompId) (mask : BitVec 16) :
    exec (.tmrGcmdStop p mask) s = execTmrGcmdStop p mask s := rfl
theorem exec_tmrGcmdStagger (p : CompId) (mask : BitVec 16) :
    exec (.tmrGcmdStagger p mask) s = execTmrGcmdStagger p mask s := rfl
theorem exec_prcTail (k : ClusterId) (p : CompId) (v : W64) :
    exec (.prcTail k p v) s = execPrcTail k p v s := rfl
theorem exec_mark (k : ClusterId) (p : CompId) :
    exec (.mark k p) s = execMark k p s := rfl
theorem exec_relocate (k : ClusterId) (p : CompId) :
    exec (.relocate k p) s = execRelocate k p s := rfl
theorem exec_remap (k : ClusterId) (p : CompId) :
    exec (.remap k p) s = execRemap k p s := rfl
theorem exec_scrub (k : ClusterId) (p : CompId) :
    exec (.scrub k p) s = execScrub k p s := rfl
theorem exec_cleanLog (k : ClusterId) (p : CompId) :
    exec (.cleanLog k p) s = execCleanLog k p s := rfl
theorem exec_snapshotCopy (k : ClusterId) (p : CompId) :
    exec (.snapshotCopy k p) s = execSnapshotCopy k p s := rfl
theorem exec_percolatorCommandComplete (k : ClusterId) (p : CompId) :
    exec (.percolatorCommandComplete k p) s = execPercolatorCommandComplete k p s := rfl
theorem exec_forward (k : ClusterId) :
    exec (.forward k) s = execForward k s := rfl
theorem exec_forwardCompletionNotice (k : ClusterId) :
    exec (.forwardCompletionNotice k) s = execForwardCompletionNotice k s := rfl
theorem exec_forwardPoll (k : ClusterId) :
    exec (.forwardPoll k) s = execForwardPoll k s := rfl
theorem exec_markRequest (k : ClusterId) :
    exec (.markRequest k) s = execMarkRequest k s := rfl
theorem exec_markBufferDrain (c : CoreId) :
    exec (.markBufferDrain c) s = execMarkBufferDrain c s := rfl
theorem exec_cardRequest (k : ClusterId) :
    exec (.cardRequest k) s = execCardRequest k s := rfl
theorem exec_cardCopyComplete (k : ClusterId) :
    exec (.cardCopyComplete k) s = execCardCopyComplete k s := rfl
theorem exec_markStackSteal (k : ClusterId) (p : CompId) :
    exec (.markStackSteal k p) s = execMarkStackSteal k p s := rfl
theorem exec_terminationRound (p : CompId) :
    exec (.terminationRound p) s = execTerminationRound p s := rfl
theorem exec_schedulingWindow (k : ClusterId) :
    exec (.schedulingWindow k) s = execSchedulingWindow k s := rfl
theorem exec_clean (k : ClusterId) (p : CompId) (dirty : Option (BitVec 44)) :
    exec (.clean k p dirty) s = execClean k p dirty s := rfl
theorem exec_inval (k : ClusterId) (p : CompId) :
    exec (.inval k p) s = execInval k p s := rfl
theorem exec_cleanInval (k : ClusterId) (p : CompId) (dirty : Option (BitVec 44)) :
    exec (.cleanInval k p dirty) s = execCleanInval k p dirty s := rfl
theorem exec_taginit (k : ClusterId) (p : CompId) :
    exec (.taginit k p) s = execTaginit k p s := rfl
theorem exec_maintenanceQueuedStart (k : ClusterId) :
    exec (.maintenanceQueuedStart k) s = execMaintenanceQueuedStart k s := rfl
theorem exec_maintenanceComplete (k : ClusterId) :
    exec (.maintenanceComplete k) s = execMaintenanceComplete k s := rfl
theorem exec_l2ReqOn (k : ClusterId) :
    exec (.l2ReqOn k) s = execL2ReqOn k s := rfl
theorem exec_l2ReqOff (k : ClusterId) :
    exec (.l2ReqOff k) s = execL2ReqOff k s := rfl
theorem exec_l2DrainComplete (k : ClusterId) :
    exec (.l2DrainComplete k) s = execL2DrainComplete k s := rfl
theorem exec_l2CarafeWrite (k : ClusterId) (n : BitVec 4) :
    exec (.l2CarafeWrite k n) s = execL2CarafeWrite k n s := rfl
theorem exec_carafeWayConverted (k : ClusterId) :
    exec (.carafeWayConverted k) s = execCarafeWayConverted k s := rfl
theorem exec_getInfo (m : MbxCmd) :
    exec (.getInfo m) s = execGetInfo m s := rfl
theorem exec_getStatus (m : MbxCmd) :
    exec (.getStatus m) s = execGetStatus m s := rfl
theorem exec_setProfile (m : MbxCmd) :
    exec (.setProfile m) s = execSetProfile m s := rfl
theorem exec_profileClusterSwitch (k : ClusterId) :
    exec (.profileClusterSwitch k) s = execProfileClusterSwitch k s := rfl
theorem exec_compartmentCreate (m : MbxCmd) :
    exec (.compartmentCreate m) s = execCompartmentCreate m s := rfl
theorem exec_compartmentLoad (m : MbxCmd) :
    exec (.compartmentLoad m) s = execCompartmentLoad m s := rfl
theorem exec_loadDone (data : List Byte) :
    exec (.loadDone data) s = execLoadDone data s := rfl
theorem exec_compartmentStart (m : MbxCmd) :
    exec (.compartmentStart m) s = execCompartmentStart m s := rfl
theorem exec_release (p : CompId) (c : CoreId) :
    exec (.release p c) s = execRelease p c s := rfl
theorem exec_compartmentQuiesce (m : MbxCmd) :
    exec (.compartmentQuiesce m) s = execCompartmentQuiesce m s := rfl
theorem exec_quiesceStop (p : CompId) :
    exec (.quiesceStop p) s = execQuiesceStop p s := rfl
theorem exec_quiesced (p : CompId) :
    exec (.quiesced p) s = execQuiesced p s := rfl
theorem exec_quiesceTimeout (p : CompId) :
    exec (.quiesceTimeout p) s = execQuiesceTimeout p s := rfl
theorem exec_compartmentAbort (m : MbxCmd) :
    exec (.compartmentAbort m) s = execCompartmentAbort m s := rfl
theorem exec_mbxAbort (v : W64) :
    exec (.mbxAbort v) s = execMbxAbort v s := rfl
theorem exec_abortTimerExpiry (p : CompId) :
    exec (.abortTimerExpiry p) s = execAbortTimerExpiry p s := rfl
theorem exec_abortComplete (p : CompId) :
    exec (.abortComplete p) s = execAbortComplete p s := rfl
theorem exec_compartmentDestroy (m : MbxCmd) :
    exec (.compartmentDestroy m) s = execCompartmentDestroy m s := rfl
theorem exec_destroyDone (p : CompId) :
    exec (.destroyDone p) s = execDestroyDone p s := rfl
theorem exec_weirConfig (m : MbxCmd) :
    exec (.weirConfig m) s = execWeirConfig m s := rfl
theorem exec_weirSchedule (m : MbxCmd) :
    exec (.weirSchedule m) s = execWeirSchedule m s := rfl
theorem exec_linkTrain (m : MbxCmd) :
    exec (.linkTrain m) s = execLinkTrain m s := rfl
theorem exec_linkTrained (x : PortId) (r : TrainResult) :
    exec (.linkTrained x r) s = execLinkTrained x r s := rfl
theorem exec_linkStatus (m : MbxCmd) :
    exec (.linkStatus m) s = execLinkStatus m s := rfl
theorem exec_telemetryRead (m : MbxCmd) :
    exec (.telemetryRead m) s = execTelemetryRead m s := rfl
theorem exec_errorLogRead (m : MbxCmd) :
    exec (.errorLogRead m) s = execErrorLogRead m s := rfl
theorem exec_errorLogClear (m : MbxCmd) :
    exec (.errorLogClear m) s = execErrorLogClear m s := rfl
theorem exec_fwUpdate (m : MbxCmd) :
    exec (.fwUpdate m) s = execFwUpdate m s := rfl
theorem exec_microcodeStage (m : MbxCmd) :
    exec (.microcodeStage m) s = execMicrocodeStage m s := rfl
theorem exec_programKeySlot2 (m : MbxCmd) :
    exec (.programKeySlot2 m) s = execProgramKeySlot2 m s := rfl
theorem exec_snapshot (m : MbxCmd) :
    exec (.snapshot m) s = execSnapshot m s := rfl
theorem exec_deviceReset (m : MbxCmd) :
    exec (.deviceReset m) s = execDeviceReset m s := rfl
theorem exec_lockupReport (c : CoreId) :
    exec (.lockupReport c) s = execLockupReport c s := rfl
theorem exec_recoveryStopReport (c : CoreId) :
    exec (.recoveryStopReport c) s = execRecoveryStopReport c s := rfl
theorem exec_heartbeat :
    exec (.heartbeat) s = execHeartbeat s := rfl
theorem exec_lockkeeperRestart :
    exec (.lockkeeperRestart) s = execLockkeeperRestart s := rfl
theorem exec_telemetrySample (r : SensorSample) :
    exec (.telemetrySample r) s = execTelemetrySample r s := rfl
theorem exec_powerCapStep (k : ClusterId) (up : Bool) :
    exec (.powerCapStep k up) s = execPowerCapStep k up s := rfl
theorem exec_currentSample (ma : Nat) :
    exec (.currentSample ma) s = execCurrentSample ma s := rfl
theorem exec_thermalSample (t : ThermalReading) :
    exec (.thermalSample t) s = execThermalSample t s := rfl
theorem exec_thermalTrip :
    exec (.thermalTrip) s = execThermalTrip s := rfl
theorem exec_clusterFrequencyChange (k : ClusterId) (f : Nat) :
    exec (.clusterFrequencyChange k f) s = execClusterFrequencyChange k f s := rfl
theorem exec_clusterPllLossOfLock (k : ClusterId) :
    exec (.clusterPllLossOfLock k) s = execClusterPllLossOfLock k s := rfl
theorem exec_regulatorCommand (r : RegCommand) :
    exec (.regulatorCommand r) s = execRegulatorCommand r s := rfl
theorem exec_railFault (r : Rail) :
    exec (.railFault r) s = execRailFault r s := rfl
theorem exec_pwrgoodRise (d : DevId) :
    exec (.pwrgoodRise d) s = execPwrgoodRise d s := rfl
theorem exec_railGood :
    exec (.railGood) s = execRailGood s := rfl
theorem exec_dramPg :
    exec (.dramPg) s = execDramPg s := rfl
theorem exec_dramPgTimeout :
    exec (.dramPgTimeout) s = execDramPgTimeout s := rfl
theorem exec_pwrgoodFall :
    exec (.pwrgoodFall) s = execPwrgoodFall s := rfl
theorem exec_resetN (level : Bool) :
    exec (.resetN level) s = execResetN level s := rfl
theorem exec_perstN (level : Bool) :
    exec (.perstN level) s = execPerstN level s := rfl
theorem exec_firmwareVerification :
    exec (.firmwareVerification) s = execFirmwareVerification s := rfl
theorem exec_calibration (r : CalResult) :
    exec (.calibration r) s = execCalibration r s := rfl
theorem exec_memoryInitialisation :
    exec (.memoryInitialisation) s = execMemoryInitialisation s := rfl
theorem exec_microcodeLoad (bad : List CoreId) :
    exec (.microcodeLoad bad) s = execMicrocodeLoad bad s := rfl
theorem exec_pcieTraining :
    exec (.pcieTraining) s = execPcieTraining s := rfl
theorem exec_rdWord :
    exec (.rdWord) s = execRdWord s := rfl
theorem exec_rdLine :
    exec (.rdLine) s = execRdLine s := rfl
theorem exec_rdBulk :
    exec (.rdBulk) s = execRdBulk s := rfl
theorem exec_wrWord :
    exec (.wrWord) s = execWrWord s := rfl
theorem exec_wrLine :
    exec (.wrLine) s = execWrLine s := rfl
theorem exec_wrBulk :
    exec (.wrBulk) s = execWrBulk s := rfl
theorem exec_cas :
    exec (.cas) s = execCas s := rfl
theorem exec_respData :
    exec (.respData) s = execRespData s := rfl
theorem exec_respAck :
    exec (.respAck) s = execRespAck s := rfl
theorem exec_msg :
    exec (.msg) s = execMsg s := rfl
theorem exec_flitReceive (x : PortId) (body trailer : List Byte) :
    exec (.flitReceive x body trailer) s = execFlitReceive x body trailer s := rfl
theorem exec_ackTimeout (x : PortId) :
    exec (.ackTimeout x) s = execAckTimeout x s := rfl
theorem exec_linkRetrainComplete (x : PortId) (ok : Bool) :
    exec (.linkRetrainComplete x ok) s = execLinkRetrainComplete x ok s := rfl
theorem exec_remoteRequestTimeout (tid : BitVec 12) :
    exec (.remoteRequestTimeout tid) s = execRemoteRequestTimeout tid s := rfl
theorem exec_creditFree (x : PortId) :
    exec (.creditFree x) s = execCreditFree x s := rfl
theorem exec_standbyWake (x : PortId) :
    exec (.standbyWake x) s = execStandbyWake x s := rfl
theorem exec_standbyWakeComplete (x : PortId) :
    exec (.standbyWakeComplete x) s = execStandbyWakeComplete x s := rfl
theorem exec_vfFlr (p : CompId) :
    exec (.vfFlr p) s = execVfFlr p s := rfl
theorem exec_pcieCompletion (n : ChanId) (data : List Byte) (poisoned : Bool) :
    exec (.pcieCompletion n data poisoned) s = execPcieCompletion n data poisoned s := rfl
theorem exec_pcieError (fn : CompId) (e : PcieErr) :
    exec (.pcieError fn e) s = execPcieError fn e s := rfl
theorem exec_completionTimeout (n : ChanId) :
    exec (.completionTimeout n) s = execCompletionTimeout n s := rfl
theorem exec_cvTail (n : ChanId) (v : W64) :
    exec (.cvTail n v) s = execCvTail n v s := rfl
theorem exec_hostToDevice (n : ChanId) :
    exec (.hostToDevice n) s = execHostToDevice n s := rfl
theorem exec_deviceToHost (n : ChanId) :
    exec (.deviceToHost n) s = execDeviceToHost n s := rfl
theorem exec_deviceToDevice (n : ChanId) :
    exec (.deviceToDevice n) s = execDeviceToDevice n s := rfl
theorem exec_nbt (n : ChanId) :
    exec (.nbt n) s = execNbt n s := rfl
theorem exec_descriptorComplete (n : ChanId) :
    exec (.descriptorComplete n) s = execDescriptorComplete n s := rfl
theorem exec_qpSqtail (p : CompId) (q : QpId) (v : W64) :
    exec (.qpSqtail p q v) s = execQpSqtail p q v s := rfl
theorem exec_qpSqhead (p : CompId) (q : QpId) (v : W64) :
    exec (.qpSqhead p q v) s = execQpSqhead p q v s := rfl
theorem exec_qpCqtail (p : CompId) (q : QpId) (v : W64) :
    exec (.qpCqtail p q v) s = execQpCqtail p q v s := rfl
theorem exec_vfHostirq (p : CompId) (v : W64) :
    exec (.vfHostirq p v) s = execVfHostirq p v s := rfl
theorem exec_logFlashWrite :
    exec (.logFlashWrite) s = execLogFlashWrite s := rfl
theorem exec_correctedErrorSummary :
    exec (.correctedErrorSummary) s = execCorrectedErrorSummary s := rfl
theorem exec_smbusBlockRead (cmd : Byte) :
    exec (.smbusBlockRead cmd) s = execSmbusBlockRead cmd s := rfl
theorem exec_jtagInstruction (j : JtagInstr) :
    exec (.jtagInstruction j) s = execJtagInstruction j s := rfl
theorem exec_registerWrite (w : RegWriter) (a : Nat) (be : BitVec 8) (v : W64) :
    exec (.registerWrite w a be v) s = execRegisterWrite w a be v s := rfl
theorem exec_illegalInstruction (c : CoreId) (w : BitVec 32) (nextw : BitVec 32) :
    exec (.illegalInstruction c w nextw) s = execIllegalInstruction c w nextw s := rfl
theorem exec_inputPowerApplied :
    exec (.inputPowerApplied) s = execInputPowerApplied s := rfl
theorem exec_inputPowerRemoved :
    exec (.inputPowerRemoved) s = execInputPowerRemoved s := rfl
theorem exec_clusterPllRelock (k : ClusterId) :
    exec (.clusterPllRelock k) s = execClusterPllRelock k s := rfl
theorem exec_lockkeeperRestartDone :
    exec (.lockkeeperRestartDone) s = execLockkeeperRestartDone s := rfl
theorem exec_standbyEntry (x : PortId) :
    exec (.standbyEntry x) s = execStandbyEntry x s := rfl
theorem exec_lockkeeperSramError (correctable : Bool) :
    exec (.lockkeeperSramError correctable) s = execLockkeeperSramError correctable s := rfl

end Sys2Proof.Machine
end

