-- ==== Sys2Proof/Laws/Issue.lean ====
section
/-! SUPPORT. How an instruction's run evaluates: the monad's operations, retirement, and an instruction that ends in its first run. -/

namespace Sys2Proof.Machine

section

variable (c : CoreId) (s : State)

@[simp] theorem cm_pure {α : Type} (x : α) : (pure x : CM α) s = .ok x s := rfl

@[simp] theorem cm_bind {α β : Type} (m : CM α) (f : α → CM β) :
    (m >>= f) s = match m s with
      | .ok x t => f x t
      | .error e t => .error e t := by
  simp only [bind, EStateM.bind]
  cases m s <;> rfl

@[simp] theorem cm_map {α β : Type} (m : CM α) (f : α → β) :
    (f <$> m) s = match m s with
      | .ok x t => .ok (f x) t
      | .error e t => .error e t := by
  simp only [Functor.map, EStateM.map]
  cases m s <;> rfl

@[simp] theorem cm_run {α : Type} (m : CM α) : m.run s = m s := rfl
@[simp] theorem cm_cget : cget c s = .ok (getCore s c) s := rfl
@[simp] theorem cm_cmod (f : Core → Core) : cmod c f s = .ok () (modCore s c f) := rfl
@[simp] theorem cm_sget : sget s = .ok s s := rfl
@[simp] theorem cm_smod (f : State → State) : smod f s = .ok () (f s) := rfl
@[simp] theorem cm_liftD {α : Type} (m : DM α) : liftD m s = .ok (m s).1 (m s).2 := rfl
@[simp] theorem cm_reg (r : Reg) : reg c r s = .ok (gread (getCore s c) r) s := rfl
@[simp] theorem cm_setReg (r : Reg) (w : Word) : setReg c r w s = .ok () (modCore s c fun k => gwrite k r w) := rfl
@[simp] theorem cm_raise {α : Type} (v b : Byte) (a i : W64) : (raise c v b a i : CM α) s =
    .error (.exc { vec := v, sub := b, epc := (getCore s c).pc, eaddr := a, einfo := i, impr := false, inrep := false }) s := rfl
@[simp] theorem cm_waitFor {α : Type} (w : WaitFor) : (waitFor w : CM α) s = .error (.wait w) s := rfl
@[simp] theorem cm_thenNext (m : CM Unit) : thenNext m s = match m s with
    | .ok _ t => .ok {} t
    | .error e t => .error e t := by
  simp only [thenNext, cm_bind]
  cases m s <;> rfl
@[simp] theorem cm_goTo (a : W64) : goTo a s = .ok { next := some (va48 a) } s := rfl

/-- A consumed operand (02 R43, R47). -/
theorem consume_ok (w : Word) (p : Nat) (h : plainWord w = true) : consume c w p s = .ok () s := by
  simp only [plainWord, Bool.and_eq_true, bne_iff_ne, ne_eq, Bool.not_eq_true'] at h
  have h7 : ¬ w.tag = (0x07 : Byte) := h.1.1
  have h8 : ¬ w.tag = (0x08 : Byte) := h.1.2
  simp only [consume, if_neg h7, if_neg h8, h.2, Bool.false_eq_true, if_false]
  rfl

theorem regC_ok (r : Reg) (p : Nat) (h : plainWord (gread (getCore s c) r) = true) :
    regC c r p s = .ok (gread (getCore s c) r) s := by
  simp [regC, consume_ok c s _ p h]

/-- A raw operand (02 R51). -/
theorem rawOp_ok (r : Reg) (p : Nat) (h : rawOk (getCore s c) (gread (getCore s c) r) = true) :
    rawOp c r p s = .ok (gread (getCore s c) r).payload s := by
  simp only [rawOk, Bool.and_eq_true] at h
  simp only [rawOp, cm_bind, cm_reg, consume_ok c s _ p h.1, cm_cget]
  cases hp : isPtr (gread (getCore s c) r).tag <;> cases hs : isSys (getCore s c) <;> simp_all

end

/-! ## Retirement -/

/-- Two updates of a core that agree on it are one. -/
theorem modCore_congr (s : State) (c : CoreId) (f g : Core → Core) (h : f (getCore s c) = g (getCore s c)) : modCore s c f = modCore s c g := by
  unfold modCore
  have : f (s.cores.get c) = g (s.cores.get c) := h
  rw [this]

@[simp] theorem statusSet_none (k : Core) : statusSet none k = k := rfl

theorem retire_advanced (c : CoreId) (i : Instr) (f : Flow) (s : State)
    (hs : stSSTEP (getCore s c) = false) (hh : (getCore s c).st.shadow = []) : retire c i f s = advanced c i f s := by
  unfold retire advanced
  simp only [hs, Bool.and_false, Bool.false_eq_true, false_and, ↓reduceIte]
  rw [modCore_congr s c _ (fun k => statusSet f.status { endMicro k with
    pc := f.next.getD (va48 (k.pc + instrLen i)), instret := k.instret + BitVec.ofNat 64 f.count, replay := Replay.reset })]
  unfold ageShadow
  have hh' : (endMicro (getCore s c)).st.shadow = [] := hh
  simp only [hh', List.map_nil, List.filter_nil, List.foldl_nil]
  cases f.status with
  | none => rw [← hh']; rfl
  | some v => simp only [statusSet, hh']

theorem runOn_ok {c : CoreId} {i : Instr} {s0 s s2 : State} {body : CM Flow} {f : Flow} (n : Nat)
    (hm : (getCore s c).micro.run = none) (hb : body.run s = .ok f s2) :
    runOn c i body s0 (n + 1) s = retire c i f s2 := by
  rw [runOn]
  simp only [hm, Option.isSome_none, Bool.false_eq_true, ↓reduceIte, hb]

/-- An instruction that a core takes and whose operation ends in its first run. -/
theorem issue_retire {c : CoreId} {i : Instr} {s s1 s2 : State} {body : CM Flow} {f : Flow} (h : Takes c i s s1)
    (hb : body s1 = .ok f s2) : issue c i body s = .next (retire c i f s2) := by
  obtain ⟨s0, ha, hm, hd, -, -, -⟩ := h
  have : (runInstr c i body).run s0 = .ok f s2 := by
    have hd' : decodeChecks c i s0 = .ok () s1 := hd
    simp only [runInstr, cm_run, cm_bind, hd', hb]
  rw [issue, ha, ← runOn_ok (s0 := s0) 31 hm this]
  rfl

theorem issue_taken {c : CoreId} {i : Instr} {s s1 s2 : State} {body : CM Flow} {f : Flow} (h : Takes c i s s1)
    (hb : body s1 = .ok f s2) (hs : stSSTEP (getCore s2 c) = false)
    (hh : (getCore s2 c).st.shadow = []) : issue c i body s = .next (advanced c i f s2) := by
  rw [issue_retire h hb, retire_advanced c i f s2 hs hh]

theorem runOn_exc {c : CoreId} {i : Instr} {s0 s s2 : State} {body : CM Flow} {e : ExcArgs} (n : Nat)
    (hm : (getCore s c).micro.run = none) (hb : body.run s = .error (.exc e) s2) :
    runOn c i body s0 (n + 1) s = raiseAt c e s2 := by
  rw [runOn]
  simp only [hm, Option.isSome_none, Bool.false_eq_true, ↓reduceIte, hb]

/-- An instruction that raises an exception in its first run. -/
theorem issue_exc {c : CoreId} {i : Instr} {s s1 s2 : State} {body : CM Flow} {e : ExcArgs} (h : Takes c i s s1)
    (hb : body s1 = .error (.exc e) s2) : issue c i body s = .next (raiseAt c e s2) := by
  obtain ⟨s0, ha, hm, hd, -, -, -⟩ := h
  have : (runInstr c i body).run s0 = .error (.exc e) s2 := by
    have hd' : decodeChecks c i s0 = .ok () s1 := hd
    simp only [runInstr, cm_run, cm_bind, hd', hb]
  rw [issue, ha, ← runOn_exc (i := i) (s0 := s0) 31 hm this]
  rfl

/-- The same where the operation leaves `STATUS` as it finds it. -/
theorem issue_plain {c : CoreId} {i : Instr} {s s1 s2 : State} {body : CM Flow} {f : Flow} (h : Takes c i s s1)
    (hb : body s1 = .ok f s2) (hst : (getCore s2 c).st = (getCore s1 c).st) :
    issue c i body s = .next (advanced c i f s2) := by
  have ⟨_, _, _, _, hs, hh, _⟩ := h
  exact issue_taken h hb (by simpa [stSSTEP, hst] using hs) (by simpa [hst] using hh)

end Sys2Proof.Machine
end

