-- ==== Sys2Proof/Laws/Operate.lean ====
section
/-! SUPPORT. What the operations that instructions share answer: raw, long and generic arithmetic, bases, addresses and loads. -/

namespace Sys2Proof.Machine

theorem withReg_st (c r w s) : (getCore (withReg c r w s) c).st = (getCore s c).st := by simp [withReg]

/-- A raw operation on two operands that may be raw: the destination takes the result. -/
theorem rawBin_ok (c gd ga gb s f) (ha : rawOk (getCore s c) (opnd s c ga) = true) (hb : rawOk (getCore s c) (opnd s c gb) = true) :
  rawBin c gd ga gb f s = .ok () (withReg c gd ⟨0, f (opnd s c ga).payload (opnd s c gb).payload⟩ s) := by
  simp only [rawBin, cm_bind, rawOp_ok c s ga 0 ha, rawOp_ok c s gb 1 hb, cm_setReg]; rfl

/-- A sum that is some word's signed value is in range. -/
theorem signedOverflow_false (a : Int) (w : W64) (h : a = w.toInt) : signedOverflow a = false := by
  have := w.toInt_lt; have := w.le_toInt
  simp [signedOverflow, outOfRange]; omega

/-- A raw sum that does not overflow, or whose trap is off. -/
theorem rawSum_ok (c gd ga gb s) (f : Int → Int → Int) (r : W64) (ha : rawOk (getCore s c) (opnd s c ga) = true) (hb : rawOk (getCore s c) (opnd s c gb) = true)
  (hr : BitVec.ofInt 64 (f (opnd s c ga).payload.toInt (opnd s c gb).payload.toInt) = r)
  (ho : stOVE (getCore s c) = false ∨ f (opnd s c ga).payload.toInt (opnd s c gb).payload.toInt = r.toInt) :
  rawSum c gd ga gb f s = .ok () (withReg c gd ⟨0, r⟩ s) := by
  have h : (stOVE (getCore s c) && signedOverflow (f (opnd s c ga).payload.toInt (opnd s c gb).payload.toInt)) = false := by
    rcases ho with h | h
    · simp [h]
    · rw [signedOverflow_false _ _ h, Bool.and_false]
  simp only [opnd] at h hr
  simp only [rawSum, cm_bind, rawOp_ok c s ga 0 ha, rawOp_ok c s gb 1 hb, cm_cget, h, Bool.false_eq_true, if_false, cm_setReg, fixI, hr]
  rfl

/-- With no long operation in progress none completes. -/
theorem completeWhere_nil (p) (k : Core) (h : k.longs = []) : completeWhere p k = k := by
  unfold completeWhere; rw [h]; simp; cases k; simp_all

/-- An update that leaves the core as it is leaves the state as it is. -/
theorem modCore_id (s : State) (c : CoreId) (f : Core → Core) (h : f (getCore s c) = getCore s c) : modCore s c f = s := by
  unfold modCore
  have : f (s.cores.get c) = s.cores.get c := h
  rw [this]
  have : s.cores.set c.val (s.cores.get c) c.isLt = s.cores := by
    rw [vget_eq]; apply Vector.set_getElem_self
  rw [this]

/-- A long operation starts, where neither PRECISE nor DET completes it at once. -/
theorem startLong_ok (c o s) (h : (getCore s c).longs = []) (hp : stPRECISE (getCore s c) = false) (hd : stDET (getCore s c) = false) :
    startLong c o s = .ok () (modCore s c fun k => { k with longs := [o] }) := by
  simp only [startLong, cm_cmod]
  congr 1
  apply modCore_congr
  rw [completeWhere_nil _ _ h]
  simp [hp, hd, h]

/-- A raw long operation starts with its result. -/
theorem rawLong_ok (c gd ga gb f s) (ha : rawOk (getCore s c) (opnd s c ga) = true) (hb : rawOk (getCore s c) (opnd s c gb) = true)
  (h : (getCore s c).longs = []) (hp : stPRECISE (getCore s c) = false) (hd : stDET (getCore s c) = false) :
  rawLong c gd ga gb f s = .ok () (modCore s c fun k => { k with longs := [longGpr (getCore s c) gd ⟨0, f (opnd s c ga).payload (opnd s c gb).payload⟩] }) := by
  simp only [rawLong, cm_bind, rawOp_ok c s ga 0 ha, rawOp_ok c s gb 1 hb, cm_cget, startLong_ok c _ s h hp hd]; rfl

/-- A raw divide starts with its result; a divisor of 0 where DZE is 0. -/
theorem rawDiv_ok (c gd ga gb f z s) (ha : rawOk (getCore s c) (opnd s c ga) = true) (hb : rawOk (getCore s c) (opnd s c gb) = true)
  (h : (getCore s c).longs = []) (hp : stPRECISE (getCore s c) = false) (hd : stDET (getCore s c) = false) (hz : stDZE (getCore s c) = false) :
  rawDiv c gd ga gb f z s = .ok () (modCore s c fun k => { k with longs := [{ longGpr (getCore s c) gd ⟨0, if (opnd s c gb).payload = 0 then z (opnd s c ga).payload (opnd s c gb).payload else f (opnd s c ga).payload (opnd s c gb).payload⟩ with divider := true }] }) := by
  simp only [rawDiv, cm_bind, rawOp_ok c s ga 0 ha, rawOp_ok c s gb 1 hb, cm_cget, hz, Bool.false_eq_true, false_and, and_false, if_false, startLong_ok c _ s h hp hd]; rfl

/-- A long operation's completion after its instruction leaves the destination as a write at once would. -/
theorem advanced_completeFirst (c i s1 o gd w) (ho : o = longGpr (getCore s1 c) gd w ∨ o = { longGpr (getCore s1 c) gd w with divider := true })
   (h : (getCore s1 c).longs = []) (hd : stDET (getCore s1 c) = false) (p : LongOp → Bool) (hpo : p o = true) :
   modCore (advanced c i {} (modCore s1 c fun k => { k with longs := [o] })) c (completeFirst p) = withReg c gd w (advanced c i {} s1) := by
  have hd' : stDET (getCore (modCore s1 c fun k => { k with longs := [o] }) c) = false := by simpa [stDET] using hd
  simp only [advanced, withReg, hd, hd', Bool.false_eq_true, if_false, modCore_modCore]
  clear hd'
  apply modCore_congr
  have hi : ipl (getCore s1 c) = ipl (getCore s1 c) := rfl
  rcases ho with rfl | rfl <;>
  · simp only [statusSet_none, endMicro, completeFirst, List.findIdx?_cons, hpo, if_true, List.getElem?_cons_zero, List.eraseIdx_zero, List.tail_cons]
    simp only [completeOp, longGpr, gwrite, setRegOf]
    split
    · simp_all
    · simp_all [modBank, ipl]

theorem plainWord_of_tag0 (w : Word) (h : w.tag = 0) : plainWord w = true := by obtain ⟨t, p⟩ := w; subst h; simp [plainWord]; decide

/-- A generic operation on fixnums. -/
theorem genericOp_fix_ok (c op gd ga b s1 w) (hx : (opnd s1 c ga).tag = 0) (hy : (genericSecond s1 c b).tag = 0) (hl : (getCore s1 c).longs = [])
  (h : genericEval (gmodeOf (getCore s1 c)) op ⟨0, (opnd s1 c ga).payload⟩ ⟨0,(genericSecond s1 c b).payload⟩ = .val w) :
  genericOp c op gd ga b s1 = .ok {} (withReg c gd w s1) := by
  have hx' : opnd s1 c ga = ⟨0, (opnd s1 c ga).payload⟩ := by rw [← hx]
  have hy' : genericSecond s1 c b = ⟨0, (genericSecond s1 c b).payload⟩ := by rw [← hy]
  rw [← hx', ← hy'] at h
  have hb : gsrc c b s1 = .ok (genericSecond s1 c b) s1 := by
    cases b with
    | reg r => exact regC_ok c s1 r 1 (plainWord_of_tag0 _ hy)
    | imm i => rfl
  have hid : modCore s1 c (completeWhere fun o => o.divider && !o.numeric) = s1 := modCore_id _ _ _ (completeWhere_nil _ _ hl)
  have hr : regC c ga 0 s1 = .ok (opnd s1 c ga) s1 := regC_ok c s1 ga 0 (plainWord_of_tag0 _ hx)
  simp only [genericOp, cm_bind, hr, hb]
  have : ((if 3 ≤ op ∧ op ≤ 5 ∧ (opnd s1 c ga).tag = 0 ∧ (genericSecond s1 c b).tag = 0 then (do cmod c (completeWhere fun o => o.divider && !o.numeric) : CM PUnit) else pure PUnit.unit) : CM PUnit) s1 = .ok () s1 := by
    split
    · simp [cm_cmod, hid]
    · rfl
  split
  all_goals (simp only [cm_bind, cm_cmod, hid, cm_cget, h, genericEnd, cm_thenNext, cm_setReg]; rfl)

/-- A fixnum result in range, or whose trap is off. -/
theorem fixRange_ok (m : GMode) (op : Nat) (r : Int) (w : W64) (h1 : BitVec.ofInt 64 r = w) (h : m.ove = false ∨ (-2^63 ≤ r ∧ r < 2^63)) : fixRange m op r = .val ⟨0, w⟩ := by
  unfold fixRange
  rw [if_neg]
  · simp [fixI, h1]
  · rcases h with h | h
    · simp [h]
    · simp [outOfRange]; omega

theorem plain_of_baseOk {k w} (h : baseOk k w = true) : plainWord w = true := by simp [baseOk] at h; exact h.1.1

/-- A register that holds no stale pointer heals to itself. -/
theorem healReg_ok (c r p s) (h : stale (getCore s c) (gread (getCore s c) r) = false) : healReg c r p s = .ok (gread (getCore s c) r) s := by
  simp [healReg, h]

/-- The base of an address that a pointer or a fixnum gives. -/
theorem baseAddr_ok (c r p s) (h : baseOk (getCore s c) (opnd s c r) = true) : baseAddr c r p s = .ok (opnd s c r).payload s := by
  have hp := plain_of_baseOk h
  simp only [baseOk, Bool.and_eq_true, Bool.not_eq_true'] at h
  simp only [opnd] at *
  have hst : stale (getCore s c) (gread (getCore s c) r) = false := by
    by_cases hq : isPtr (gread (getCore s c) r).tag = true
    · simp [hq] at h; exact h.2.2
    · simp [stale, staleFor, hq]
  simp only [baseAddr, cm_bind, cm_reg, checkBase, consume_ok c s _ p hp, h.1.2, Bool.false_eq_true, if_false, cm_pure, cm_cget]
  by_cases hq : isPtr (gread (getCore s c) r).tag = true
  · simp [hq] at h
    simp [hq, h.2.1, healReg_ok c r p s hst]
  · simp [hq] at h
    have hn : ¬(¬(gread (getCore s c) r).tag = 0#8 ∧ ¬(gread (getCore s c) r).tag = 6#8) := fun hn => h.2.2.elim hn.1 hn.2
    simp [hq, hn, h.2.1, healReg_ok c r p s hst]

theorem archCore_heap {a b : Core} (h : archCore a = archCore b) : a.heap = b.heap := by injection h

theorem archCore_st {a b : Core} (h : archCore a = archCore b) : a.st = b.st := by injection h

theorem archCore_replay {a b : Core} (h : archCore a = archCore b) : a.replay = b.replay := by injection h

/-- What an instruction has read in its run is forgotten when it retires. -/
theorem advanced_replay (c i f s w r) (g : Core → Replay): advanced c i f (withReg c r w (modCore s c fun k => {k with replay := g k})) = advanced c i f (withReg c r w s) := by
  have hd : ∀ t, stDET (getCore (withReg c r w t) c) = stDET (getCore t c) := fun t => by simp [stDET, withReg_st]
  have he : stDET (getCore (modCore s c fun k => {k with replay := g k}) c) = stDET (getCore s c) := by simp [stDET]
  simp only [advanced, hd, he]
  simp only [withReg, modCore_modCore]
  have hm : ∀ k : Core, ({ endMicro (gwrite { k with replay := g k } r w) with
      pc := f.next.getD (va48 ((gwrite { k with replay := g k } r w).pc + instrLen i))
      instret := (gwrite { k with replay := g k } r w).instret + BitVec.ofNat 64 f.count, replay := Replay.reset } : Core)
    = { endMicro (gwrite k r w) with
      pc := f.next.getD (va48 ((gwrite k r w).pc + instrLen i))
      instret := (gwrite k r w).instret + BitVec.ofNat 64 f.count, replay := Replay.reset } := by
    intro k; simp [gwrite, setRegOf, endMicro]; split <;> simp [modBank, ipl]
  simp only [hm]

/-- A multiple of eight is an aligned effective address. -/
theorem alignedEa_ok (c a s) (h : (va48 a).toNat % 8 = 0) : alignedEa c a s = .ok (va48 a) s := by
  have : fld (va48 a) 0 3 = 0 := by simpa [fld] using h
  simp [alignedEa, this]

end Sys2Proof.Machine
end

