-- ==== Sys2Proof/Laws/Percolator.lean ====
section
/-! SUPPORT. What an engine's accesses answer where no cache holds the line. -/

namespace Sys2Proof.Machine

section
variable (s : State) (e : EngCtx) (k : ClusterId) (p : CompId)

@[simp] theorem em_pure {α : Type} (x : α) : (pure x : EM α) e s = .ok x s := rfl

@[simp] theorem em_bind {α β : Type} (m : EM α) (f : α → EM β) :
    (m >>= f) e s = match m e s with
      | .ok x t => f x e t
      | .error b t => .error b t := by
  simp only [bind, ReaderT.bind, EStateM.bind]
  cases m e s <;> rfl

@[simp] theorem em_run {α : Type} (m : EM α) : (m.run e).run s = m e s := rfl
@[simp] theorem em_eget : eget e s = .ok s s := rfl
@[simp] theorem em_ectx : ectx e s = .ok e s := rfl
@[simp] theorem em_liftE {α : Type} (m : DM α) : liftE m e s = .ok (m s).1 (m s).2 := rfl
@[simp] theorem em_stopE {α : Type} (n : Byte) : (stopE n : EM α) e s = .error (.code n) s := rfl
@[simp] theorem em_emod (f : State → State) : emod f e s = .ok () (f s) := rfl

/-- A word that an engine reads with the L2 off and nothing cached. -/
theorem engRead_off (pa : BitVec 44) (o : Nat) (w : Nat → Word) (hd : paDev (pa &&& ~~~7#44) = s.devid)
    (ho : engOff p (pa &&& ~~~7#44) e s = .ok o s) (hl : ∀ j, (l2Of s j).lines = []) (hf : (l2Of s k).st ≠ .on)
    (h : ∀ i < 8, dramRead false (lineOff (lineOf (pa &&& ~~~7#44)) + 8 * i) s = (w i, s)) :
    engRead k p pa e s = .ok (w (fld (pa &&& ~~~7#44) 3 3)) s := by
  have hi : fld (pa &&& ~~~7#44) 3 3 < 8 := Nat.mod_lt _ (by decide)
  simp only [engRead, em_bind, em_eget, hd, ne_eq, not_true_eq_false, if_false, ho, em_liftE, em_pure,
    l2Fill_off s k _ _ false .demand w hl hf h, List.getD_eq_getElem?_getD, List.getElem?_map, List.getElem?_range hi, Option.map_some, Option.getD_some]

/-- A table word of `BYTES` that an engine reads with the L2 off and nothing cached. -/
theorem tabRead_off (pa : BitVec 44) (o : Nat) (w : Nat → Word) (hd : paDev (pa &&& ~~~7#44) = s.devid)
    (ho : engOff p (pa &&& ~~~7#44) e s = .ok o s) (hl : ∀ j, (l2Of s j).lines = []) (hf : (l2Of s k).st ≠ .on)
    (h : ∀ i < 8, dramRead false (lineOff (lineOf (pa &&& ~~~7#44)) + 8 * i) s = (w i, s)) (ht : (w (fld (pa &&& ~~~7#44) 3 3)).tag = 0x06) :
    tabRead k p pa e s = .ok (w (fld (pa &&& ~~~7#44) 3 3)).payload s := by
  simp only [tabRead, em_bind, engRead_off s e k p pa o w hd ho hl hf h, ht]
  rfl

theorem em_mapM {α β : Type} (f : α → EM β) (g : α → β) (l : List α) (h : ∀ a ∈ l, f a e s = .ok (g a) s) : l.mapM f e s = .ok (l.map g) s := by
  induction l with
  | nil => rfl
  | cons a l ih =>
    rw [List.mapM_cons, em_bind, h a (by simp)]
    simp only [em_bind, ih fun b hb => h b (List.mem_cons_of_mem _ hb), em_pure, List.map_cons]

/-- The entry of an address whose eight words can be read. -/
theorem regionOf_ok (pa entry : BitVec 44) (o : Nat) (w : Nat → Word) (ho : engOff p (pa &&& ~~~7#44) e s = .ok o s)
    (he : (getPerc s k p).rtab + BitVec.ofNat 44 (64 * regionNo pa) = entry)
    (h : ∀ i ∈ List.range 8, engRead k p (entry + BitVec.ofNat 44 (8 * i)) e s = .ok (w i) s)
    (hp : ((List.range 8).map w).any (fun w => w.tag == 0x08) = false) :
    regionOf k p pa e s = .ok (regionOfWords pa entry ((List.range 8).map w)) s := by
  simp only [regionOf, em_bind, ho, em_eget, he, em_mapM s e _ w _ h, hp, Bool.false_eq_true, if_false, em_pure]

/-- A lookup that meets no bad entry drops none. -/
theorem engTlbParity_clean (va : W64) (h : ∀ x ∈ (getEng s k).tlb, x.2.bad = false) : engTlbParity k p va s = s := by
  unfold engTlbParity
  simp only
  rw [if_neg]
  simp only [List.any_eq_true, not_exists, not_and, Bool.and_eq_true]
  intro x hx hb
  rw [h x hx] at hb
  cases hb

/-- A translation that the engine's TLB holds. -/
theorem engLookup_hit (va : W64) (t : TlbEntry) (hb : bit (getPerc s k p).ptbase 0 = true) (hc : ∀ x ∈ (getEng s k).tlb, x.2.bad = false)
    (h : tlbFind (getEng s k).tlb (compNo p) (getPerc s k p).sid va s = (some t, s)) : engLookup k p va e s = .ok t s := by
  simp only [engLookup, em_bind, em_emod, engTlbParity_clean s k p va hc, em_eget, hb, Bool.not_true, Bool.false_eq_true, if_false, em_liftE, h,
    em_pure]

theorem engXlate_hit (va : W64) (t : TlbEntry) (write : Bool) (h : engLookup k p (va48 va) e s = .ok t s)
    (ho : (!pteA t.pte || (write && !pteD t.pte) || pteMt t.pte != .cached) = false) :
    engXlate k p va write e s = .ok { pa := entryPa t (va48 va), mt := pteMt t.pte, rattr := pteRattr t.pte, level := t.level.val } s := by
  simp only [engXlate, em_bind, h, ho, Bool.false_eq_true, if_false, em_pure]

/-- The region that a command names, on this device, mapped by one 2 MiB leaf. -/
theorem commandRegion_ok (va : W64) (x : Xlat) (r : Region) (hx : engXlate k p va false e s = .ok x s) (hl : x.level = 1)
    (hd : paDev x.pa = s.devid) (hr : regionOf k p x.pa e s = .ok r s) (hk : r.kind ≠ 0) :
    commandRegion k p va e s = .ok (r, x.rattr) s := by
  simp only [commandRegion, em_bind, hx, em_eget, hd, hl, ne_eq, not_true_eq_false, if_false, hr, hk, em_pure]

/-- A card whose bit is set is not copied again. -/
theorem copyCard_done (pa : BitVec 44) (r : Region) (v : W64) (hr : regionOf k p pa e s = .ok r s) (hk : r.kind ≠ 0)
    (ht : tabRead k p (cardBit r pa).1 e s = .ok v s) (hb : bit v (cardBit r pa).2 = true) : copyCard k p pa e s = .ok false s := by
  have h : cardCopied k p pa e s = .ok true s := by
    simp only [cardCopied, em_bind, hr, hk, if_false, ht, em_pure, hb]
  simp only [copyCard, em_bind, h, if_true, em_pure]

/-- The words of the slot at `HEAD`. -/
theorem fetchSlot_ok (a : BitVec 44) (w : Nat → Word) (ha : slotPa (getPerc s k p) = a)
    (h : ∀ i ∈ List.range 4, engRead k p (a + BitVec.ofNat 44 (8 * i)) e s = .ok (w i) s) : fetchSlot k p e s = .ok ((List.range 4).map w) s := by
  simp only [fetchSlot, em_bind, em_eget, ha, em_mapM s e _ w _ h]

end

end Sys2Proof.Machine
end

