-- ==== Sys2Proof/Tests/Slice0.lean ====
section
/-! SUPPORT. Tests of one step each, and for every statement with hypotheses a state and operands that meet them (`wit_…`). -/

namespace Sys2Proof.Tests

open Sys2Proof Sys2Proof.Machine

-- One theorem at a time: the kernel evaluates each, and a thread for each would not fit in memory.
set_option Elab.async false

/-! ## What a test asks of a state -/

/-- The state that an instruction begins in, where the core takes it. -/
def takes? (c : CoreId) (i : Instr) (s : State) : Option State :=
  match admission c i s with
  | .ready s0 =>
    if (getCore s0 c).micro.run.isNone then
      match (decodeChecks c i).run s0 with
      | .ok () s1 =>
        if !stSSTEP (getCore s1 c) && (getCore s1 c).st.shadow.isEmpty && decide ((getCore s1 c).replay = Replay.reset) then some s1 else none
      | .error _ _ => none
    else none
  | _ => none

theorem takes_iff (c : CoreId) (i : Instr) (s s1 : State) (h : takes? c i s = some s1) : Takes c i s s1 := by
  unfold takes? at h
  split at h
  · rename_i s0 h0
    split at h
    · rename_i hm
      split at h
      · rename_i t ht
        split at h
        · rename_i hh
          simp only [Bool.and_eq_true, Bool.not_eq_true', decide_eq_true_eq, List.isEmpty_iff] at hh
          cases h
          exact ⟨s0, h0, Option.isNone_iff_eq_none.mp hm, ht, hh.1.1, hh.1.2, hh.2⟩
        · cases h
      · cases h
    · cases h
  · cases h

/-- What a load of the word at `ea` leaves and delivers, where memory answers it at once. -/
def reads? (c : CoreId) (ea : W64) (s : State) : Option (State × Word) :=
  match (xlateData c ea .load (!isSys (getCore s c))).run s with
  | .ok x t => match (readWord c ea x).run t with
    | .ok w u => if archCore (getCore t c) = archCore (getCore s c) ∧ archCore (getCore u c) = archCore (getCore s c) then some (u, w) else none
    | .error _ _ => none
  | .error _ _ => none

theorem reads_iff (c : CoreId) (ea : W64) (s t : State) (w : Word) (h : reads? c ea s = some (t, w)) : Reads c ea s t w := by
  unfold reads? at h
  split at h
  · rename_i x t' hx
    split at h
    · rename_i w' u' hw
      split at h
      · rename_i hh
        cases h
        exact ⟨x, t', hx, hw, hh.1, hh.2⟩
      · cases h
    · cases h
  · cases h

/-- What a store to `ea` leaves, and where it goes, where its checks pass at once. -/
def stores? (c : CoreId) (ea : W64) (s : State) : Option (State × Xlat) :=
  match (xlateData c ea .store (!isSys (getCore s c))).run s with
  | .ok x t =>
    if isRemote t x.pa = false ∧ regionPending t (getCore t c).compart x.rattr x.pa = false ∧ archCore (getCore t c) = archCore (getCore s c)
      ∧ (getCore t c).sq.length < 8 ∧ (getCore t c).recent.length ≤ 4 then some (t, x) else none
  | .error _ _ => none

theorem stores_iff (c : CoreId) (ea : W64) (s t : State) (x : Xlat) (h : stores? c ea s = some (t, x)) : StoresAt c ea s t x := by
  unfold stores? at h
  split at h
  · rename_i x' t' hx
    split at h
    · rename_i hh
      cases h
      exact ⟨hx, hh.1, hh.2.1, hh.2.2.1, hh.2.2.2.1, hh.2.2.2.2⟩
    · cases h
  · cases h

/-- The core takes each of the instructions, and its operation begins in a state of which `p` holds. -/
def allTaken (c : CoreId) (is : List Instr) (s : State) (p : State → Bool) : Bool := is.all fun i => (takes? c i s).any p

/-- The answer of a command is a next state of which `p` holds. -/
def next (i : Instr) (s : State) (p : State → Bool) : Bool := match exec i s with
  | .next t => p t
  | _ => false

/-! ## Small states -/

/-- A running core at 0x1000 with four registers set. -/
def demoCore (st : W64) (a b d e : Word) : Core :=
  gwrite (gwrite (gwrite (gwrite { Core.reset with run := .running, pc := 0x1000, st := { newest := st, force := st, shadow := [] } } 1 a) 2 b) 3 d) 4 e

/-- Memory with two words of `BYTES` at 0x1000. -/
def demoDram : SMap DramWord := [(0x200, toDram ⟨0x06, 0⟩), (0x201, toDram ⟨0x06, 0⟩)]

/-- Core 0 runs in physical addresses, with STATUS `st` and g1 to g4 set. -/
def demo (st : W64) (a b d e : Word) : State :=
  { modCore State.reset 0 (fun _ => demoCore st a b d e) with dram := { State.reset.dram with units := 4, words := demoDram } }

/-- A state with some words of memory. -/
def withWords (ws : SMap DramWord) (s : State) : State := { s with dram := { s.dram with words := demoDram ++ ws } }

/-- A state with core 0 changed. -/
def core0 (f : Core → Core) (s : State) : State := modCore s 0 f

/-- STATUS bits (03 Table 3.4): system mode, and with it one more bit each. -/
def stS (n : Nat) : W64 := BitVec.ofNat 64 (1 + 2 ^ n)

/-! ## Witnesses: raw and generic instructions -/

/-- Both operands raw. -/
def rawPair (s : State) : Bool := rawOk (getCore s 0) (opnd s 0 1) && rawOk (getCore s 0) (opnd s 0 2)

theorem wit_RawArithmetic_results : allTaken 0 [.add 0 3 1 2, .sub 0 3 1 2, .and 0 3 1 2, .or 0 3 1 2, .xor 0 3 1 2, .shl 0 3 1 2, .shr 0 3 1 2,
    .sar 0 3 1 2, .rol 0 3 1 2, .cmps 0 3 1 2, .cmpu 0 3 1 2, .add 0 0 1 2] (demo 1 (fix (-1)) (fix 64) uninit uninit)
    (fun s => rawPair s && !stOVE (getCore s 0)) = true := by decide +kernel

/-- The largest operands of which sum and difference still fit, under `OVE`. -/
theorem wit_RawArithmetic_fits : (takes? 0 (.add 0 3 1 2) (demo (stS 5) (fix 0x7FFFFFFFFFFFFFFE) (fix 1) uninit uninit)).any (fun s => rawPair s
    && stOVE (getCore s 0) && (opnd s 0 1).payload.toInt + (opnd s 0 2).payload.toInt == ((opnd s 0 1).payload + (opnd s 0 2).payload).toInt) = true
  ∧ (takes? 0 (.sub 0 3 1 2) (demo (stS 5) (fix 0x8000000000000001) (fix 1) uninit uninit)).any (fun s => rawPair s
    && (opnd s 0 1).payload.toInt - (opnd s 0 2).payload.toInt == ((opnd s 0 1).payload - (opnd s 0 2).payload).toInt) = true := by decide +kernel

/-- The smallest sums and differences that do not. -/
theorem wit_RawArithmetic_overflow : allTaken 0 [.add 0 3 1 2, .addi 0 3 1] (demo (stS 5) (fix 0x7FFFFFFFFFFFFFFF) (fix 1) (fix 0x7FFFFFFFFFFFFFFF) uninit)
    (fun s => stOVE (getCore s 0) && rawPair s && rawOk (getCore s 0) (opnd s 0 3)
      && decide (2 ^ 63 ≤ (opnd s 0 1).payload.toInt + (opnd s 0 2).payload.toInt) && decide (2 ^ 63 ≤ (opnd s 0 3).payload.toInt + (1 : BitVec 16).toInt)) = true
  ∧ allTaken 0 [.sub 0 3 1 2, .addi 0 3 0xFFFF] (demo (stS 5) (fix 0x8000000000000000) (fix 1) (fix 0x8000000000000000) uninit)
    (fun s => stOVE (getCore s 0) && rawPair s && rawOk (getCore s 0) (opnd s 0 3)
      && decide ((opnd s 0 1).payload.toInt - (opnd s 0 2).payload.toInt < -2 ^ 63)
      && decide ((opnd s 0 3).payload.toInt + (0xFFFF : BitVec 16).toInt < -2 ^ 63)) = true := by decide +kernel

/-- A second operand of 0 is among those of the long operations. -/
theorem wit_RawArithmetic_long : allTaken 0 [.mul 0 3 1 2, .mulh 0 3 1 2, .div 0 3 1 2, .divu 0 3 1 2, .rem 0 3 1 2, .remu 0 3 1 2]
    (demo 1 (fix 9) (fix 0) uninit uninit) (fun s => rawPair s && (getCore s 0).longs.isEmpty && !stPRECISE (getCore s 0) && !stDET (getCore s 0)
      && !stDZE (getCore s 0)) = true := by decide +kernel

theorem wit_RawArithmetic_immediate : allTaken 0 [.addi 0 3 0xFFFF, .andi 0 3 1, .ori 0 3 1, .xori 0 3 1, .shli 0 3 63, .shri 0 3 63, .sari 0 3 63,
    .movi 0 3 0x8000, .movhi 0 3 0x8000 2] (demo 1 uninit uninit (fix 0) uninit)
    (fun s => rawOk (getCore s 0) (opnd s 0 3) && !stOVE (getCore s 0)) = true := by decide +kernel

theorem wit_FixnumResults : allTaken 0 [.gadd 0 3 1 (.reg 2), .gsub 0 3 1 (.reg 2), .gmul 0 3 1 (.reg 2), .gquo 0 3 1 (.reg 2), .grem 0 3 1 (.reg 2),
    .gneg 0 3 1, .glt 0 3 1 (.reg 2), .gle 0 3 1 (.reg 2), .geq 0 3 1 (.reg 2), .gcmp 0 3 1 (.reg 2), .gdiv 0 3 1 (.reg 2), .gadd 0 3 1 (.imm (-1))]
    (demo 0x1081 (fix (-7)) (fix 2) uninit uninit)
    (fun s => (opnd s 0 1).tag == 0x00 && (opnd s 0 2).tag == 0x00 && (getCore s 0).longs.isEmpty && !stOVE (getCore s 0) && stPRECISE (getCore s 0)
      && stTRUNC (getCore s 0)) = true := by decide +kernel

theorem wit_TagInstructions : allTaken 0 [.gtag 0 3 1, .tcls 0 3 1, .eq 0 3 1 (.reg 2), .stag 0 3 1 0x03, .stag 0 3 1 0x80] (demo (stS 14) (fix 5) (fix 5) uninit uninit)
    (fun s => plainWord (opnd s 0 1) && plainWord (opnd s 0 2) && !stale (getCore s 0) (opnd s 0 1) && !stale (getCore s 0) (opnd s 0 2)
      && !isReserved 0x03 && !isPtr 0x03 && isSys (getCore s 0) && stFORGE (getCore s 0) && !isReserved 0x80 && isPtr 0x80) = true := by decide +kernel

/-- `STAG`: a reserved tag; a pointer tag without `FORGE`; a user's pointer operand; `TCLS` of a tag with its class in memory. -/
theorem wit_TagInstructions_faults : (takes? 0 (.stag 0 3 1 0x10) (demo 1 (fix 5) uninit uninit uninit)).any (fun s => plainWord (opnd s 0 1) && isReserved 0x10) = true
  ∧ (takes? 0 (.stag 0 3 1 0x08) (demo 1 (fix 5) uninit uninit uninit)).any (fun s => !isReserved 0x08 && !stFORGE (getCore s 0)) = true
  ∧ (takes? 0 (.tcls 0 3 1) (core0 (fun k => { k with heap := { k.heap with tclassBase := 0x1000 } }) (demo 1 ⟨0x03, 0⟩ uninit uninit uninit))).any (fun s => match (tagClass 0 (opnd s 0 1).tag).run s with
      | .ok _ _ => true | .error _ _ => false) = true := by decide +kernel

/-! ## Witnesses: lists, objects and memory -/

/-- The state and operation that `f` begins in go on to a state of which `p` holds. -/
def ran {α : Type} (m : CM α) (s : State) (p : α → State → Bool) : Bool := match m.run s with
  | .ok a t => p a t
  | .error _ _ => false

/-- A load, and a store, of core 0 that is carried out at once, and what follows. -/
def afterLoad (ea : W64) (s : State) (p : Word → State → Bool) : Bool := (reads? 0 ea s).any fun x => p x.2 x.1
def afterStore (ea : W64) (s : State) (p : Xlat → State → Bool) : Bool := (stores? 0 ea s).any fun x => p x.2 x.1

/-- Core 0 with a few words at 0x2000; g1 is a pair there, g2 a number, g3 an object there, g4 an address. -/
def demoObj (ws : SMap DramWord) : State := withWords ws (demo 1 ⟨0xA0, 0x2000⟩ (fix 0) ⟨0xA2, 0x2000⟩ (fix 0x2000))

def pairAt : SMap DramWord := [(0x400, toDram (fix 5)), (0x401, toDram ⟨0x03, 0⟩)]

def goodPair (s : State) : Bool := let w := opnd s 0 1
  isPtr w.tag && ptype w.tag == 0 && wellFormed w && !stale (getCore s 0) w

theorem wit_ListCells_nil : allTaken 0 [.car 0 3 1, .cdr 0 3 1] (demo (stS 13) ⟨0x03, 0⟩ uninit uninit uninit)
    (fun s => opnd s 0 1 == nilW && stNILCAR (getCore s 0)) = true := by decide +kernel

theorem wit_ListCells_pair : (takes? 0 (.car 0 3 1) (demoObj pairAt)).any (fun s => goodPair s
      && afterLoad (va48 (opnd s 0 1).payload) s fun v _ => v.tag != 0x08 && !stale (getCore s 0) v)
  ∧ (takes? 0 (.cdr 0 3 1) (demoObj pairAt)).any (fun s => goodPair s
      && afterLoad (va48 ((opnd s 0 1).payload + 8)) s fun v _ => v.tag != 0x08 && !stale (getCore s 0) v) := by decide +kernel

theorem wit_ListCells_replace : (takes? 0 (.rplaca 0 1 2) (demoObj pairAt)).any (fun s => goodPair s && !isPtr (opnd s 0 2).tag
      && afterStore (va48 (opnd s 0 1).payload) s fun _ _ => true)
  ∧ (takes? 0 (.rplacd 0 1 2) (demoObj pairAt)).any (fun s => goodPair s && !isPtr (opnd s 0 2).tag
      && afterStore (va48 ((opnd s 0 1).payload + 8)) s fun _ _ => true) := by decide +kernel

/-- Room for one pair, and for none. -/
def roomFor (lim : W64) (s : State) : State := core0 (fun k => { k with heap := { k.heap with allocPtr := 0x2000, allocLim := lim } }) s

theorem wit_ListCells_cons : (takes? 0 (.cons 0 3 1 2) (roomFor 0x2010 (demoObj []))).any (fun s =>
      let p := (getCore s 0).heap.allocPtr
      decide (p.toNat + 16 ≤ (getCore s 0).heap.allocLim.toNat ∧ p.toNat % 16 = 0 ∧ p.toNat < 2 ^ 48)
      && afterStore p s fun x t => afterStore (p + 8) t fun y _ => y.mt == x.mt && y.pa == x.pa + 8 && x.pa.toNat % 16 == 0)
  ∧ (takes? 0 (.cons 0 3 1 2) (roomFor 0x200F (demoObj []))).any (fun s =>
      decide ((getCore s 0).heap.allocLim.toNat < (getCore s 0).heap.allocPtr.toNat + 16) && (getCore s 0).micro.table.isEmpty) := by decide +kernel

theorem wit_LwalkFinds : (takes? 0 (.lwalk 0 none 3 2 2) (demo 1 uninit ⟨0x03, 0⟩ uninit uninit)).any (fun s => opnd s 0 2 == nilW && (getCore s 0).micro.table.isEmpty)
  ∧ (takes? 0 (.lwalk 0 none 3 1 2) (withWords pairAt (demo 1 ⟨0xA0, 0x2000⟩ (fix 5) uninit uninit))).any (fun s => goodPair s && (getCore s 0).micro.table.isEmpty
      && plainWord (opnd s 0 2) && !stale (getCore s 0) (opnd s 0 2)
      && afterLoad (va48 (opnd s 0 1).payload) s fun v _ => v.tag != 0x08 && !stale (getCore s 0) v && same v (opnd s 0 2)) := by decide +kernel

def objAt : SMap DramWord := [(0x400, toDram ⟨0x04, 1⟩), (0x401, toDram (fix 9))]

def goodObj (r : Reg) (s : State) : Bool := let w := opnd s 0 r
  isHeaded w.tag && wellFormed w && !stale (getCore s 0) w

/-- The first and only element, and the index behind it. -/
theorem wit_ObjectInstructions_element : allTaken 0 [.hdr 0 4 3, .vlen 0 4 3, .vref 0 4 3 2] (demoObj objAt) (fun s => goodObj 3 s
    && afterLoad (va48 (opnd s 0 3).payload) s fun h t => h.tag == 0x04 && (opnd s 0 2).tag == 0x00 && decide ((opnd s 0 2).payload.toNat < hdrLen h)
      && afterLoad (va48 ((opnd s 0 3).payload + 8 * ((opnd s 0 2).payload + 1))) t fun v _ => v.tag != 0x08 && !stale (getCore s 0) v)
  ∧ (takes? 0 (.vref 0 4 3 2) (core0 (fun k => gwrite k 2 (fix 1)) (demoObj objAt))).any (fun s => goodObj 3 s
    && afterLoad (va48 (opnd s 0 3).payload) s fun h _ => h.tag == 0x04 && (opnd s 0 2).tag == 0x00 && decide (hdrLen h ≤ (opnd s 0 2).payload.toNat)) := by
  decide +kernel

theorem wit_ObjectInstructions_store : (takes? 0 (.vset 0 4 3 2) (demoObj objAt)).any (fun s => goodObj 3 s && !isPtr (opnd s 0 4).tag
    && afterLoad (va48 (opnd s 0 3).payload) s fun h t => h.tag == 0x04 && (opnd s 0 2).tag == 0x00 && decide ((opnd s 0 2).payload.toNat < hdrLen h)
      && afterStore (va48 ((opnd s 0 3).payload + 8 * ((opnd s 0 2).payload + 1))) t fun _ _ => true)
  ∧ (takes? 0 (.alloc 0 3 2 1) (roomFor 0x2010 (demoObj []))).any (fun s => let w := opnd s 0 2
      let h := (getCore s 0).heap
      w.tag == 0x00 && decide (w.payload.toNat < 2 ^ 32 ∧ h.allocPtr.toNat < 2 ^ 48
        ∧ h.allocPtr.toNat + (8 * (w.payload.toNat + 1) + 15) / 16 * 16 ≤ h.allocLim.toNat)
      && afterStore h.allocPtr s fun _ _ => true) := by decide +kernel

/-- A base in g4 with displacement 0 is an address that may be used, and aligned. -/
def goodBase (s : State) : Bool := baseOk (getCore s 0) (opnd s 0 4) && decide ((va48 (opnd s 0 4).payload).toNat % 8 = 0)

theorem wit_TaggedAccesses_load : allTaken 0 [.ldw 0 3 4 0 0, .ldwNb 0 3 4 0 0] (demoObj objAt) (fun s => goodBase s && isSys (getCore s 0)
    && afterLoad (va48 (opnd s 0 4).payload) s fun v _ => v.tag != 0x08 && !stale (getCore s 0) v)
  ∧ (takes? 0 (.ldw 0 3 4 0 0) (demoObj [(0x400, toDram ⟨0x08, 3⟩)])).any (fun s => goodBase s
    && afterLoad (va48 (opnd s 0 4).payload) s fun v _ => v.tag == 0x08) := by decide +kernel

theorem wit_TaggedAccesses_store : allTaken 0 [.stw 0 2 4 0 0, .stwNb 0 2 4 0 0] (demoObj []) (fun s => goodBase s && isSys (getCore s 0)
    && !isPtr (opnd s 0 2).tag && afterStore (va48 (opnd s 0 4).payload) s fun _ _ => true) = true := by decide +kernel

/-- The last byte of a word is loaded; the other widths are aligned. -/
theorem wit_RawAccesses_load : allTaken 0 [.ldH 0 3 4 false 6, .ldW 0 3 4 true 4] (demoObj objAt)
      (fun s => baseOk (getCore s 0) (opnd s 0 4) && (afterLoad (va48 ((opnd s 0 4).payload + 4)) s fun v _ => plainWord v)
        && (afterLoad (va48 ((opnd s 0 4).payload + 6)) s fun v _ => plainWord v))
  ∧ (takes? 0 (.ldB 0 3 4 false 7) (demoObj objAt)).any (fun s => baseOk (getCore s 0) (opnd s 0 4)
      && afterLoad (va48 ((opnd s 0 4).payload + 7)) s fun v _ => plainWord v)
  ∧ (takes? 0 (.ldD 0 3 4 false 0) (demoObj objAt)).any (fun s => goodBase s && afterLoad (va48 (opnd s 0 4).payload) s fun v _ => plainWord v) := by
  decide +kernel

def bytesAt : SMap DramWord := [(0x400, toDram ⟨0x06, 0x1122334455667788⟩), (0x401, toDram ⟨0x06, 0⟩)]

theorem wit_RawAccesses_store : allTaken 0 [.stB 0 2 4 0, .stH 0 2 4 0, .stW 0 2 4 0, .stD 0 2 4 0] (demoObj bytesAt) (fun s => goodBase s
    && plainWord (opnd s 0 2) && afterStore (va48 (opnd s 0 4).payload) s fun x t => x.mt != .device
      && ran (targetWord 0 (va48 (opnd s 0 4).payload) x) t fun old u => old.tag == 0x06 && archCore (getCore u 0) == archCore (getCore t 0)
        && !regionPending u (getCore u 0).compart x.rattr x.pa && !isRemote u x.pa) = true := by decide +kernel

/-- A queued store of core 0. -/
def demoStore (mt : MemType) (split : Option W64) : SqEntry :=
  { mt := mt, user := false, writes := [{ pa := 0x2000, mask := 0xFF, w := fix 1, tagged := true }], pc := 0x1000, split := split, full := false }

theorem wit_RawAccesses_split : ∃ (s : State) (e : SqEntry) (up : W64), (getCore s 0).sq = [e] ∧ e.split = some up ∧ e.mt = .uncached
    ∧ (e.writes.take 1).all (fun w => localOk s (getCore s 0).compart w.pa) = true :=
  ⟨core0 (fun k => { k with sq := [demoStore .uncached (some 0x2008)] }) (demoObj []), demoStore .uncached (some 0x2008), 0x2008, by decide +kernel⟩

theorem wit_StoreIsSeenByLoad : isRemote (demoObj []) 0x2000 = false := by decide +kernel

def nineAt : SMap DramWord := [(0x400, toDram (fix 9))]

/-- `CASW` where memory holds another word, the expected one, and `POISON`. -/
theorem wit_CaswCompares : [(fix 8, nineAt, false), (fix 9, nineAt, true), (fix 9, [(0x400, toDram ⟨0x08, 9⟩)], false)].all (fun e =>
    (takes? 0 (.casw 0 3 4 2) (core0 (fun k => gwrite k 3 e.1) (demoObj e.2.1))).any fun s =>
    let k := getCore s 0
    goodBase s && plainWord (opnd s 0 3) && !stale k (opnd s 0 3) && !isPtr (opnd s 0 2).tag && decide (k.recent.length ≤ 4)
    && ran (xlateData 0 (va48 (opnd s 0 4).payload) .rmw (!isSys k)) s fun x t => x.mt != .device && !isRemote t x.pa && (getCore t 0).sq.isEmpty
      && !unacked t 0 && archCore (getCore t 0) == archCore k
      && match ownedRead 0 x t with
        | (old, u) => archCore (getCore u 0) == archCore k && same old (opnd s 0 3) == e.2.2 && (old.tag == 0x08) == (e.2.1 != nineAt)
          && !regionPending u k.compart x.rattr x.pa && !isRemote u x.pa) = true := by decide +kernel

/-! Block instructions: g1 the count, g2 the indices, g3 and g4 raw addresses. -/

def demoBlock (n : W64) (a b : Word) (ws : SMap DramWord) : State :=
  core0 (fun k => gwrite k 5 (fix 9)) (withWords ws (demo 1 (fix n) (fix 0) a b))

theorem wit_BlockInstructions_none : allTaken 0 [.movw 0 (some 1) 3 4 2, .fillw 0 (some 1) 3 4 2, .scanw 0 (some 1) 3 4 2, .cmpw 0 (some 1) 3 4 2,
    .movb 0 (some 1) 3 4 2, .lwalk 0 (some 1) 3 4 2] (demoBlock 0 (fix 0x2000) (fix 0x2008) []) (fun s => plainWord (opnd s 0 1)
      && decide ((opnd s 0 1).payload.toInt ≤ 0) && (getCore s 0).micro.table.isEmpty) = true := by decide +kernel

/-- A pair of the core whose bases are g3 and g4, with n elements. -/
def startsPair (n : Nat) (s : State) : Bool := (getCore s 0).micro.table.isEmpty && plainWord (opnd s 0 1) && plainWord (opnd s 0 2)
  && decide ((opnd s 0 1).payload.toInt = n ∧ 0 < n)

/-- The operation goes on within an instruction that has written nothing, to a state of which `p` holds. -/
def goesOn {α : Type} (s1 : State) (m : CM α) (s : State) (p : α → State → Bool) : Bool := ran m s fun a t =>
  let a0 := archCore { getCore s1 0 with replay := Replay.reset }
  decide (a0 = archCore { getCore t 0 with replay := Replay.reset }) && (getCore s1 0).replay.done == (getCore t 0).replay.done && p a t

/-- All n elements from index i on lie in the bound and in one line; the store queue takes an entry. -/
def oneIteration (o : BObj) (i n : Nat) (byte : Bool) (x : Xlat) : Bool :=
  decide (i < o.bound ∧ n ≤ objRoom o i byte) && x.pa.toNat % 64 == (elemAddr o i byte).toNat % 64
def queueTakes (x : Xlat) (s : State) : Bool := !isRemote s x.pa && !regionPending s (getCore s 0).compart x.rattr x.pa
  && decide ((getCore s 0).sq.length < 8 ∧ (getCore s 0).recent.length ≤ 4) && !(getCore s 0).replay.done

/-- The indices of the two objects (04 R113). -/
def idxs (s : State) : Nat × Nat := (fld (opnd s 0 2).payload 0 32, fld (opnd s 0 2).payload 32 32)

theorem wit_BlockInstructions_fill : (takes? 0 (.fillw 0 (some 1) 3 5 2) (demoBlock 3 (fix 0x2000) (fix 0x2008) [])).any (fun s => startsPair 3 s
    && !isPtr (opnd s 0 5).tag && goesOn s (blockObj 0 3 5 false) s fun d t => goesOn s (openStream 0 d (idxs s).2 false .store) t fun y u =>
      oneIteration d (idxs s).2 3 false y && queueTakes y u) = true := by decide +kernel

theorem wit_BlockInstructions_move : (takes? 0 (.movw 0 (some 1) 3 4 2) (demoBlock 2 (fix 0x2000) (fix 0x2008) bytesAt)).any (fun s => startsPair 2 s
    && goesOn s (blockObj 0 4 0 false) s fun o t => goesOn s (blockObj 0 3 5 false) t fun d u =>
      goesOn s (openStream 0 o (idxs s).1 false .load) u fun x v => goesOn s (openStream 0 d (idxs s).2 false .store) v fun y w =>
      goesOn s (loadWords 0 (elemAddr o (idxs s).1 false) x 2) w fun ws z => oneIteration o (idxs s).1 2 false x && oneIteration d (idxs s).2 2 false y
        && queueTakes y z && (ascending x.pa y.pa ws).all fun w => !isPtr w.tag) = true := by decide +kernel

theorem wit_BlockInstructions_bytes : (takes? 0 (.movb 0 (some 1) 3 4 2) (demoBlock 11 (fix 0x2000) (fix 0x2003) bytesAt)).any (fun s => startsPair 11 s
    && goesOn s (blockObj 0 4 0 true) s fun o t => goesOn s (blockObj 0 3 5 true) t fun d u =>
      goesOn s (openStream 0 o (idxs s).1 true .load) u fun x v => goesOn s (openStream 0 d (idxs s).2 true .store) v fun y w =>
      let a := elemAddr o (idxs s).1 true
      let b := elemAddr d (idxs s).2 true
      goesOn s (movbSource 0 a x (spanWords a 11)) w fun bs z =>
      goesOn s (movbStores 0 b y (movbBytes bs (a.toNat % 8) (if x.pa.toNat ≤ y.pa.toNat ∧ y.pa.toNat < x.pa.toNat + 11 then some (y.pa.toNat - x.pa.toNat) else none) 11)
        (spanWords b 11)) z fun _ z => oneIteration o (idxs s).1 11 true x && oneIteration d (idxs s).2 11 true y && queueTakes y z) = true := by decide +kernel

theorem wit_BlockInstructions_scan : (takes? 0 (.scanw 0 (some 1) 5 4 2) (demoBlock 2 (fix 0x2000) (fix 0x2000) bytesAt)).any (fun s => startsPair 2 s
    && goesOn s (blockObj 0 4 0 false) s fun o t => plainWord (opnd s 0 5) && !stale (getCore s 0) (opnd s 0 5)
      && goesOn s (openStream 0 o (idxs s).1 false .load) t fun x u => oneIteration o (idxs s).1 2 false x
        && goesOn s (loadWords 0 (elemAddr o (idxs s).1 false) x 2) u fun _ _ => true) = true := by decide +kernel

theorem wit_BlockInstructions_compare : (takes? 0 (.cmpw 0 (some 1) 3 4 2) (demoBlock 1 (fix 0x2000) (fix 0x2008) bytesAt)).any (fun s => startsPair 1 s
    && goesOn s (blockObj 0 4 0 false) s fun o t => goesOn s (blockObj 0 3 5 false) t fun d u =>
      goesOn s (openStream 0 o (idxs s).1 false .load) u fun x v => goesOn s (openStream 0 d (idxs s).2 false .load) v fun y w =>
      oneIteration o (idxs s).1 1 false x && oneIteration d (idxs s).2 1 false y
      && goesOn s (loadWords 0 (elemAddr o (idxs s).1 false) x 1) w fun _ z => goesOn s (loadWords 0 (elemAddr d (idxs s).2 false) y 1) z fun _ _ => true) = true := by
  decide +kernel

theorem wit_OrderingInstructions : allTaken 0 [.pref 0 4 4 0, .fenceL 0, .fenceS 0, .fenceA 0, .isync 0] (demoObj [])
    (fun s => (getCore s 0).sq.isEmpty && !unacked s 0 && (4 : BitVec 5).toNat ≥ 4)
  ∧ allTaken 0 [.fenceS 0, .fenceA 0] (core0 (fun k => { k with sq := [demoStore .uncached none] }) (demoObj []))
    (fun s => !(getCore s 0).sq.isEmpty && (getCore s 0).sq.all (fun e => e.mt == .uncached) && !unacked (drainAll s 0) 0) := by decide +kernel

/-! ## Witnesses: control, exceptions, time and groups -/

/-- Core 0 in user mode: its page at 0x1000 stands in the ITLB. -/
def userDemo (a : Word) : State := core0 (fun k => { k with
  mmu := { k.mmu with fetchPtbase := 1 }
  tlb := { k.tlb with itlb := [(0, { comp := 0, sid := 0, vpn := 1, level := 0, pte := 0x10DF, bad := false })] } }) (demo 0 a uninit uninit uninit)

/-- A mixed addition dispatches, and its handler, which runs at 0x1000 as well, returns. -/
def demoDispatch : State := withWords [(0x401, toDram ⟨0x89, 0x1000⟩)]
  (core0 (fun k => { k with heap := { k.heap with dispatchBase := 0x2000 } }) (demo 1 (fix 1) ⟨0x01, 0⟩ uninit uninit))

theorem wit_DispatchAndReturn : (takes? 0 (.gadd 0 3 1 (.reg 2)) demoDispatch).any (fun s =>
    let k := getCore s 0
    (opnd s 0 1).tag == 0x00 && (opnd s 0 2).tag == 0x01 && !stMIX k && !(bankOf k (ipl k)).dbusy && k.micro.table.isEmpty
    && (afterLoad (va48 (k.heap.dispatchBase + 8)) s fun e _ => isPtr e.tag && ptype e.tag == 0x09 && wellFormed e)
    && next (.gadd 0 3 1 (.reg 2)) demoDispatch fun t => (takes? 0 (.dret 0 4) t).any fun u =>
      (getCore u 0).banks == (getCore t 0).banks && (getCore u 0).st == (getCore t 0).st && (getCore u 0).micro.table.isEmpty) = true := by decide +kernel

theorem wit_BranchesAndCalls : allTaken 0 [.beq 0 1 2 5, .bne 0 1 2 0x7FF, .bnil 0 1 1, .bnnil 0 1 1, .bz 0 1 1, .bnz 0 1 1, .bltf 0 1 2 1, .bgef 0 1 2 1,
    .btag 0 1 0x00 1, .bntag 0 1 0x00 1, .bcls 0 1 0 1, .jmp 0 2, .call 0 2] (demo 1 (fix 3) (fix 3) uninit uninit)
    (fun s => plainWord (opnd s 0 1) && plainWord (opnd s 0 2) && !stale (getCore s 0) (opnd s 0 1) && !stale (getCore s 0) (opnd s 0 2)
      && (opnd s 0 1).tag == 0x00)
  ∧ allTaken 0 [.jr 0 1, .callr 0 1, .ret 0 1, .ret 0 0] (core0 (fun k => gwrite k 30 ⟨0x89, 0x2000⟩) (demo 1 ⟨0xA9, 0x2000⟩ uninit uninit uninit))
    (fun s => ([opnd s 0 1, opnd s 0 30]).all fun w => isPtr w.tag && ptype w.tag == 0x09 && wellFormed w && !stale (getCore s 0) w) := by decide +kernel

/-- A register that a user may read, and one that it may not. -/
theorem wit_ControlRegisters_read : (takes? 0 (.mfc 0 3 0x021) (demo 1 uninit uninit uninit uninit)).any (fun s => isSys (getCore s 0))
  ∧ userReadable.any (fun n => (takes? 0 (.mfc 0 3 (BitVec.ofNat 12 n)) (userDemo uninit)).any fun s => !isSys (getCore s 0))
  ∧ (takes? 0 (.mfc 0 3 0x005) (userDemo uninit)).any (fun s => !isSys (getCore s 0) && !userReadable.contains 0x005) := by decide +kernel

theorem wit_ControlRegisters_write : [0, 5, 6, 8, 15, 0x030, 0x042, 0x054, 0x061].all (fun n => (takes? 0 (.mtc 0 (BitVec.ofNat 12 n) 1) (demo 1 (fix 5) uninit uninit uninit)).any fun s =>
      isSys (getCore s 0) && plainWord (opnd s 0 1)) = true := by decide +kernel

/-- A user writes `STATUS`, and tries another register. -/
theorem wit_ControlRegisters_user : allTaken 0 [.mtc 0 0 1, .mtc 0 1 1] (userDemo (fix 5)) (fun s => !isSys (getCore s 0) && plainWord (opnd s 0 1)
    && !stDET (getCore s 0)) = true := by decide +kernel

theorem wit_BankWindowAndInterrupts : [(.mfb 0 3 7, fix 0), (.mtb 0 7 1, fix 0), (.mtc 0 0x010 1, fix 0x27), (.wdset 0 1, fix 0x27), (.wdclr 0 1, fix 0x47),
    (.mtc 0 0x012 1, fix 0x8340), (.irouteWr 0 1, fix 0x8340), (.irouteWr 0 1, fix 0x80FF), (.mtc 0 0x011 1, fix 0x70000), (.swi 0 1, fix 0x70000),
    (.swclr 0 1, fix 0x100000)].all (fun (e : Instr × Word) =>
      let d := demo 1 e.2 uninit uninit uninit
      (takes? 0 e.1 d).any fun s =>
        let v := (opnd s 0 1).payload
        isSys (getCore s 0) && plainWord (opnd s 0 1) && opnd d 0 1 == opnd s 0 1 && smWf 0 (getCore s 0).irq.level
        && match e.1 with
          | .wdset _ _ => bit v 5
          | .wdclr _ _ => bit v 6
          | .irouteWr _ _ => bit v 15
          | .swi _ _ => v.extractLsb' 16 3 != 0
          | .swclr _ _ => v.extractLsb' 20 3 != 0
          | _ => true)
  ∧ allTaken 0 [.mfb 0 3 7, .mtb 0 7 1] (userDemo (fix 0)) (fun s => !isSys (getCore s 0)) := by decide +kernel

theorem wit_SystemCallsAndHalt : allTaken 0 [.syscall 0 31, .brk 0 0xFFF, .halt 0] (demo 1 uninit uninit uninit uninit) (fun s => isSys (getCore s 0))
  ∧ allTaken 0 [.syscall 0 0, .brk 0 0, .halt 0, .retx 0] (userDemo uninit) (fun s => !isSys (getCore s 0)) := by decide +kernel

/-- A descriptor table at 0x4000 with a descriptor of vector 0x20, and a stack below 0x2040. -/
def demoEntry : State := withWords [(0x880, toDram ⟨0x06, 0x11⟩), (0x881, toDram ⟨0x06, 0x5000⟩)]
  (core0 (fun k => gwrite { k with mmu := { k.mmu with dtbase := 0x4001 } } 31 (fix 0x2040)) (demo 1 uninit uninit uninit uninit))

theorem wit_ExceptionsEnterAndReturn_entry :
    (let s0 := abandon 0 demoEntry
     let k := getCore s0 0
     bit k.mmu.dtbase 0 && k.micro.table.isEmpty && ran (readDescriptor 0 0x20) s0 fun d s1 => archCore (getCore s1 0) == archCore k && descriptorOk d.1 d.2
       && plainWord (regOf k (ipl k) 31) && fld d.1.payload 5 2 == 0
       && ran (writeFrame 0 (!bit d.1.payload 4) ((List.range 6).map fun i => (0x2010 + BitVec.ofNat 64 (8 * i), bytesW 0))) s1 fun _ s2 =>
         (getCore s2 0).banks == k.banks && (getCore s2 0).st == k.st && (getCore s2 0).irq == k.irq) = true := by decide +kernel

theorem wit_ExceptionsEnterAndReturn_retx : (takes? 0 (.retx 0) (withWords ((List.range 6).map fun i => (0x400 + i, toDram ⟨0x06, 1⟩))
    (core0 (fun k => gwrite k 31 (fix 0x2000)) (demo 1 uninit uninit uninit uninit)))).any (fun s =>
      let k := getCore s 0
      isSys k && !stNUL k && k.micro.table.isEmpty && ran (readFrameWords 0 (gread k 31).payload 6) s fun l t => l.length == 6 && !bit (l.getD 1 0) 4
        && archCore (getCore t 0) == archCore k) = true := by decide +kernel

/-- A core of compartment 1 with two interrupts pending and interrupts on. -/
def demoIrq : State := core0 (fun k => { k with compart := 1, irq := { k.irq with swi := 3, level := [(0x44, 3), (0x45, 3)] } }) (demo 0x11 uninit uninit uninit uninit)

def quiet (k : Core) : Bool := k.run == .running && k.wait.isNone && !k.pend.stop && k.longs.isEmpty

theorem wit_BoundaryEvents_stop : (let k := getCore (core0 (fun k => { k with pend := { k.pend with flip := some 2 } }) demoIrq) 0
    quiet k && stopDue k && !stopDue (getCore demoIrq 0)) = true := by decide +kernel

theorem wit_BoundaryEvents : (quiet (getCore demoIrq 0) && (getCore demoIrq 0).pend.mc.isNone && (getCore demoIrq 0).pend.reports.isEmpty
      && (getCore demoIrq 0).pend.step.isNone && admitted demoIrq 0 == some (0x44, 3) && smWf 0 (getCore demoIrq 0).irq.level) = true
  ∧ (let s := core0 (fun k => { k with pend := { k.pend with mc := some ⟨1, 0, 0⟩ } }) demoIrq; quiet (getCore s 0) && (getCore s 0).pend.mc.isSome)
  ∧ (let s := demo 1 uninit uninit uninit uninit; quiet (getCore s 0) && (admitted s 0).isNone && (getCore s 0).pend.mc.isNone) := by decide +kernel

theorem wit_IllegalWords : (match admission 0 (.fenceL 0) (demo 1 uninit uninit uninit uninit) with
    | .ready s => (getCore s 0).micro.run.isNone && illegalOf 0xFFFFFFFF 0 == some (0x01, 0xFFFFFFFF, false)
      && ran (fetchCheck 0 (getCore s 0).pc) s fun _ t => (getCore t 0).pc == (getCore s 0).pc
    | _ => false) = true := by decide +kernel

theorem wit_TlbInvalidation_issue : [((0 : BitVec 2), (1 : Reg)), (3, 0)].all (fun e => allTaken 0 [.invtlb 0 e.2 e.1, .invtlbB 0 e.2 e.1] (demo 1 (fix 0x1000) uninit uninit uninit)
    (fun s => isSys (getCore s 0) && (e.1 == 3 || plainWord (opnd s 0 e.2)) && (getCore s 0).sq.isEmpty && !unacked s 0)) = true := by decide +kernel

def demoBcast (reach : List CoreId) : State := { demo 1 (fix 0) uninit uninit uninit with bcast := [(0, { core := 0, sel := 0, va := 0, sid := 0, toReach := reach, toAck := reach })] }

theorem wit_TlbInvalidation_service : (((servedBcast (demoBcast [0]) (getCore (demoBcast [0]) 0).compart).any fun b => b.toReach.contains 0)
      && (getCore (demoBcast [0]) 0).sq.isEmpty) = true
  ∧ (let s := core0 (fun k => { k with wait := some { what := .invtlb, resume := .instr (.invtlbB 0 1 0) } }) (demoBcast [])
     let k := getCore s 0
     ((servedBcast s k.compart).any fun b => b.core == 0 && b.toAck.isEmpty) && isSys k && !stSSTEP k && k.micro.run.isNone && k.st.shadow.isEmpty
       && k.wait.isSome) := by decide +kernel

/-- The tick is 0: 0 is reached and 1 is not. -/
theorem wit_TimeInstructions : [(0 : W64), 1].all (fun t => allTaken 0 [.rdt 0 3, .waitt 0 1, .armt 0 1 0] (demo 1 (fix t) uninit uninit uninit)
      (fun s => isSys (getCore s 0) && plainWord (opnd s 0 1)))
  ∧ (takes? 0 (.armt 0 1 3) (userDemo (fix 1))).any (fun s => !isSys (getCore s 0) && !bit ((getCore s 0).alarm.get 3) 61)
  ∧ (let s := core0 (fun k => { k with wait := some { what := .tick 0, resume := .instr (.waitt 0 1) }, alarm := k.alarm.set 0 (BitVec.ofNat 64 (2 ^ 60)) })
        (demo 1 (fix 0) uninit uninit uninit)
     let k := getCore s 0
     plainWord (opnd s 0 1) && (opnd s 0 1).payload == 0 && decide ((0 : W64).toNat ≤ (tickOf s (clusterOf 0)).toNat) && k.micro.run.isNone && !stSSTEP k
       && k.st.shadow.isEmpty && (takeDue 0 s).isNone && bit (k.alarm.get 0) 60 && decide (fld (k.alarm.get 0) 0 60 ≤ fld (tickOf s (clusterOf 0)) 0 60)) := by decide +kernel

/-! Group 63: cores 0 and 1 of compartment 0; or device 2 too. -/

def demoGroup (st : MemberState) (kind : GroupKind) (devs : BitVec 16) (g1 : W64) : State :=
  let m : Member := { st := st, kind := some kind, senders := 0, contrib := fix 1, latch := fix 2 }
  { demo 1 (fix g1) (fix 9) uninit uninit with weir := { State.reset.weir with
      groups := [(63, { valid := true, compart := 0, user := false, devmask := devs, engmask := 0, cores := 3, d := 0, failed := false })]
      members := if st = .idle then [] else [(63 * 256, { m with senders := 1 }), (63 * 256 + 1, m)] } }

theorem wit_GroupInstructions_members : [MemberState.idle, .arrived, .done, .mismatch, .failed].all (fun st =>
    allTaken 0 [.barw 0 1, .bara 0 1, .bart 0 3 1, .bcst 0 3 1 2, .rduc 0 3 1 2 4] (demoGroup st .barrier 1 63)
      (fun s => plainWord (opnd s 0 1) && plainWord (opnd s 0 2) && mayUse s 0 63 && (memberOf s 63 0).st == st)) = true := by decide +kernel

theorem wit_GroupInstructions_denied : allTaken 0 [.barw 0 1, .bara 0 1, .bart 0 3 1, .bcst 0 3 1 2, .rduc 0 3 1 2 4] (demoGroup .idle .barrier 1 62)
      (fun s => plainWord (opnd s 0 1) && plainWord (opnd s 0 2) && !mayUse s 0 62) = true := by decide +kernel

theorem wit_GroupInstructions_message : (let s := demoGroup .idle .barrier 5 63
    let e := groupOf s 63
    e.valid && !e.failed && smSorted s.weir.members && (otherDevs s e).contains 2 && (memberOf s 63 146).st != .arrived && !groupReady s 63) = true := by decide +kernel

theorem wit_GroupInstructions_complete : [GroupKind.barrier, .broadcast, .reduce 4].all (fun kind =>
    let s := demoGroup .arrived kind 1 63
    let e := groupOf s 63
    e.valid && !e.failed && smSorted s.weir.members && ownKeys e == [0, 1] && e.engmask == 0 && e.devmask == bvSet 0 s.devid.toNat true
      && (memberOf s 63 0).st == .arrived && (memberOf s 63 1).st == .arrived && (memberOf s 63 0).kind == some kind && (memberOf s 63 1).kind == some kind
      && (memberOf s 63 0).senders == 1 && (memberOf s 63 1).senders == 0 && (allCores.all fun c => waitOf s c != some (.group 63))) = true := by decide +kernel

/-! ## Witnesses: the numeric unit -/

/-- Vector register 1 holds four ones, and the unit is available. -/
def demoNum (st : W64) : State := core0 (fun k => { k with v := k.v.set 1 (BitVec.ofNat 256 (0x3FF0000000000000 * (1 + 2 ^ 64 + 2 ^ 128 + 2 ^ 192))) })
  (demo st (fix 5) (fix 0) ⟨0x87, 0x2000⟩ (fix 0x2000))

def numIdle (k : Core) : Bool := k.longs.isEmpty && !stPRECISE k && !stDET k

theorem wit_NumericLanes : allTaken 0 [.vaddD 0 3 1 1, .vsubD 0 3 1 1, .vmulD 0 3 1 1, .vdivD 0 3 1 1, .vfmaD 0 3 1 1, .vsqrtD 0 3 1, .vcvtLd 0 3 1, .vminD 0 3 1 1,
    .vmaxD 0 3 1 1, .vcmpltD 0 3 1 1, .vcmpeqD 0 3 1 1, .vcvtDl 0 3 1, .vaddL 0 3 1 1, .vsubL 0 3 1 1, .vmulL 0 3 1 1, .vand 0 3 1 1, .vor 0 3 1 1, .vxor 0 3 1 1]
    (demoNum (stS 9)) (fun s =>
      let k := getCore s 0
      let one : W64 := ((k.v.get 1) >>> 0).setWidth 64
      bit k.st.force 9 && numIdle k && one == 0x3FF0000000000000 && !fIsNan one
      && [fAdd 0 one one, fSub 0 one one, fMul 0 one one, fDiv 0 one one, fFma 0 one one 0, fSqrt 0 one].all fun f => !f.nan) = true := by decide +kernel

theorem wit_NumericMovesAndArrays_moves : allTaken 0 [.vins 0 3 1 3, .vsplat 0 3 1, .vextF 0 3 1 0, .vextL 0 3 1 3, .nrdf 0 3, .nwrf 0 1] (demoNum (stS 9))
      (fun s => bit (getCore s 0).st.force 9 && numIdle (getCore s 0) && (opnd s 0 1).tag == 0x00)
  ∧ allTaken 0 [.nrdf 0 3, .nwrf 0 1, .vsplat 0 3 1] (demoNum 1) (fun s => !bit (getCore s 0).st.force 9 && numIdle (getCore s 0) && !stNUL (getCore s 0)) := by
  decide +kernel

def fourOf (t : Byte) : SMap DramWord := (List.range 4).map fun i => (0x400 + i, toDram ⟨t, 3⟩)

def arrayReady (s : State) : Bool := bit (getCore s 0).st.force 9 && baseOk (getCore s 0) (opnd s 0 4) && !isHeaded (opnd s 0 4).tag && (opnd s 0 2).tag == 0x00

def fourLoads (t : Byte) (s : State) : Bool := afterLoad 0x2000 s fun a s => afterLoad 0x2008 s fun b s => afterLoad 0x2010 s fun c s => afterLoad 0x2018 s fun d _ =>
  a.tag == t && b.tag == t && c.tag == t && d.tag == t

theorem wit_NumericMovesAndArrays_arrays : (takes? 0 (.vldF 0 3 4 2) (withWords (fourOf 0x01) (demoNum (stS 9)))).any (fun s => arrayReady s && fourLoads 0x01 s)
  ∧ (takes? 0 (.vldB 0 3 4 2) (withWords (fourOf 0x06) (demoNum (stS 9)))).any (fun s => arrayReady s && fourLoads 0x06 s)
  ∧ allTaken 0 [.vstF 0 1 4 2, .vstB 0 1 4 2] (demoNum (stS 9)) (fun s => arrayReady s && decide ((getCore s 0).sq.length ≤ 4)
      && afterStore 0x2000 s fun x t => afterStore 0x2008 t fun y u => afterStore 0x2010 u fun z v => afterStore 0x2018 v fun r w =>
        ([t, u, v, w].all fun a => a.devid == s.devid) && [y, z, r].all fun a => a.mt == x.mt) := by decide +kernel

/-! ## Witnesses: answers and memory -/

def waitFor (w : WaitFor) (s : State) : State := core0 (fun k => { k with wait := some { what := w, resume := .instr (.add 0 3 1 2) } }) s

/-- A flip is due while a core waits for an answer, which ends its wait. -/
theorem wit_CoreAnswers_due : (let s := core0 (fun k => { k with pend := { k.pend with flip := some 2 } }) (waitFor .markRoom (demo 1 uninit uninit uninit uninit))
    waitOf s 0 == some .markRoom && decide ((getCore s 0).mark.length < 16) && (takeDue 0 s).isSome) = true := by decide +kernel

theorem wit_CoreAnswers : (let s := waitFor .markRoom (demo 1 uninit uninit uninit uninit)
      waitOf s 0 == some .markRoom && decide ((getCore s 0).mark.length < 16) && (takeDue 0 s).isNone)
  ∧ (let s := { waitFor (.forward 5) (demo 1 uninit uninit uninit uninit) with answers := [(0, .fwd 5 (some 6))] }; waitOf s 0 == some (.forward 5))
  ∧ (let s := { waitFor (.card 5) (demo 1 uninit uninit uninit uninit) with answers := [(0, .card 5 true)] }; waitOf s 0 == some (.card 5))
  ∧ (let s := core0 (fun k => { k with sq := [demoStore .uncached none], l1 := { k.l1 with miss := [⟨0x80, .load⟩] } }) (demo 1 uninit uninit uninit uninit)
     let k := getCore s 0
     k.wait.isNone && k.micro.run.isNone && !k.l1.miss.isEmpty && k.sq.all fun e => e.mt == .uncached && e.writes.all fun w => localOk s k.compart w.pa) := by
  decide +kernel

theorem wit_WordsAndTheirCheckBits : smWf dramDefault (demo 1 uninit uninit uninit uninit).dram.words = true := by decide +kernel

/-- The last word of memory is read; the patrol of controller 0 stands at the start. -/
theorem wit_MemoryEvents : (let s := { demo 1 uninit uninit uninit uninit with pins := { State.reset.pins with ready := true }, now := 1000000 }
    let pa : BitVec 44 := 0xFFFFFFF8
    paDev pa == s.devid && decide (paOff pa < s.dram.units * 0x40000000 ∧ s.dram.units ≤ 512) && syndrome (smGet dramDefault s.dram.words (paOff pa / 8)) == .clean
      && installed s (smGet 0 s.dram.patrol 0) && onChannel s 0 (smGet 0 s.dram.patrol 0 / 512)
      && syndrome (smGet dramDefault s.dram.words (smGet 0 s.dram.patrol 0 / 8)) == .clean
      && s.pins.ready && decide (smGet 0 s.dram.drift 0 + 1000000 ≤ s.now)) = true := by decide +kernel

/-! ## Witnesses: the block, timed actions and timers -/

/-- A block that has started up, with compartment 1 in a state. -/
def trainedPcie : Pcie := { State.reset.pcie with trained := true }

def up : State := { State.reset with
  lk := { State.reset.lk with boot := .ready }, pins := { State.reset.pins with ready := true }, pcie := trainedPcie }

def compIn (st : CState) (s : State) : State := modComp s 1 fun c => { c with st := st }

theorem wit_EmptyQueuePassesTime : (let s := State.reset
    s.pending.isEmpty && !s.lk.resetDue && clocksRun s && (allCores.all fun d => waitOf s d != some .micro) && !s.lk.held
      && (allComps.all fun p => !(getComp s p).abortDue) && smGet 0 s.weir.corr 33 == 0) = true := by decide +kernel

theorem wit_KeySlotTwoIsKept : (let s := { State.reset with lk := { State.reset.lk with key2 := some [1] } }
    s.lk.key2 == some [1] && match step s with | .next _ => true | _ => false) = true := by decide +kernel

theorem wit_WordsDecode : wellFormedInstr (.movw 0 (some 1) 3 4 2) = true ∧ (encodeCore (.movw 0 (some 1) 3 4 2)).isSome = true
  ∧ (illegalOf 0xFFFFFFFF 0).isSome = true ∧ illegalOf 0x0CA28000 0 = none := by decide +kernel

/-- An action of compartment 1 on group 1, due at tick 0. -/
def anAction (act : BitVec 4) (arg : BitVec 32) : Action :=
  { origin := 0, id := 1, comp := 1, byLk := false, act := act, group := 1, arg := arg, tick := 0, order := 0, due := none }

def withAction (act : BitVec 4) (arg : BitVec 32) (s : State) : State := { s with weir := { s.weir with actions := [(31, anAction act arg)] } }

def sole (s : State) (e : Fin 32) (act : BitVec 4) : Bool := match s.weir.actions with
  | [(n, a)] => n == e.val && a.act == act && actionDue s a
  | _ => false

/-- Compartment 1 with timers 0 and 2 and channel 5. -/
def demoComp : State := modComp (compIn .running up) 1 fun c => { c with res := { c.res with timers := 5, culvert := 32 } }

theorem wit_DueActions : [(1, 2), (2, 0), (3, 5), (4, 0), (5, 1), (6, 5), (7, 0), (8, 0)].all (fun (e : BitVec 4 × BitVec 32) => sole (withAction e.1 e.2 demoComp) 31 e.1)
  ∧ (let s := modChan demoComp 5 fun h => { h with log2n := 4 }
     bit (getComp s 1).res.culvert 5 && !(getChan s 5).stopped && (getChan s 5).log2n == 4 && s.timerActs.isEmpty
       && heldIn s 1 1 == [0] && heldIn s 1 5 == [0, 2] && (pairLow s 0).isNone && (pairLow s 2).isNone && abortable (getComp s 1).st && !s.lk.restarting
       && (compCores s 1).all fun c => (getCore s c).sq.isEmpty) := by
  decide +kernel

/-- A ring of 16 slots has room for the command that action 4 starts, or has none. -/
theorem wit_DueActions_ring : [(0 : BitVec 12), 1].all (fun h => let s := modPerc (withAction 4 0 demoComp) 0 1 fun q => { q with log2n := 4, head := h }
    let q := getPerc s 0 1
    sole s 31 4 && !q.stopped && !bit (0 : BitVec 32) 4 && (BitVec.ofNat 12 ((q.tail.toNat + 1) % 2 ^ q.log2n.toNat) == q.head) == (h == 1)) = true := by decide +kernel

def pended (f : Pend → Pend) (run : RunState) : State := core0 (fun k => { k with pend := f k.pend, run := run, compart := 1 }) (demo 1 uninit uninit uninit uninit)

def aSnap : Snapshot := { t := 7, base := 0, group := 1, due := true, reported := false, seq := 5, copied := [] }

def resumes (s : State) : Bool := let k := getCore s 0
  k.wait.isNone && !healing s 0 && k.micro.table.isEmpty && k.micro.run.isNone

theorem wit_FlipsAndSnapshots : [RunState.running, .flipStop].all (fun r => let s := pended (fun p => { p with flip := some 2 }) r
      let k := getCore s 0
      k.pend.flip == some 2 && k.mark.isEmpty && k.run == r && resumes s && !k.pend.stop)
  ∧ (let k := getCore (pended (fun p => { p with snap := true }) .running) 0
     k.pend.snap && k.mark.isEmpty && k.pend.snapTick.isNone && k.pend.flip.isNone && k.run == .running && k.wait.isNone && !k.pend.stop && k.longs.isEmpty)
  ∧ (let s := modComp (pended (fun p => { p with snap := true, snapTick := some 7 }) .snapStop) 1 fun c => { c with snap := some aSnap }
     let k := getCore s 0
     k.pend.snap && k.mark.isEmpty && k.pend.snapTick == some 7 && k.run == .snapStop && resumes s && (getComp s (compId k.compart)).snap == some aSnap)
  ∧ (let s := modComp (compIn .running up) 1 fun c => { c with snap := some aSnap }
     (getComp s 1).snap == some aSnap && aSnap.due && !aSnap.reported && allCores.all fun c => !(getCore s c).pend.snap) := by decide +kernel

/-- Compartment 1 posts a group interrupt to its group 1, of this device alone, at the first tick that is not too early, and one before. -/
def posting (tick : W64) : State :=
  let s := modActPort demoComp 1 fun a => { a with tick := tick, cmd := 0x12 }
  { s with weir := { s.weir with groups := [(1, { valid := true, compart := 1, user := false, devmask := 1, engmask := 0, cores := 1, d := 0, failed := false })] } }

theorem wit_ActionPosts_go : [(20 : W64), 19].all (fun t => let s := posting t
      let a := getActPort s 1
      let e := groupOf s (cmdGroup a.cmd)
      !a.busy && s.weir.sched.isNone && !postBad a.cmd && e.valid && e.compart == BitVec.ofFin 1 && !lkOnly (cmdAct a.cmd) && (otherDevs s e).isEmpty
        && bit e.devmask s.devid.toNat && entryFor s 1 false == some 4
        && decide ((hubTick s).toNat + 20 + 130 * e.d.toNat ≤ a.tick.toNat) == (t == 20))
  ∧ (let s := modActPort (posting 20) 2 fun a => { a with tick := 20, cmd := 0x12 }
     let a := getActPort s 2
     !a.busy && !postBad a.cmd && (groupOf s (cmdGroup a.cmd)).valid && (groupOf s (cmdGroup a.cmd)).compart != BitVec.ofFin 2) := by decide +kernel

theorem wit_ActionPosts_cancel : (let s := { posting 0 with weir := { (posting 0).weir with actions := [(4, { anAction 2 0 with tick := 20 })] } }
    !(getActPort s 1).busy && s.weir.sched.isNone && smSorted s.weir.actions && (actionAt s 4).any fun x => !x.byLk && x.comp == BitVec.ofFin 1
      && (otherDevs s (groupOf s (Fin.ofNat 64 x.group.toNat))).isEmpty && decide ((hubTick s).toNat + 20 + 130 * (groupOf s (Fin.ofNat 64 x.group.toNat)).d.toNat ≤ x.tick.toNat)) = true := by
  decide +kernel

theorem wit_ActionPosts_install : (let s := posting 0
    let n : ActionInstall := { origin := 3, id := 1, comp := 1, group := 1, act := 2, arg := 0, tick := 9 }
    n.origin != s.devid.toFin && (groupOf s n.group).valid && bit (groupOf s n.group).devmask s.devid.toNat && n.comp != 0
      && (groupOf s n.group).compart == BitVec.ofFin n.comp && (entryFor s n.comp (lkOnly n.act)).isSome) = true := by decide +kernel

theorem wit_TimeBase : (let s := { State.reset with lk := { State.reset.lk with boot := .calibration }, weir := { State.reset.weir with lock := true } }
      !s.pins.ready && s.lk.boot == .calibration && !s.weir.root && s.weir.lock && clocksRun s)
  ∧ (let s := modPort up 7 fun p => { p with trained := true, peer := 3 }
     (getPort s 7).trained && !(getPort s 7).down && !s.weir.root && s.pins.ready && smSorted s.weir.corr && decide ((4 : Int).natAbs ≤ 4 ∧ 4 < (-5 : Int).natAbs)
       && (getPort s 7).peer == BitVec.ofFin (3 : Fin 16))
  ∧ (let s := { up with weir := { up.weir with lock := true, rootTo := some 3 } }
     s.weir.lock && s.weir.rootTo == some (BitVec.ofFin (3 : Fin 16)) && BitVec.ofFin (3 : Fin 16) != s.devid && !bit s.weir.faildev 3
       && allCores.all fun c => (List.finRange 64).all fun g => waitOf s c != some (.group g))
  ∧ (let s := { up with weir := { up.weir with rdev := 2, faildev := 4, live := 0x21 } }; bit s.weir.faildev s.weir.rdev.toNat && (liveDevs s).head? == some 0) := by
  decide +kernel

/-- A timer one tick behind: running, stopped, with captures on, and a cascaded pair. -/
def timerState (f : Timer → Timer) : State := modTimer { demoComp with weir := { demoComp.weir with tick := Vector.replicate 34 1 } } 0 f

/-- The channel is in no pair, and nothing of the tick that ends is noted in it. -/
def plainTimer (s : State) : Bool := let x := getTimer s 0
  (pairLow s 0).isNone && hubTick s == x.next + 1 && !x.loaded && !x.started && !x.latch && !x.skip && x.holdr.isNone && x.holdf.isNone

/-- A match of a running channel, a stopped one, and the captures of both edges, one over an unread value. -/
theorem wit_TimerChannels_tick : [true, false].all (fun run => let s := timerState fun t => { t with run := run, period := 1, oneshot := true }
      let x := getTimer s 0
      plainTimer s && x.run == run && !x.readr && !x.readf && x.edges.isEmpty)
  ∧ [(true, true), (true, false), (false, true), (false, false)].all (fun e => let s := timerState fun t => { t with
        capen := true, edges := [{ rising := e.1, stamp := 0 }], newr := e.2, newf := e.2 }
      let x := getTimer s 0
      plainTimer s && !x.run && x.count == x.last && x.omode == 0 && x.capen && x.edges == [{ rising := e.1, stamp := x.next }] && !x.readr && !x.readf)
  ∧ (let s := timerState fun t => { t with readr := true, newr := true }
     let x := getTimer s 0
     plainTimer s && !x.run && x.count == x.last && x.edges.isEmpty) := by decide +kernel

/-- A channel that is evaluated up to the present tick: an edge, and the commands on one channel and on two. -/
theorem wit_TimerChannels_commands : (let s := timerState fun t => { t with pin := true, next := 1 }
      let x := getTimer s 0
      x.pin && x.omode == 0 && hubTick s == x.next && (pairLow s 0).isNone && heldIn s 1 1 == [0])
  ∧ (let s := modTimer (timerState fun t => { t with next := 1 }) 2 fun t => { t with next := 1 }
     heldIn s 1 5 == [0, 2] && (pairLow s 2).isNone && hubTick s == (getTimer s 2).next)
  ∧ (let s := timerState fun t => { t with casc := true, next := 1, omode := 1 }
     (getTimer s 0).casc && hubTick s == (getTimer s 0).next && (getTimer s 0).omode != 0) := by decide +kernel

/-! ## Witnesses: engines, maintenance and caches -/

/-- Compartment 1 with core 0, and with it a share of engine 0. -/
def shared (s : State) : State := modComp s 1 fun c => { c with res := { c.res with cores := 1, pshare := 16 } }

/-- Compartment 1 owns the first unit of memory; its ring on engine 0 is at 0x2000 with one command. -/
def demoPerc (ws : List W64) : State :=
  let s := modPerc (shared demoComp) 0 1 fun e => { e with en := true, log2n := 4, ring := 0x2000, tail := 1 }
  { s with dram := { s.dram with owner := [(0, 1)], words := (List.range ws.length).map fun i => (0x400 + i, toDram ⟨0x06, ws.getD i 0⟩) } }

/-- Engine 0 takes up the command of those words; its work begins in a state of which `p` holds. -/
def startsIn (s : State) (ws : List W64) (p : State → Bool) : Bool :=
  mayStart s 0 1 && decide (4 ≤ (getPerc s 0 1).log2n.toNat ∧ (getPerc s 0 1).log2n.toNat ≤ 12) && match fetchSlot 0 1 (cmdUnit 0) s with
    | .ok l t => l == ws.map (fun w => (⟨0x06, w⟩ : Word)) && commandOk l
      && (let u := withRun 0 1 (newRun l) (forget t (cmdUnit 0) 1)
          withinShare u 0 1 && !cmdAsks u 0 1 && !(getPerc u 0 1).stopped && p u)
    | .error _ _ => false

def starts (ws : List W64) (p : State → Bool) : Bool := startsIn (demoPerc ws) ws p

/-- The piece of work of a unit of engine 0 is done and leaves a state of which `p` holds. -/
def engDone {α : Type} (m : EM α) (part : EngUnit) (s : State) (p : α → State → Bool) : Bool := match m { eng := 0, part := part } s with
  | .ok a t => p a t
  | .error _ _ => false

theorem wit_PercolatorCommands : starts [1, 0, 0, 0] (fun u => (getPerc u 0 1).stack.isEmpty && (getPerc u 0 1).memCount == 0)
  ∧ starts [3, 0, 0, 0] (fun _ => true) ∧ starts [5, 0, 0, 0] (fun _ => true)
  ∧ starts [0x20004, 0x3FFFFFC0, 64, 0] (fun u => paDev 0x3FFFFFC0 == u.devid && decide ((getPerc u 0 1).used + 4 < 256 * percShare u 0 1)
      && engDone (engOff 1 0x3FFFFFC0) .cmd u fun o t => o == 0x3FFFFFC0 && t == u)
  ∧ 2 ^ 4 ≤ (16 : W64).toNat % 4096 := by decide +kernel

theorem wit_PercolatorCommands_complete : [(0 : Byte), 5].all (fun code =>
    let s := modPerc (demoPerc []) 0 1 fun e => { e with run := some { (newRun []) with result := some (code, 5) } }
    ((getPerc s 0 1).run.map (·.result)) == some (some (code, 5))
      && engDone (completionWrites 0 1 (slotPa (getPerc s 0 1)) (cmdWord { (newRun []) with result := some (code, 5) } 0) code 5) .cmd s fun _ _ => true) = true := by
  decide +kernel

/-- A request of core 0 for an address in a region that no engine serves; waiting, and not. -/
def aForward (w : Bool) : FwdReq := { core := 0, comp := 1, va := 0x3000, pa := 0x3000, ptype := 0, waiting := w, origin := none }

theorem wit_PercolatorServices_forward : [true, false].all (fun w => let s := modEng (demoPerc []) 0 fun e => { e with fwd := [aForward w] }
    let work (s : State) : Bool := match answerForward 0 1 (va48 0x3000) 0x3000 0 (fwdUnit 0 (aForward w)) s with
      | .ok _ _ => true
      | .error _ _ => false
    (getEng s 0).fwd == [aForward w] && paDev 0x3000 == s.devid && work (serviceCycle s 0 1) && work (serviceCycle (pollForward s 0 (aForward w)) 0 1)) = true := by
  decide +kernel

theorem wit_PercolatorServices_mark : (let m : MarkReq := { comp := 1, va := 0x3000, pa := 0x3000, ptype := 0, sender := 1, dev := 0 }
    engDone (markServed 0 m) .mark (modEng (demoPerc []) 0 fun e => { e with marks := [m] }) fun _ _ => true) = true := by decide +kernel

theorem wit_PercolatorServices_drain : (let s := modCore (demoPerc []) 0 fun k => { k with mark := [⟨0x3000, 0x3000, 0⟩], compart := 1 }
    clusterOf 0 == 0 && engDone (markPushed (clusterOf 0) (compId (getCore s 0).compart) 0x3000 0x3000 0) (.drain 0) s fun _ _ => true) = true := by
  decide +kernel

/-! Region 0 of memory, which the tables at 0x8000 describe: its card map at 0x9000, its bitmap at 0x10000. -/

def bytesAtN (n : Nat) (ws : List W64) : SMap DramWord := (List.range ws.length).map fun i => (n + i, toDram ⟨0x06, ws.getD i 0⟩)

def regionWords (cards : W64) : SMap DramWord := bytesAtN 0x1000 [1, 0x10000, 4, 0, 0, 0x9000, 0, 0] ++ bytesAtN 0x1200 (List.replicate 64 cards)

/-- Engine 0 serves compartment 1 in that region. -/
def demoRegion (cards : W64) (bitmap : SMap DramWord) : State :=
  let s := modPerc (demoPerc [0x2, 0x400000, 0, 0]) 0 1 fun e => { e with rtab := 0x8000, ptbase := 1 }
  let s := modEng s 0 fun e => { e with tlb := [(0, { comp := 1, sid := 0, vpn := 0x400, level := 1, pte := 0x18000000000C7, bad := false })] }
  { s with dram := { s.dram with words := s.dram.words ++ regionWords cards ++ bitmap } }

/-- A request for a card that a 2 MiB leaf maps or does not, and one whose copy has begun. -/
def aCard (leaf copying : Bool) : CardReq := { core := 0, comp := 1, pa := 0, leaf := leaf, copying := copying }

theorem wit_PercolatorServices_card : [((1 : W64), true), (0, false)].all (fun e => let s := modEng (demoRegion e.1 []) 0 fun x => { x with cards := [aCard true false] }
      (getEng s 0).cards == [aCard true false] && engDone (cardCopied 0 1 0) .card (serviceCycle s 0 1) fun b _ => b == e.2)
  ∧ (getEng (modEng (demoRegion 1 []) 0 fun x => { x with cards := [aCard false false] }) 0).cards = [aCard false false]
  ∧ (let s := modEng (demoRegion 1 []) 0 fun e => { e with cards := [aCard true true] }
     (getEng s 0).cards == [aCard true true] && engDone (copyCard 0 1 0) .card s fun b _ => !b) := by
  decide +kernel

theorem wit_PercolatorServices_steal : (let s := modPerc demoComp 3 1 fun e => { e with stack := [1, 2, 3] }
    busiest s 1 == 3 && (getPerc s 0 1).stack.isEmpty && (getPerc s 0 1).memCount == 0) = true := by decide +kernel

/-- Engine 0 traces for group 1 of compartment 1 with nothing left to trace. -/
theorem wit_PercolatorServices_round : (let s := modPerc demoComp 0 1 fun e => { e with run := some { (newRun []) with words := [1, 0, 2 ^ 32], term := true } }
    let s := { s with weir := { s.weir with groups := [(1, { valid := true, compart := 1, user := false, devmask := 1, engmask := 1, cores := 0, d := 0, failed := false })] } }
    roundReady s 0 1 && (allClusters.all fun x => x == 0 || !roundReady s x 1) && (groupOf s (roundGroup s 0 1)).valid && (groupOf s (roundGroup s 0 1)).compart == compNo 1
      && bit (groupOf s (roundGroup s 0 1)).engmask 0 && !(groupOf s (roundGroup s 0 1)).failed && (memberOf s (roundGroup s 0 1) 128).st == .idle) = true := by decide +kernel

/-! Maintenance by compartment 1 on cluster 0. -/

def demoMnt (op : W64) (lo hi : W64) (f : Mnt → Mnt) : State :=
  let s := modMnt { demoComp with dram := { demoComp.dram with owner := [(0, 1)] } } 0 1 fun m => f { m with start := lo, stop := hi, op := op, busy := true }
  { s with mnt := s.mnt.set 0 { s.mnt.get 0 with queue := [1] } }

theorem wit_MaintenanceAndL2_maintenance : [(1 : W64), 2, 3, 4].all (fun op => let s := demoMnt op 64 64 id
      (getMnt s 0 1).start == (getMnt s 0 1).stop && mntDue s 0 1 op.toNat)
  ∧ [(1 : W64), 2, 3, 4].all (fun op => let s := demoMnt op 0 0x800000 id
      mntRange s (getMnt s 0 1) == .dram 0 0x800000 && dramFence s (compNo 1) 0 0x800000 && mntDue s 0 1 op.toNat && decide (0x800000 ≤ s.dram.units * 0x40000000))
  ∧ (let s := demoMnt 2 0x40000000 0x40000040 id
     mntRange s (getMnt s 0 1) == .dram 0x40000000 0x40000040 && !dramFence s (compNo 1) 0x40000000 0x40000040 && mntDue s 0 1 2)
  ∧ (let s := demoMnt 1 0 0x800000 id
     (heldLines s (compNo 1) 0 0x800000).all fun l => (lostAt s l).isNone)
  ∧ (let s := demoMnt 2 64 64 fun m => { m with busy := false, queued := true }; (s.mnt.get 0).queue == [1] && (getMnt s 0 1).queued)
  ∧ (let s := demoMnt 2 64 64 fun m => { m with acted := true }; (s.mnt.get 0).queue == [1] && (getMnt s 0 1).busy && (getMnt s 0 1).acted
      && decide (fld (getMnt s 0 1).op 0 3 < 5)) := by decide +kernel

/-- An M copy of line 0 with an upset. -/
theorem wit_MaintenanceAndL2_lost : (let s := modL2 (demoMnt 1 0 0x800000 id) 3 fun l => { l with st := .on, lines := [(0,
      { line := 0, st := .m, words := List.replicate 8 uninit, dpres := 0, ipres := 0, stream := false, bad := 1, sbad := false })] }
    mntRange s (getMnt s 0 1) == .dram 0 0x800000 && dramFence s (compNo 1) 0 0x800000 && mntDue s 0 1 1
      && (heldLines s (compNo 1) 0 0x800000).find? (fun l => (lostAt s l).isSome) == some 0 && lostAt s 0 == some 3) = true := by decide +kernel

theorem wit_MaintenanceAndL2_l2 : (let s := modL2 up 0 fun l => { l with st := .draining }; (l2Of s 0).st == .draining)
  ∧ (let s := modL2 up 0 fun l => { l with busy := true, carafeN := 8, cur := 7 }; (l2Of s 0).busy && decide ((l2Of s 0).cur < (l2Of s 0).carafeN))
  ∧ (let s := modL2 up 0 fun l => { l with busy := true, carafeN := 0, cur := 1 }; (l2Of s 0).busy && decide ((l2Of s 0).carafeN < (l2Of s 0).cur)) := by decide +kernel

/-! ## Witnesses: the Lockkeeper and compartments -/

/-- A mailbox command with its argument bytes. -/
def cmd (comp : Byte) (args : List Byte) : MbxCmd := { len := BitVec.ofNat 16 args.length, seq := 7, compart := comp, rsv9 := 0, rsv10 := 0, rsv12 := 0, args := args }

def accepted (op : Nat) (m : MbxCmd) (s : State) : Bool :=
  hostReaches s && !s.mbx.busy && s.lk.cur.isNone && lkRuns s && cmdOpcode (submitted op m s) == op && (turnedAway (submitted op m s)).isNone

theorem accepted_iff (op : Nat) (m : MbxCmd) (s : State) (h : accepted op m s = true) : Accepted op m s := by
  simp only [accepted, Bool.and_eq_true, Bool.not_eq_true', beq_iff_eq, Option.isNone_iff_eq_none] at h
  exact ⟨h.1.1.1.1.1, h.1.1.1.1.2, h.1.1.1.2, h.1.1.2, h.1.2, h.2⟩

theorem wit_MailboxProtocol : (let s := up; hostReaches s && !s.mbx.busy && s.lk.cur.isNone && lkRuns s && smSorted s.mbx.cmd && (turnedAway (submitted 0x41 (cmd 1 []) s)).isSome
      && cmdOpcode (submitted 0x41 (cmd 1 []) s) == 0x41)
  ∧ (let s := { up with mbx := { up.mbx with busy := true } }; hostReaches s && s.mbx.busy)
  ∧ (let s := { up with lk := { up.lk with cur := some ⟨1, 0, 0, 0, true⟩ } }; hostReaches s && !s.mbx.busy && (s.lk.cur.any (·.lost))
      && cmdOpcode (submitted 2 (cmd 0 []) s) == 2)
  ∧ (let s := { State.reset with pcie := trainedPcie }; hostReaches s && !s.mbx.busy && s.lk.cur.isNone && !lkRuns s && cmdOpcode (submitted 2 (cmd 0 []) s) == 2)
  ∧ (let s := { up with lk := { up.lk with cur := some ⟨1, 0, 0, 0, false⟩ } }; s.lk.cur == some ⟨1, 0, 0, 0, false⟩ && smSorted s.mbx.resp) := by decide +kernel

theorem wit_DeviceCommands_plain : [0x01, 0x02, 0x41, 0x50].all (fun op => accepted op (cmd 0 []) up)
  ∧ accepted 0x60 (cmd 0 [0, 0, 0, 0, 127, 0]) up ∧ argN (submitted 0x60 (cmd 0 [0, 0, 0, 0, 127, 0]) up) 4 2 = 127
  ∧ accepted 0x61 (cmd 0 [0, 0, 0, 0]) up := by decide +kernel

theorem wit_DeviceCommands_profile : (let m := cmd 0 [2, 0, 0, 0, 0, 0, 0, 0]
      accepted 0x10 m up && argN (submitted 0x10 m up) 0 1 == 2 && argN (submitted 0x10 m up) 1 7 == 0)
  ∧ (let s := { up with lk := { up.lk with switching := 1, cur := some ⟨0x10, 0, 0, 0, false⟩ } };
     bit s.lk.switching 0 && lkRuns s && !flipBusy s 0 && bvSet s.lk.switching 0 false == 0 && !latched s 0
      && s.lk.cur.map (fun c => (c.opcode, c.lost)) == some (0x10, false))
  ∧ (getCl (modClk up 0 fun c => { c with locked := true }) 0).clk.locked
  ∧ (let m := cmd 0 [0x80, 1];
     accepted 0x40 m up && argN (submitted 0x40 m up) 0 1 == 2 ^ 7 && argN (submitted 0x40 m up) 1 1 == 1 && !(getPort up 7).trained)
  ∧ (let m := cmd 0 [1, 0, 0, 0, 0, 0, 0, 0];
     accepted 0xF0 m up && argN (submitted 0xF0 m up) 0 1 == 1 && argN (submitted 0xF0 m up) 1 7 == 0) := by decide +kernel

/-- The arguments of a chunk: the target and slot, its flags, the offset 0 and the bytes. -/
def chunk (target slot flags : Byte) (b : List Byte) : MbxCmd :=
  cmd 0 ([target, slot, flags, 0, 0, 0, 0, 0, BitVec.ofNat 8 b.length, 0, 0, 0, 0, 0, 0, 0] ++ b)

theorem wit_DeviceCommands_images : (let u := submitted 0x70 (chunk 0 0 3 [9]) up
      accepted 0x70 (chunk 0 0 3 [9]) up && chunkOk u && argN u 0 2 == 0 && withChunk u true 0 == some [9])
  ∧ (let u := submitted 0x71 (chunk 0 1 1 [9]) up;
      accepted 0x71 (chunk 0 1 1 [9]) up && chunkOk u && argN u 1 1 == 1 && argN u 0 1 == 0 && withChunk u false 1 == some [9] && !chunkLast u)
  ∧ (let u := submitted 0x71 (chunk 0 2 3 [9]) up;
      accepted 0x71 (chunk 0 2 3 [9]) up && chunkOk u && argN u 1 1 == 2 && withChunk u false 2 == some [9] && chunkLast u
        && match checkImage (setStage u none) [9] with | .inl _ => true | .inr _ => false) := by decide +kernel

/-- A patch image without content, under a key of 32 zero bytes, and signed: its public key, and `r` and `s`. -/
def imageKey : List Byte := List.replicate 32 0 ++ [2] ++ beBytes 48
  0x6aec9c4f8acbebb84b2ab901a7d6187f57bef981cfef0b7678322e4628d841b8dca0cceb964eb16ecf892597440ef5f7

def signedImage : List Byte := leBytes 4 0x31505A54 ++ [1, 0, 0x72, 5, 0, 2] ++ List.replicate 26 0
  ++ [219, 228, 103, 94, 125, 211, 84, 128, 9, 199, 118, 57, 125, 144, 127, 140] ++ List.replicate 12 0
  ++ beBytes 48 0x4531b9f807a8f3b0e8e247e44646c9c7f380a2f8c0f975f3f2d56ecddf4c8e4d4bf16c60061652d581e82d8ebe33ddd5
  ++ beBytes 48 0x4ada5a401cff8f74f467088a0d568da271e214a7c3845bd1553ab6698ef4b3dde6e9ad00976f1b7321a2c5a1f1dcac17

/-- 13 R343, R345: the image was signed with another implementation of ECDSA; a flipped bit of the header spoils it. -/
theorem test_image_signed : imageSigned imageKey signedImage = true := by decide +kernel

theorem test_image_tampered : imageSigned imageKey (signedImage.set 10 1) = false := by decide +kernel

theorem wit_DeviceCommands_accepted : (let m := chunk 0 2 3 signedImage
    let u := submitted 0x71 m { up with lk := { up.lk with key2 := some imageKey } }
    accepted 0x71 m { up with lk := { up.lk with key2 := some imageKey } } && chunkOk u && argN u 1 1 == 2 && argN u 0 1 == 0 && withChunk u false 2 == some signedImage
      && chunkLast u && match checkImage (setStage u none) signedImage with | .inl _ => false | .inr _ => true) = true := by decide +kernel

/-- The record that programs key slot 2. -/
def otp : MbxCmd := chunk 1 2 3 (List.replicate 81 0 ++ [0x31, 0x50, 0x54, 0x4F])

theorem wit_DeviceCommands_key : (let u := submitted 0x71 otp up
    accepted 0x71 otp up && chunkOk u && argN u 1 1 == 2 && argN u 0 1 == 1 && argN u 8 4 == 85 && argN u 97 4 == 0x4F545031) = true := by decide +kernel

/-- Core 0 with one way and one unit of memory, for compartment 1. -/
def createArgs (cores : Byte) (gib : Byte) : List Byte :=
  [cores] ++ List.replicate 15 0 ++ [1] ++ List.replicate 15 0 ++ List.replicate 16 0 ++ [gib, 0, 0, 0] ++ [0, 0, 1, 0] ++ List.replicate 8 0
    ++ List.replicate 8 0 ++ [0, 0, 0, 0, 0, 0, 0, 0]

theorem wit_CompartmentBirth_create : [(1, 1), (0, 1), (1, 129)].all (fun (e : Byte × Byte) => accepted 0x20 (cmd 1 (createArgs e.1 e.2)) up)
  ∧ (let u := submitted 0x20 (cmd 1 (createArgs 1 1)) up
     curComp u == 1 && (getComp up 1).st == .empty && !createBad u && (createShort u).isNone && bit (crCores u) 0)
  ∧ (let s := compIn .running up
     accepted 0x20 (cmd 1 (createArgs 1 1)) s && !createBad (submitted 0x20 (cmd 1 (createArgs 1 1)) s) && (getComp s 1).st != .empty)
  ∧ (let u := submitted 0x20 (cmd 1 (createArgs 0 1)) up; curComp u == 1 && createBad u)
  ∧ (let u := submitted 0x20 (cmd 1 (createArgs 1 129)) up; curComp u == 1 && !createBad u && (createShort u).isSome) := by decide +kernel

/-- Compartment 1 with core 0 and the first unit of memory. -/
def owned (st : CState) : State :=
  let s := modComp (compIn st up) 1 fun c => { c with res := { c.res with cores := 1 }, entryDone := true }
  { modCore s 0 (fun k => { k with compart := 1 }) with dram := { s.dram with owner := [(0, 1)] } }

/-- Eight bytes to the first word of the unit, with entry addresses. -/
def loadArgs : List Byte := List.replicate 8 0 ++ [8, 0, 0, 0, 0, 2, 0, 0] ++ List.replicate 24 0

theorem wit_CompartmentBirth_load : (let s := owned .created
      let u := submitted 0x21 (cmd 1 loadArgs) s
      accepted 0x21 (cmd 1 loadArgs) s && curComp u == 1 && (getComp s 1).st == .created && decide (argN u 12 1 ≤ 1 ∧ argN u 13 1 < 4 ∧ argN u 14 2 = 0
        ∧ argN u 8 4 ≤ 2 ^ 30 ∧ argN u 8 4 % loadRec (argN u 12 1 == 1) = 0 ∧ fld (BitVec.ofNat 64 (argN u 16 8)) 0 3 = 0)
        && insideComp u 1 (BitVec.ofNat 64 (argN u 16 8)) (argN u 8 4 / loadRec (argN u 12 1 == 1) * 8) && allComps.all fun q => (getComp s q).load.isNone)
  ∧ (let l : Load := { src := 0, dest := 0x2000, bytes := 8, stream := false, trust := false, entry := some (4, 8), seq := 0 }
     let s := modComp { owned .created with pcie := trainedPcie } 1 fun c => { c with load := some l }
     (getComp s 1).load == some l && (allComps.all fun q => q == 1 || (getComp s q).load.isNone) && (List.replicate 8 (0 : Byte)).length == l.bytes
       && s.pcie.trained && s.pins.perstN && l.bytes == loadRec l.stream) := by decide +kernel

theorem wit_CompartmentBirth_start : (let s := owned .created
      let m := cmd 1 (List.replicate 16 0)
      accepted 0x22 m s && curComp (submitted 0x22 m s) == 1 && argN (submitted 0x22 m s) 0 16 == 0 && (getComp s 1).st == .created && (getComp s 1).entryDone
        && bit (getComp s 1).res.cores 0)
  ∧ (let s := core0 (fun k => { k with lockHeld := true }) (owned .running)
     !(getComp s 1).notice.reqBusy && lkRuns s && bit (getComp s 1).res.cores 0 && !bit (getComp s 1).res.cores 127 && (getCore s 0).lockHeld
       && (getComp s 1).st == .running)
  ∧ (let s := owned .running; !(getComp s 1).notice.reqBusy && lkRuns s && !(getCore s 0).lockHeld) := by decide +kernel

theorem wit_QuiesceAndDestroy_begin : (let s := owned .running
      accepted 0x23 (cmd 1 []) s && curComp (submitted 0x23 (cmd 1 []) s) == 1 && (getComp s 1).st == .running)
  ∧ [CState.created, .quiesced, .aborted, .running].all (fun st => let s := owned st
      accepted 0x25 (cmd 1 []) s && curComp (submitted 0x25 (cmd 1 []) s) == 1 && (getComp s 1).load.isNone && (getComp s 1).st == st)
  ∧ (let s := owned .scrubbing; (getComp s 1).st == .scrubbing && smSorted s.dram.owner) := by decide +kernel

/-- A descriptor of one word in progress. -/
def cvDemo (op : W64) (started : Bool) : CvRun :=
  { words := [op, 0x2000, 0x3000, 1, 0, 0, 0, 0], doneW := 0, rej := 0, pendingBytes := [], tainted := false, started := started, issued := 0
    poisoned := none, ask := none, got := none, result := none }

/-- A compartment that quiesces by command, 200 µs, and 1 ms, after it began. -/
def quiescing (stopped : Bool) (run : RunState) (t : Nat) : State :=
  let s := modComp (owned .quiescing) 1 fun c => { c with quiesce := some ⟨0, stopped⟩ }
  let s := if stopped then allClusters.foldl (fun s k => modPerc s k 1 fun e => { e with stopped := true }) s else s
  { core0 (fun k => { k with run := run }) s with now := t, lk := { s.lk with cur := some ⟨0x23, 0, 1, 0, false⟩ } }

theorem wit_QuiesceAndDestroy_stop : (let s := quiescing false .running 200000
      let x := getComp s 1
      x.st == .quiescing && x.quiesce == some ⟨0, false⟩ && decide (0 + 200000 ≤ s.now)
        && (allCores.all fun c => !bit x.res.cores c.val || (getCore s c).run == .held || ((getCore s c).run == .running && (getCore s c).wait.isNone
          && (getCore s c).mark.isEmpty && (getCore s c).sq.isEmpty && (getCore s c).pend.flip.isNone && !(getCore s c).pend.snap))
        && allClusters.all fun k => (getPerc s k 1).stack.isEmpty)
  ∧ (let s := quiescing true .stopped 1000000
     let x := getComp s 1
     x.st == .quiescing && x.quiesce.map (·.stopped) == some true && (allClusters.all fun k => (getPerc s k 1).stopped && (getPerc s k 1).run.isNone
       && (getPerc s k 1).stack.isEmpty) && (allCores.all fun c => !bit x.res.cores c.val || (getCore s c).run == .stopped)
       && (quiesceBlocker s 1).isNone && quiesceCmd s 1 && !s.lk.restarting && s.lk.cur.any fun c => !c.lost && decide (c.start + 1000000 ≤ s.now))
  ∧ (let s := modChan (modComp (quiescing true .stopped 0) 1 fun c => { c with res := { c.res with culvert := 1 } }) 0 fun h => { h with
        run := some (cvDemo 2 true) }
     (quiesceBlocker s 1).isSome) := by decide +kernel

theorem wit_CompartmentAborts : (let s := owned .running
      accepted 0x24 (cmd 1 []) s && curComp (submitted 0x24 (cmd 1 []) s) == 1 && decide ((cmdComp (submitted 0x24 (cmd 1 []) s)).toNat < 16)
        && abortable (getComp s 1).st && hostReaches s && !s.lk.restarting && fld (0xA501 : W64) 8 8 == 0xA5 && Fin.ofNat 16 (fld (0xA501 : W64) 0 4) == (1 : CompId)
        && fld (0xA401 : W64) 8 8 != 0xA5)
  ∧ [3999999, 4000000].all (fun t => let s := { modComp (owned .aborting) 1 (fun c => { c with abort := some ⟨0, false, true, false, true, false⟩ }) with now := t }
      (getComp s 1).abort.any fun a => !a.forced && decide (a.start + 4000000 ≤ s.now) == (t == 4000000) && a.orderly && !a.lost && !(getComp s 1).abortDue && !s.lk.restarting)
  ∧ ((getComp (modComp (owned .aborting) 1 fun c => { c with abort := some ⟨0, true, true, false, false, false⟩ }) 1).abort.any fun a => a.forced) := by decide +kernel

/-- One record: group 63 for compartment 1, core 0, this device. -/
def configArgs : List Byte := [0] ++ List.replicate 8 0xFF ++ [1] ++ List.replicate 6 0 ++ ([63] ++ List.replicate 7 0) ++ ([3, 1] ++ List.replicate 6 0)
  ++ ([1] ++ List.replicate 15 0) ++ List.replicate 8 0

theorem wit_WeirCommands_config : (let s := owned .running
    let m := cmd 0 configArgs
    let u := submitted 0x30 m s
    let r := recordAt u 0
    accepted 0x30 m s && devByte (argN u 0 1) && ((List.finRange 8).all fun x => devByte (argN u (1 + x.val) 1)) && argN u 9 1 == 1 && argN u 10 6 == 0 && r.clean && r.valid
      && (confirmed r (configLinks u)).1 && recordOk (confirmed r (configLinks u)).2 r && smSorted s.weir.groups) = true := by decide +kernel

/-- A compartment's post by command at tick 20. -/
def scheduleArgs : List Byte := [20] ++ List.replicate 7 0 ++ [0x12] ++ List.replicate 7 0 ++ List.replicate 8 0

theorem wit_WeirCommands_schedule : (let s := posting 0
    let m := cmd 1 scheduleArgs
    let u := submitted 0x31 m s
    accepted 0x31 m s && curComp u == 1 && (getComp s 1).st == .running && argN u 16 1 == 0 && decide (argN u 17 1 < 32) && argN u 18 6 == 0
      && BitVec.ofNat 64 (argN u 8 8) &&& ~~~actCmdMask == 0
      && !(postRun u 1 false (freshPort (BitVec.ofNat 64 (argN u 0 8)) (BitVec.ofNat 64 (argN u 8 8)))).2.busy) = true := by decide +kernel

/-- A group with device 2 keeps the post waiting for its answer. -/
theorem wit_WeirCommands_waits : (let s0 := posting 0
    let s := { s0 with weir := { s0.weir with live := 5, rdev := 0
                                              groups := [(1, { valid := true, compart := 1, user := false, devmask := 5, engmask := 0, cores := 1, d := 0, failed := false })] } }
    let u := submitted 0x31 (cmd 1 scheduleArgs) s
    accepted 0x31 (cmd 1 scheduleArgs) s && (postRun u 1 false (freshPort (BitVec.ofNat 64 (argN u 0 8)) (BitVec.ofNat 64 (argN u 8 8)))).2.busy) = true := by decide +kernel

/-- A snapshot of compartment 1 at tick 20 to the first 512 KiB of its memory, by its group 1. -/
def snapArgs (g : Byte) : List Byte := [20] ++ List.replicate 7 0 ++ List.replicate 8 0 ++ [g] ++ List.replicate 7 0

theorem wit_WeirCommands_snapshot : (let s := { posting 0 with dram := { up.dram with owner := [(0, 1)] } }
    let m := cmd 1 (snapArgs 1)
    let u := submitted 0x80 m s
    accepted 0x80 m s && curComp u == 1 && (getComp s 1).st == .running && fld (BitVec.ofNat 64 (argN u 8 8)) 0 19 == 0
      && insideComp u 1 (BitVec.ofNat 64 (argN u 8 8)) 0x80000 && argN u 16 1 == 1 && decide (argN u 16 1 < 64) && argN u 17 7 == 0 && (groupOf s 1).valid && (groupOf s 1).compart == compNo 1
      && !snapPending u 1 && !(getActPort s 0).busy && (postRun u 0 false (freshPort 20 (BitVec.ofNat 64 (7 + 16)))).2.result == 0
      && !(postRun u 0 false (freshPort 20 (BitVec.ofNat 64 (7 + 16)))).2.busy) = true := by decide +kernel

theorem wit_LockkeeperEvents : [RunState.locked, .stub].all (fun r => let s := core0 (fun k => { k with run := r, lock := some ⟨0, 0, 1, 0, 0, 0⟩ }) (owned .running)
      lkRuns s && (getCore s 0).run == r && (getCore s 0).lock.isSome && (getCore s 0).sq.isEmpty && (getCore s 0).compart != 0)
  ∧ [1000000, 9999999, 10000000].all (fun t => let s := { up with now := t }; firmwareRuns s && decide (s.lk.lastBeat + 1000000 ≤ s.now)
      && decide (s.lk.lastBeat + 10000000 ≤ s.now) == (t == 10000000))
  ∧ (let s := { up with lk := { up.lk with restarting := true, cur := some ⟨1, 0, 0, 0, false⟩ } }
     s.lk.restarting && !s.lk.held && s.lk.cur.any (!·.lost) && allComps.all fun q => !(getComp s q).notice.reqBusy && !(getComp s q).abortDue) := by decide +kernel

def anEntry : LogEntry := { seq := 1, cls := 1, sev := 0, comp := 0, unit := 0, tick := 0, addr := 0, info := 0 }

theorem wit_ErrorLogKept : (let s := { up with log := { up.log with sram := [anEntry], excess := [] } }; s.log.sram == [anEntry] && decide (s.log.flash.length < 262144))
  ∧ (let s := { up with now := 1000000000, log := { up.log with excess := [(47, 3)] } }
     decide (s.log.second + 1000000000 ≤ s.now) && s.log.excess == [(47, 3)])
  ∧ up.now < up.log.second + 1000000000 := by decide +kernel

/-- A full log, with one entry more that has not reached flash. -/
theorem wit_ErrorLogKept_full : ∃ s : State, s.log.sram = [anEntry] ∧ s.log.flash.length = 262144 :=
  ⟨{ up with log := { up.log with sram := [anEntry], flash := List.replicate 262144 anEntry } }, rfl, List.length_replicate⟩

theorem wit_RegisterWrites : (let s := core0 (fun k => { k with run := .running }) (owned .running)
      (getCore s 0).run == .running && (getCore s 0).compart == compNo 1 && (getCore s 0).compart != compNo 2 && !(getMnt s 0 1).busy && !(getMnt s 0 1).queued
        && fld (0xC : W64) 0 3 != 0 && lkRuns s && (l2Of s 0).st == .off && hostReaches s && !s.mbx.busy && smSorted s.mbx.cmd && vfWritable (getComp s 1).st)
  ∧ (let s := { up with mbx := { up.mbx with busy := true } }; hostReaches s && s.mbx.busy)
  ∧ (let s := { up with pcie := trainedPcie }; configAnswers s && decide ((7 : Nat) % 8 > 2 ∧ (10 : W64).toNat % 8 ≤ 2))
  ∧ !hostReaches { up with pins := { up.pins with perstN := false } } := by decide +kernel

/-! ## Witnesses: power, start-up and the links -/

def powered (f : Power → Power) (g : Pins → Pins) : State := { up with power := f up.power, pins := g up.pins, now := 2500000 }

theorem wit_PowerSequence : !(powered id fun p => { p with input12 := false }).pins.input12
  ∧ (let s := powered (fun p => { p with reg := .off }) fun p => { p with pwrgood := false }; !s.pins.pwrgood && s.pins.input12 && s.power.reg == .off)
  ∧ [0, 2, 3, 4].all (fun n => [true, false].all fun pg => let s := powered (fun p => { p with reg := .ramp, rails := n }) fun p => { p with dramPg := pg }
      s.power.reg == .ramp && s.power.rails == n && s.pins.dramPg == pg && s.power.dramPwrEn && s.pins.input12 && decide (s.power.since + 2500000 ≤ s.now))
  ∧ (let t : ThermalReading := { cluster := [1150], hub := 0, controller := [], port := [] }
     let s := powered (fun p => { p with temps := some t }) id
     s.power.temps == some t && s.power.reg == .on && anyAbove t 1150 && s.pins.pwrgood) := by decide +kernel

theorem wit_ClocksAndLimits_clocks : (let s := modClk up 0 fun c => { c with locked := true }
      lkRuns s && mayChange s 0 && decide (16 ≤ 48 ∧ 48 ≤ ceilingOf s.lk.profile) && decide (ceilingOf s.lk.profile < 1000) && (getCl s 0).clk.locked)
  ∧ (let s := up; clocksRun s && s.lk.boot == .ready && !latched s 0)
  ∧ (let s := modClk { up with power := { up.power with cap := 0 }, lk := { up.lk with sample := { up.lk.sample with s := { up.lk.sample.s with power := 1 } } } } 0
        fun c => { c with locked := true, target := 17 };
     lkRuns s && mayChange s 0 && decide (s.power.cap < s.lk.sample.s.power ∧ 16 < (getCl s 0).clk.target) && stepsFirst s 0)
  ∧ (let s := modClk up 0 fun c => { c with locked := true, target := 16 }
     (getCl s 0).clk.locked && lkRuns s && mayChange s 0 && decide (s.lk.sample.s.power < s.power.cap ∧ (getCl s 0).clk.target < ceilingOf s.lk.profile) && !bit s.power.throttle 0) := by decide +kernel

theorem wit_ClocksAndLimits_limits : (let s := { up with power := { up.power with curLatch := 1 } }; lkRuns s && bit s.power.curLatch 0 && s.power.overSamples == 0)
  ∧ (let s := { up with power := { up.power with overSamples := 9 } }; s.power.reg == .on && decide (9 ≤ s.power.overSamples))
  ∧ (let t : ThermalReading := { cluster := [1100], hub := 0, controller := [], port := [] }
     let s := State.reset
     s.power.reg == .on && s.pins.resetN && anyAbove t 1100 && !lkRuns s)
  ∧ (let t : ThermalReading := { cluster := [999], hub := 0, controller := [], port := [] }
     let s := modClk { up with power := { up.power with hotLatch := 0xFFFF } } 0 fun c => { c with locked := true }
     !anyAbove t 1000 && up.power.hotLatch == 0 && s.power.hotLatch != 0 && lkRuns s && s.power.curLatch == 0 && (getCl s 0).clk.locked)
  ∧ (let s := { up with weir := { up.weir with tick := up.weir.tick.set 33 1000000 } }
     lkRuns s && s.lk.boot == .ready && decide (s.lk.sample.tick.toNat + 1000000 ≤ (hubTick s).toNat) && s.power.throttle == 0)
  ∧ decide (capLimit up up.lk.profile ≤ 440000 ∧ 1 ≤ capLimit up up.lk.profile)
  ∧ [700, 950].all (fun mv => decide (700 ≤ mv ∧ mv ≤ 950 ∧ mv % 5 = 0)) := by decide +kernel

/-- The images' signatures are left to `Config` (15 R362): every other condition of the clauses holds, whichever they are, and banks that are
not whole do not verify. -/
theorem wit_StartUp_firmware : (let s := State.reset
    s.lk.boot == .rom && clocksRun s && !s.lk.held && s.power.tripRec.isNone && !s.lk.lastFailed && s.lk.fwBank.length == 2
      && s.lk.fwWhole == 3)
  ∧ (let s := { State.reset with lk := { State.reset.lk with fwWhole := 0 } }; !bankOk s false && !bankOk s true) := by decide +kernel

theorem wit_StartUp_steps : (let s := { State.reset with lk := { State.reset.lk with boot := .calibration } }; s.lk.boot == .calibration && !s.lk.restarting && clocksRun s)
  ∧ [(none : Option (Fin 16)), some 15].all (fun f => (CalResult.mk 3 f 1 true).failedSub == f)
  ∧ (let s := { State.reset with lk := { State.reset.lk with boot := .memory } }; s.lk.boot == .memory && !s.lk.restarting && clocksRun s)
  ∧ (let s := { State.reset with lk := { State.reset.lk with boot := .microcode } }
     s.lk.boot == .microcode && !s.lk.restarting && clocksRun s && s.lk.ucFlash == [[], []] && (l2Of s 0).st == .off) := by decide +kernel

theorem wit_ResetAndBoardPins : (let s := modChan up 0 fun h => { h with run := some (cvDemo 2 true) }
      (getChan s 0).run == some (cvDemo 2 true) && cvLive (cvDemo 2 true) && cvOp (cvDemo 2 true) != 3)
  ∧ (clocksRun up && lkRuns up) ∧ !lkRuns State.reset ∧ 1 ≤ up.power.rails := by decide +kernel

/-! Requests of device 3 for compartment 0 at this device. -/

def flit (typ : BitVec 4) (pa : BitVec 44) (body : List Word) : Flit :=
  { typ := typ, dst := 0, src := 3, compart := 0, tid := 0, hops := 0, bytemask := 0xFF, wmask := 0xFF, nline := 7, bodytag := true, status := 0, cls := false, rsv := 0,
    pa := pa, paRsv := 0, body := body, seq := 0, ack := 0xFFF, nak := false, trRsv := 0 }

def arrived (f : Flit) (s : State) : State := { s with xitex := { s.xitex with rxq := [(7, f)] } }

theorem wit_HomeRequests_read : [(0, 1), (1, 8), (2, 64)].all (fun (e : BitVec 4 × Nat) => let f := flit e.1 0x2000 []
      deviceMay up f.compart f.src && (homeStatus up f e.2).isNone && (e.1 != 2 || 8 * bulkLines f == e.2))
  ∧ (let f := flit 0 0x7FFFFFFFFF []; deviceMay up f.compart f.src && homeStatus up f 1 == some 3)
  ∧ !deviceMay up 1 3 := by decide +kernel

theorem wit_HomeRequests_write : [(3, 1), (4, 8), (5, 64), (6, 1)].all (fun (e : BitVec 4 × Nat) => let f := flit e.1 0x2000 (List.replicate 64 uninit)
      deviceMay up f.compart f.src && (homeStatus up f e.2).isNone)
  ∧ [(fix 1, false), (uninit, true)].all (fun (e : Word × Bool) => let f := flit 6 0x2000 [e.1, fix 2]
      (f.body[0]? == some (casRead up f (wordPa f.pa)).1) == e.2)
  ∧ canSend (getPort (modPort up 7 fun p => { p with trained := true }) 7) := by decide +kernel

/-! Transaction 4095 of core 0, whose response comes from device 3. -/

def aRemote (user : RemoteUser) (typ : BitVec 4) : Remote := { user := user, comp := 0, pa := 0x30000002000, port := 7, typ := typ, issued := 0 }

def asking (user : RemoteUser) (typ : BitVec 4) (f : Flit) : State :=
  let s := waitFor (.remote 0xFFF) (demo 1 uninit uninit uninit uninit)
  { s with xitex := { s.xitex with outstanding := [(0xFFF, aRemote user typ)], rxq := [(7, f)] }, now := 100000 }

theorem wit_RequesterSide_response : [(RemoteUser.core 0, 0, 7, 0), (.core 0, 6, 8, 0), (.sq 0, 3, 8, 0), (.chan 63, 5, 8, 2)].all
      (fun (e : RemoteUser × BitVec 4 × BitVec 4 × BitVec 4) =>
        let f := { flit e.2.2.1 0 [fix 5] with tid := 0xFFF, status := e.2.2.2 }
        let s := asking e.1 e.2.1 f
        smGet? s.xitex.outstanding f.tid.toNat == some (aRemote e.1 e.2.1) && paDev (aRemote e.1 e.2.1).pa == f.src && waitOf s 0 == some (.remote f.tid))
  ∧ (let f := flit 7 0 []; smGet? (arrived f up).xitex.outstanding f.tid.toNat == none && f.status != 5) := by decide +kernel

/-- The command unit of engine 0 asks for a word. -/
def engineAsks (f : Flit) : State := modEng (asking (.engine 0 .cmd) 0 f) 0 fun e => { e with
  got := [{ comp := 0, unit := .cmd, no := 1, ask := .access 0 0x30000002000 0xFF 0 [], ans := none }] }

theorem wit_RequesterSide_engine : (let s := engineAsks { flit 7 0 [fix 5] with tid := 0xFFF }
    smGet? s.xitex.outstanding 0xFFF == some (aRemote (.engine 0 .cmd) 0) && paDev (aRemote (.engine 0 .cmd) 0).pa == 3
      && (getEng s 0).got.all fun g => g.comp == (aRemote (.engine 0 .cmd) 0).comp && g.ans.isNone) = true := by decide +kernel

theorem wit_RequesterSide_timeout : [99999, 100000].all (fun t => let s := { asking (.core 0) 0 (flit 9 0 []) with now := t }
      decide ((aRemote (.core 0) 0).issued + 100000 ≤ s.now) == (t == 100000) && (smGet? s.xitex.outstanding 0xFFF).isSome && waitOf s 0 == some (.remote 0xFFF)) = true := by
  decide +kernel

/-- Core 127 waits for a credit, of which its compartment holds one, and has none in use. -/
theorem wit_RequesterSide_credit : (let s := modComp (modCore up 127 fun k => { k with wait := some { what := .credit, resume := .instr (.fenceL 127) } }) 0 fun c => { c with
      res := { c.res with lcred := List.replicate 8 1 } }
    (allCores.all fun d => d == 127 || waitOf s d != some .credit) && waitOf s 127 == some .credit
      && decide (creditsUsed s (getCore s 127).compart 7 < creditsHeld s (getCore s 127).compart 7)) = true := by decide +kernel

def portUp (f : Port → Port) : State := modPort up 7 fun p => f { p with trained := true }

theorem wit_LinkLayer_receive : (parseFlit []).isNone
  ∧ (let f := flit 0 0x2000 []
     parseFlit (flitBytes f) == some f && !f.nak && !malformed f
       && [[], [{ flit 0 0 [] with seq := 0xFFF }]].all fun l => let s := portUp fun p => { p with sent := l }
         let p := getPort s 7
         p.trained && !p.down && f.dst == s.devid && f.seq == p.rxSeq && p.queued.isEmpty && p.sent.all fun g => g.seq == f.ack)
  ∧ (let f := { flit 0 0x2000 [] with seq := 1 }; parseFlit (flitBytes f) == some f && !f.nak && f.seq != (getPort (portUp id) 7).rxSeq) := by decide +kernel

theorem wit_LinkLayer : (let s := portUp fun p => { p with sent := [{ flit 0 0 [] with seq := 0xFFF }] }
      let p := getPort s 7
      p.trained && !p.down && !p.retrain && !p.sent.isEmpty)
  ∧ (let p := getPort (portUp fun p => { p with retrain := true }) 7; p.retrain && p.queued.isEmpty)
  ∧ (let s := modPort up 7 fun p => { p with training := true }
     (getPort s 7).training && !trainFails s 7 ⟨true, 4, 3⟩ && trainFails s 7 ⟨false, 4, 3⟩ && !(getPort s 7).trained && (getPort s 7).queued.isEmpty)
  ∧ (let s := portUp id; canSend (getPort s 7) && (getPort s 7).sent.isEmpty && (getPort s 7).queued.isEmpty && standbyAgreed s 7)
  ∧ (let s := portUp fun p => { p with standby := true, queued := [flit 0 0 []] }; (getPort s 7).standby && !(getPort s 7).queued.isEmpty)
  ∧ (let s := portUp fun p => { p with waking := true, queued := [flit 0 0 []] }
     (getPort s 7).waking && canSend { getPort s 7 with waking := false } && (getPort s 7).queued == [flit 0 0 []]) := by decide +kernel

/-! Channel 5 of compartment 1, whose ring is at 0x2000. -/

def cvState (r : Option CvRun) (f : Channel → Channel) : State :=
  let s := modChan demoComp 5 fun h => f { h with en := true, log2n := 4, ring := 0x2000, tail := 1, run := r }
  { s with pcie := trainedPcie, dram := { s.dram with owner := [(0, 1)] } }

theorem wit_HostDataPath_start : (let s := { cvState none id with dram := { demoComp.dram with owner := [(0, 1)], words := bytesAtN 0x400 [1, 0x10000, 0x3000, 1, 5, 0, 0, 0] } }
     (getChan s 5).run.isNone && match cvFetch s 5 with
       | .got r t => r.result.isNone && !r.started && cvOp r == 1 && !nbtPassed t r
       | _ => false)
  ∧ (let s := cvState (some (cvDemo 1 false)) fun h => { h with nbwait := true }; (getChan s 5).nbwait && nbtPassed s (cvDemo 1 false)) := by decide +kernel

theorem wit_HostDataPath_ask : (let r := cvDemo 1 true
    let s := cvState (some r) id
    let from' := cvSrc r + BitVec.ofNat 64 r.issued
    let total := cvCount r * cvRec r
    (getChan s 5).run == some r && cvLive r && cvOp r == 1 && r.pendingBytes.isEmpty && r.doneW != cvCount r && !(getChan s 5).stopped && s.pcie.trained
      && decide (r.issued < total ∧ total - r.issued ≤ 64 - fld from' 0 6 ∧ (chanReads s 5).length < 64)
      && decide ((s.pcie.reads.filter fun x => x.fn == chanOwner s 5).length < 256)) = true := by decide +kernel

/-- The last word of a descriptor is still to be moved. -/
def lastWord (s : State) (r : CvRun) : Bool := (getChan s 5).run == some r && cvLive r && !(getChan s 5).stopped && r.doneW + 1 == cvCount r && r.poisoned.isNone

def aRead : HostRead := { fn := 1, chan := some 5, addr := 0x2000, len := 8, issued := 0 }

theorem wit_HostDataPath_move : (let r := { cvDemo 1 true with issued := 8 }
     let s0 := cvState (some r) id
     let s := { s0 with pcie := { s0.pcie with reads := [aRead] } }
     lastWord s r && cvOp r == 1 && cvFmt r == 0 && chanReads s 5 == [aRead] && aRead.len == 8 && r.pendingBytes.isEmpty && paDev (cvAt (cvDst r) 0) == s.devid
       && match cvStoreLocal 5 (cvAt (cvDst r) 0) [⟨0x06, 0⟩] { s with pcie := { s.pcie with reads := takeReads 5 8 s.pcie.reads } } with
         | .ok () t => getChan t 5 == getChan s 5
         | _ => false)
  ∧ (let r := cvDemo 2 true
     let s := cvState (some r) id
     let l := cvLoad 5 (cvAt (cvSrc r) 0) (putRun s 5 r)
     lastWord s r && cvOp r == 2 && cvFmt r == 0 && s.pcie.trained && paDev (cvAt (cvSrc r) 0) == s.devid && l.1.tag != 0x08 && decide (8 ≤ l.2.pcie.maxPayload))
  ∧ (let r := cvDemo 3 true
     let s := cvState (some r) id
     let l := cvLoad 5 (cvAt (cvSrc r) 0) (putRun s 5 r)
     lastWord s r && cvOp r == 3 && paDev (cvAt (cvSrc r) 0) == s.devid && paDev (cvAt (cvDst r) 0) == s.devid && l.2.devid == s.devid
       && match cvStoreLocal 5 (cvAt (cvDst r) 0) [l.1] l.2 with
         | .ok () _ => true
         | _ => false) := by decide +kernel

theorem wit_HostDataPath_end : (let s := cvState (some { cvDemo 2 true with result := some 0 }) id
      (getChan s 5).run.any (fun r => r.result == some 0) && !cvOutstanding s 5)
  ∧ (let r := { cvDemo 1 true with issued := 8 }
     let s0 := cvState (some r) id
     let s := { s0 with pcie := { s0.pcie with reads := [aRead] }, now := 500000 }
     (getChan s 5).run == some r && cvLive r && cvOp r == 1 && (chanReads s 5).contains aRead && decide (aRead.issued + 500000 ≤ s.now) && chanOwner s 5 == 1
       && bit (getComp s 1).res.culvert 5 && hostReaches s)
  ∧ up.power.reg == .on && up.pins.perstN && up.pins.resetN := by decide +kernel

theorem wit_HostDataPath_pairs : (let s := compIn .running up; hostReaches s && vfWritable (getComp s 1).st)
  ∧ !vfWritable (getComp (compIn .quiesced up) 1).st ∧ (getComp up 1).st ≠ .created
  ∧ bit (msixCtl up 1 9) 32 = true
  ∧ bit (msixCtl (modComp up 1 fun c => { c with vf := { c.vf with msixData := [(9, 0)] } }) 1 9) 32 = false := by decide +kernel

/-! ## Witnesses: a region of which nothing is marked, and one of which every card is copied -/

/-- The words of a ring's first slot, of region 0's entry and of its card map, with more memory behind them. -/
def regionPart (cmd : List W64) : SMap DramWord :=
  bytesAtN 0x400 (cmd ++ [0, 0, 0, 0]) ++ bytesAtN 0x1000 [1, 0x10000, 4, 0, 0, 0x9000, 0, 0] ++ bytesAtN 0x1200 (List.replicate 64 0xFFFFFFFFFFFFFFFF)

def demoRing : State :=
  let s := modPerc (shared demoComp) 0 1 fun e => { e with en := true, log2n := 4, ring := 0x2000, tail := 1, rtab := 0x8000, ptbase := 1 }
  let s := modEng s 0 fun e => { e with tlb := [(0, { comp := 1, sid := 0, vpn := 0x400, level := 1, pte := 0x18000000000C7, bad := false })] }
  { s with dram := { s.dram with owner := [(0, 1)] } }

/-- Engine 0 serves compartment 1 in region 0. -/
def ringed (cmd : List W64) (b : SMap DramWord) : State := { demoRing with dram := { demoRing.dram with words := regionPart cmd ++ b } }

/-- No cache holds anything, and compartment 1 may access the first unit of memory. -/
def Quiet (s : State) : Prop := (∀ j, (l2Of s j).lines = []) ∧ (l2Of s 0).st ≠ .on ∧ s.devid = 0 ∧ 1 ≤ s.dram.units ∧ s.dram.owner = [(0, 1)]
  ∧ (getComp s 1).st = .running

/-- A word of memory holds `BYTES`. -/
def Listed (s : State) (n : Nat) (w : W64) : Prop := ∃ d, smGet? s.dram.words n = some d ∧ syndrome d = .clean ∧ d.tag = 6 ∧ d.payload = w

theorem ringed_quiet (cmd b) : Quiet (ringed cmd b) := ⟨by intro j; revert j; show ∀ j, (l2Of demoRing j).lines = []; decide +kernel,
  show (l2Of demoRing 0).st ≠ .on by decide +kernel, rfl, show 1 ≤ demoRing.dram.units by decide +kernel, rfl, show (getComp demoRing 1).st = .running by decide +kernel⟩

theorem run_quiet (s : State) (c : PercRun) (h : Quiet s) : Quiet (withRun 0 1 c s) := h

theorem quiet_off (x : EngCtx) (s : State) (pa : BitVec 44) (h : Quiet s) (hp : pa.toNat < 0x40000000) : engOff 1 pa x s = .ok pa.toNat s := by
  obtain ⟨-, -, hd, hu, ho, hc⟩ := h
  have ho' : paOff pa = pa.toNat := by simp only [paOff, fld, Nat.shiftRight_zero]; omega
  have hd' : paDev pa = s.devid := by
    rw [hd]; simp only [paDev, fld]
    have : pa.toNat >>> 40 = 0 := by rw [Nat.shiftRight_eq_div_pow]; omega
    rw [this]; rfl
  have h1 : fenceOk s (compNo 1) pa.toNat = true := by
    have hz : pa.toNat / 0x40000000 = 0 := by omega
    have hi : compId (compNo 1) = 1 := rfl
    simp only [fenceOk, ownerAt, ho, hz, hi, hc]; decide
  have h2 : installed s pa.toNat = true := by simp only [installed, decide_eq_true_eq]; omega
  unfold engOff classify
  simp only [ho', hd', ne_eq, not_true_eq_false, if_false]
  rw [if_pos (by omega)]
  simp only [h1, h2, Bool.not_true, Bool.false_eq_true, if_false]

theorem and_aligned (pa : BitVec 44) (ha : pa.toNat % 8 = 0) : pa &&& ~~~7#44 = pa := by
  have key : ∀ i, i < 3 → pa.toNat.testBit i = false := fun i hi => by
    have h := Nat.testBit_mod_two_pow pa.toNat 3 i
    rw [show pa.toNat % 2 ^ 3 = 0 from ha, Nat.zero_testBit] at h
    simpa [hi] using h.symm
  have h7 : ∀ i < 44, 3 ≤ i → (7#44).getLsbD i = false := by decide
  apply BitVec.eq_of_getLsbD_eq
  intro i hi
  simp only [BitVec.getLsbD_and, BitVec.getLsbD_not, hi, decide_true, Bool.true_and]
  by_cases h3 : i < 3
  · have : pa.getLsbD i = false := key i h3
    simp [this]
  · rw [h7 i hi (by omega)]; simp

theorem quiet_read (x : EngCtx) (s : State) (pa : BitVec 44) (f : Nat → W64) (h : Quiet s) (hp : pa.toNat < 0x40000000) (ha : pa.toNat % 8 = 0)
    (hl : ∀ i < 8, Listed s (pa.toNat / 64 * 8 + i) (f i)) : engRead 0 1 pa x s = .ok ⟨6, f (pa.toNat / 8 % 8)⟩ s := by
  have hm := and_aligned pa ha
  have ho := quiet_off x s pa h hp
  have hf : fld pa 3 3 = pa.toNat / 8 % 8 := congrArg (· % 8) (Nat.shiftRight_eq_div_pow pa.toNat 3)
  have hd : paDev pa = s.devid := by
    rw [h.2.2.1]; simp only [paDev, fld]
    have : pa.toNat >>> 40 = 0 := by rw [Nat.shiftRight_eq_div_pow]; omega
    rw [this]; rfl
  have := engRead_off s x 0 1 pa pa.toNat (fun i => ⟨6, f i⟩) (by rw [hm]; exact hd) (by rw [hm]; exact ho) h.1 h.2.1 (fun i hi => by
    rw [hm]
    obtain ⟨d, h1, h2, h3, h4⟩ := hl i hi
    have hx : (lineOff (lineOf pa) + 8 * i) / 8 = pa.toNat / 64 * 8 + i := by simp only [lineOff, lineOf]; omega
    have hg : smGet dramDefault s.dram.words ((lineOff (lineOf pa) + 8 * i) / 8) = d := by rw [hx, smGet, h1]; rfl
    rw [dramRead_clean s false _ (by rw [hg]; exact h2), hg, h3, h4])
  rw [hm, hf] at this
  exact this

theorem quiet_table (x : EngCtx) (s : State) (pa : BitVec 44) (f : Nat → W64) (h : Quiet s) (hp : pa.toNat < 0x40000000) (ha : pa.toNat % 8 = 0)
    (hl : ∀ i < 8, Listed s (pa.toNat / 64 * 8 + i) (f i)) : tabRead 0 1 pa x s = .ok (f (pa.toNat / 8 % 8)) s := by
  simp only [tabRead, em_bind, quiet_read x s pa f h hp ha hl]
  rfl

/-- The words of a ring's first slot, of region 0's entry and of its card map. -/
theorem listed_part (cmd : List W64) (b : SMap DramWord) (n : Nat) (w : W64)
    (h : (match smGet? (regionPart cmd) n with
      | some d => decide (syndrome d = .clean) && decide (d.tag = 6) && decide (d.payload = w)
      | none => false) = true) : Listed (ringed cmd b) n w := by
  split at h
  · rename_i d hd
    simp only [Bool.and_eq_true, decide_eq_true_eq] at h
    exact ⟨d, smGet?_append_some hd, h.1.1, h.1.2, h.2⟩
  · cases h

/-- Region 0 as its entry describes it. -/
def demoRegion0 : Region := { base := 0, entry := 0x8000, kind := 1, rescan := false, vbase := 0, bitmap := 0x10000, flog2 := 4, fwd := 0, lhdr := 4, snapdst := 0, cardmap := 0x9000 }

def entry0 (i : Nat) : W64 := ([1, 0x10000, 4, 0, 0, 0x9000, 0, 0] : List W64).getD i 0

theorem ringed_region (x : EngCtx) (cmd : List W64) (b : SMap DramWord) (c : PercRun) (pa : BitVec 44) (hp : pa.toNat < 0x200000)
    (hl : ∀ i < 8, Listed (ringed cmd b) (0x1000 + i) (entry0 i)) :
    regionOf 0 1 pa x (withRun 0 1 c (ringed cmd b)) = .ok demoRegion0 (withRun 0 1 c (ringed cmd b)) := by
  have hq := run_quiet _ c (ringed_quiet cmd b)
  have h7 : (pa &&& ~~~7#44).toNat < 0x40000000 := by
    have : (pa &&& ~~~7#44).toNat ≤ pa.toNat := by rw [BitVec.toNat_and]; exact Nat.and_le_left
    omega
  have hn : regionNo pa = 0 := by simp only [regionNo, fld, Nat.shiftRight_eq_div_pow]; omega
  have hb : pa.toNat / 2 ^ 21 * 2 ^ 21 = 0 := by omega
  have hz : 0x8000#44 + BitVec.ofNat 44 (64 * 0) = 0x8000#44 := rfl
  have hr : ∀ i ∈ List.range 8, engRead 0 1 (0x8000#44 + BitVec.ofNat 44 (8 * i)) x (withRun 0 1 c (ringed cmd b)) = .ok ⟨6, entry0 i⟩ (withRun 0 1 c (ringed cmd b)) := by
    intro i hi
    have hi := List.mem_range.mp hi
    have ha : (0x8000#44 + BitVec.ofNat 44 (8 * i)).toNat = 0x8000 + 8 * i := by
      rw [BitVec.toNat_add, BitVec.toNat_ofNat, BitVec.toNat_ofNat]; omega
    have := quiet_read x _ (0x8000#44 + BitVec.ofNat 44 (8 * i)) entry0 hq (by rw [ha]; omega) (by rw [ha]; omega) (fun j hj => by
      have hx : (0x8000 + 8 * i) / 64 * 8 + j = 0x1000 + j := by omega
      rw [ha, hx]; exact hl j hj)
    rw [this, ha]
    congr 3; omega
  have he : (getPerc (withRun 0 1 c (ringed cmd b)) 0 1).rtab + BitVec.ofNat 44 (64 * regionNo pa) = 0x8000#44 := by rw [hn]; rfl
  have hw : regionOfWords pa 0x8000#44 ((List.range 8).map fun i => ⟨6, entry0 i⟩) = demoRegion0 := by
    simp only [regionOfWords, hb]; decide +kernel
  rw [regionOf_ok _ x 0 1 pa 0x8000#44 _ (fun i => ⟨6, entry0 i⟩) (quiet_off x _ _ hq h7) he hr (by decide +kernel), hw]

def leaf0 : TlbEntry := { comp := 1, sid := 0, vpn := 0x400, level := 1, pte := 0x18000000000C7, bad := false }

theorem ringed_command (x : EngCtx) (cmd : List W64) (b : SMap DramWord) (c : PercRun) (hl : ∀ i < 8, Listed (ringed cmd b) (0x1000 + i) (entry0 i)) :
    commandRegion 0 1 (va48 0x400000) x (withRun 0 1 c (ringed cmd b)) = .ok (demoRegion0, 0x18) (withRun 0 1 c (ringed cmd b)) := by
  have e3 : (getEng (withRun 0 1 c (ringed cmd b)) 0).tlb = [(0, leaf0)] := rfl
  have e4 : [(0, leaf0)].filter (fun e => tlbMatch e.2 (compNo 1) 0 (va48 (va48 0x400000)) && !e.2.bad) = [(0, leaf0)] := by decide +kernel
  have h0 : tlbFind (getEng (withRun 0 1 c (ringed cmd b)) 0).tlb (compNo 1) (getPerc (withRun 0 1 c (ringed cmd b)) 0 1).sid (va48 (va48 0x400000))
      (withRun 0 1 c (ringed cmd b)) = (some leaf0, withRun 0 1 c (ringed cmd b)) := by
    have : (getPerc (withRun 0 1 c (ringed cmd b)) 0 1).sid = 0 := rfl
    rw [e3, this]; unfold tlbFind; rw [e4]
  have h1 := engLookup_hit _ x 0 1 _ leaf0 (by show bit (1 : W64) 0 = true; decide) (by rw [e3]; simp [leaf0]) h0
  have h2 := engXlate_hit _ x 0 1 (va48 0x400000) leaf0 false h1 (by decide +kernel)
  have hp : entryPa leaf0 (va48 (va48 0x400000)) = 0 := by decide +kernel
  rw [hp] at h2
  exact commandRegion_ok _ x 0 1 _ _ demoRegion0 h2 rfl rfl (ringed_region x cmd b c 0 (by decide) hl) (by decide)

theorem ringed_fetch (x : EngCtx) (a b c d : W64) (m : SMap DramWord) (hl : ∀ i < 8, Listed (ringed [a, b, c, d] m) (0x400 + i) (([a, b, c, d] : List W64).getD i 0)) :
    fetchSlot 0 1 x (ringed [a, b, c, d] m) = .ok [⟨6, a⟩, ⟨6, b⟩, ⟨6, c⟩, ⟨6, d⟩] (ringed [a, b, c, d] m) := by
  have hs : slotPa (getPerc (ringed [a, b, c, d] m) 0 1) = 0x2000#44 := rfl
  have hr : ∀ i ∈ List.range 4, engRead 0 1 (0x2000#44 + BitVec.ofNat 44 (8 * i)) x (ringed [a, b, c, d] m) = .ok ⟨6, ([a, b, c, d] : List W64).getD i 0⟩ (ringed [a, b, c, d] m) := by
    intro i hi
    have hi := List.mem_range.mp hi
    have ha : (0x2000#44 + BitVec.ofNat 44 (8 * i)).toNat = 0x2000 + 8 * i := by
      rw [BitVec.toNat_add, BitVec.toNat_ofNat, BitVec.toNat_ofNat]; omega
    have := quiet_read x _ (0x2000#44 + BitVec.ofNat 44 (8 * i)) (fun i => ([a, b, c, d] : List W64).getD i 0) (ringed_quiet _ m) (by rw [ha]; omega) (by rw [ha]; omega) (fun j hj => by
      have hx : (0x2000 + 8 * i) / 64 * 8 + j = 0x400 + j := by omega
      rw [ha, hx]; exact hl j hj)
    rw [this, ha]
    have hx : (0x2000 + 8 * i) / 8 % 8 = i := by omega
    rw [hx]
  exact fetchSlot_ok _ x 0 1 _ _ hs hr

/-- Engine 0 takes the command up. -/
theorem ringed_starts (cmd : List W64) (a b c d : W64) (m : SMap DramWord) (hc : cmd = [a, b, c, d])
    (hl : ∀ i < 8, Listed (ringed cmd m) (0x400 + i) (cmd.getD i 0)) (ho : commandOk [⟨6, a⟩, ⟨6, b⟩, ⟨6, c⟩, ⟨6, d⟩] = true) :
    Starts 0 1 (ringed cmd m) (withRun 0 1 (newRun [⟨6, a⟩, ⟨6, b⟩, ⟨6, c⟩, ⟨6, d⟩]) (ringed cmd m)) [⟨6, a⟩, ⟨6, b⟩, ⟨6, c⟩, ⟨6, d⟩] := by
  subst hc
  refine ⟨_, ⟨show mayStart demoRing 0 1 = true by decide +kernel, show 4 ≤ (4 : BitVec 4).toNat by decide, show (4 : BitVec 4).toNat ≤ 12 by decide,
    ringed_fetch _ a b c d m hl, ho⟩, rfl, show withinShare (withRun 0 1 (newRun []) demoRing) 0 1 = true by decide +kernel,
    show cmdAsks demoRing 0 1 = false by decide +kernel, show (getPerc demoRing 0 1).stopped = false by decide +kernel⟩

/-- A clean word of `BYTES` 0 for each of the 4096 words of the region's bitmap. -/
def blankBitmap : SMap DramWord := (List.range' 0x2000 4096).map fun i => (i, toDram ⟨6, 0⟩)

theorem wit_PercolatorCommands_relocate : ∃ s u t1 r ra, Starts 0 1 s u [⟨6, 2⟩, ⟨6, 0x400000⟩, ⟨6, 0⟩, ⟨6, 0⟩]
    ∧ commandRegion 0 1 (va48 0x400000) (cmdUnit 0) u = .ok (r, ra) t1
    ∧ (getPerc t1 0 1).run = some (newRun [⟨6, 2⟩, ⟨6, 0x400000⟩, ⟨6, 0⟩, ⟨6, 0⟩]) ∧ raState ra = 3 ∧ r.kind ≠ 3
    ∧ ∀ i < 4096, tabRead 0 1 (r.bitmap + BitVec.ofNat 44 (8 * i)) (cmdUnit 0) t1 = .ok 0 t1 := by
  refine ⟨_, _, _, _, _, ringed_starts [2, 0x400000, 0, 0] 2 0x400000 0 0 blankBitmap rfl
    (fun i hi => listed_part _ _ _ _ (by revert i; decide +kernel)) (by decide +kernel),
    ringed_command _ _ _ _ (fun i hi => listed_part _ _ _ _ (by revert i; decide +kernel)), rfl, by decide, by decide, fun i hi => ?_⟩
  have ha : (demoRegion0.bitmap + BitVec.ofNat 44 (8 * i)).toNat = 0x10000 + 8 * i := by
    rw [BitVec.toNat_add, BitVec.toNat_ofNat, show demoRegion0.bitmap.toNat = 0x10000 from rfl]; omega
  refine quiet_table _ _ _ (fun _ => 0) (run_quiet _ _ (ringed_quiet _ _)) (by rw [ha]; omega) (by rw [ha]; omega) fun j hj => ?_
  refine ⟨toDram ⟨6, 0⟩, ?_, by decide +kernel, rfl, rfl⟩
  show smGet? (regionPart [2, 0x400000, 0, 0] ++ blankBitmap) _ = _
  rw [ha, smGet?_skip (fun e he => ?_), blankBitmap, smGet?_block _ _ _ _ (by omega) (by omega)]
  have hk : (regionPart [2, 0x400000, 0, 0]).all (fun e => decide (e.1 < 0x2000)) = true := by decide +kernel
  have := of_decide_eq_true (List.all_eq_true.mp hk e he)
  omega

theorem wit_PercolatorCommands_snapshotCopy : ∃ s u t1 r ra, Starts 0 1 s u [⟨6, 6⟩, ⟨6, 0x400000⟩, ⟨6, 0⟩, ⟨6, 0⟩]
    ∧ commandRegion 0 1 (va48 0x400000) (cmdUnit 0) u = .ok (r, ra) t1
    ∧ (getPerc t1 0 1).run = some (newRun [⟨6, 6⟩, ⟨6, 0x400000⟩, ⟨6, 0⟩, ⟨6, 0⟩])
    ∧ ∀ i < 4096, copyCard 0 1 (r.base + BitVec.ofNat 44 (512 * i)) (cmdUnit 0) t1 = .ok false t1 := by
  have hl : ∀ i < 8, Listed (ringed [6, 0x400000, 0, 0] []) (0x1000 + i) (entry0 i) := fun i hi => listed_part _ _ _ _ (by revert i; decide +kernel)
  have hc : ∀ n < 64, Listed (ringed [6, 0x400000, 0, 0] []) (0x1200 + n) 0xFFFFFFFFFFFFFFFF := fun i hi => listed_part _ _ _ _ (by revert i; decide +kernel)
  refine ⟨_, _, _, _, _, ringed_starts [6, 0x400000, 0, 0] 6 0x400000 0 0 [] rfl
    (fun i hi => listed_part _ _ _ _ (by revert i; decide +kernel)) (by decide +kernel), ringed_command _ _ _ _ hl, rfl, fun i hi => ?_⟩
  have hp : (demoRegion0.base + BitVec.ofNat 44 (512 * i)).toNat = 512 * i := by
    rw [BitVec.toNat_add, BitVec.toNat_ofNat, show demoRegion0.base.toNat = 0 from rfl]; omega
  have hi' : fld (demoRegion0.base + BitVec.ofNat 44 (512 * i)) 9 12 = i := by simp only [fld, Nat.shiftRight_eq_div_pow, hp]; omega
  have hb : cardBit demoRegion0 (demoRegion0.base + BitVec.ofNat 44 (512 * i)) = (0x9000#44 + BitVec.ofNat 44 (8 * (i / 64)), i % 64) := by
    simp only [cardBit, hi']; rfl
  have ha : (0x9000#44 + BitVec.ofNat 44 (8 * (i / 64))).toNat = 0x9000 + 8 * (i / 64) := by
    rw [BitVec.toNat_add, BitVec.toNat_ofNat, BitVec.toNat_ofNat]; omega
  have h64 : ∀ n < 64, bit (0xFFFFFFFFFFFFFFFF : W64) n = true := by decide +kernel
  refine copyCard_done _ _ 0 1 _ demoRegion0 0xFFFFFFFFFFFFFFFF (ringed_region _ _ _ _ _ (by rw [hp]; omega) hl) (by decide) ?_ (by rw [hb]; exact h64 _ (Nat.mod_lt _ (by decide)))
  rw [hb]
  exact quiet_table _ _ _ (fun _ => 0xFFFFFFFFFFFFFFFF) (run_quiet _ _ (ringed_quiet _ _)) (by rw [ha]; omega) (by rw [ha]; omega) fun j hj => by
    have hx : (0x9000 + 8 * (i / 64)) / 64 * 8 + j = 0x1200 + ((0x9000 + 8 * (i / 64)) / 64 * 8 + j - 0x1200) := by omega
    rw [ha, hx]; exact hc _ (by omega)

/-! ## Decoding: words written out from the formats of 04 Table 4.1 and the worked words of 04 R117 -/

/-- Each word with the instruction it spells. -/
def spelled : List (BitVec 32 × Instr) := [
  (0x00000005, .syscall 0 5),  -- SYSCALL 5 (S: SF 0, N 5)
  (0x00003002, .fenceS 0),  -- FENCE.S (S: SF 3, N 2)
  (0x00E04010, .mfc 0 7 0x010),  -- MFC g7, 0x010 (S: SF 4, gd 7)
  (0x00035002, .mtc 0 0x002 3),  -- MTC 0x002, g3 (S: SF 5, ga 3)
  (0x00048001, .invtlb 0 4 1),  -- INVTLB g4, 1 (S: SF 8, ga 4)
  (0x0000BABC, .brk 0 0xABC),  -- BRK 0xABC (S: SF 11)
  (0x08221801, .sub 0 1 2 3),  -- SUB g1, g2, g3 (R: op 0x02, func 1)
  (0x0BFEE815, .remu 0 31 30 29),  -- REMU g31, g30, g29 (R: op 0x02, func 0x15)
  (0x0CCA003F, .sari 0 6 63),  -- SARI g6, 63 (I: op 0x03, IF 0x0A)
  (0x0CA28000, .movhi 0 5 0x8000 1),  -- MOVHI g5, 0x8000, 2
  (0x10221800, .gadd 0 1 2 (.reg 3)),  -- GADD g1, g2, g3 (R: op 0x04)
  (0x1422AFFF, .gcmp 0 1 2 (.imm 0xFFF)),  -- GCMP g1, g2, -1 (K: op 0x05, KF 10)
  (0x18220142, .stag 0 1 2 0x42),  -- STAG g1, g2, 0x42 (R: op 0x06, func 0x100 + t)
  (0x1C221802, .cons 0 1 2 3),  -- CONS g1, g2, g3 (R: op 0x07, func 2)
  (0x20220040, .alloc 0 1 2 4),  -- ALLOC g1, g2, 4 (R: op 0x08, func 16 p)
  (0x20221803, .vset 0 1 2 3),  -- VSET, func 3
  (0x247F0018, .ldw 0 3 31 3 0),  -- LDW g3, 24(g31)
  (0x247F0019, .ldwNb 0 3 31 3 0),  -- LDW.NB g3, 24(g31)
  (0x287FFFF8, .stw 0 3 31 0x1FFF 0),  -- STW g3, -8(g31) (M: op 0x0A, disp16 0xFFF8)
  (0x2C646002, .ldH 0 3 4 true 2),  -- LD.H unsigned g3, 2(g4) (MR: op 0x0B, SZ 1, U 1)
  (0x3064C008, .stD 0 3 4 8),  -- ST.D g3, 8(g4) (MR: op 0x0C, SZ 3)
  (0x34221800, .casw 0 1 2 3),  -- CASW g1, g2, g3 (R: op 0x0D)
  (0x3C440010, .pref 0 2 4 16),  -- PREF hint 2 (M: op 0x0F)
  (0x40E117FF, .bgef 0 1 2 0x7FF),  -- BGEF g1, g2 (BC: op 0x10, cond 7, disp11 -1)
  (0x40A1FFFE, .bnz 0 1 0xFFFE),  -- BNZ g1 (B: cond 5)
  (0x442105FF, .bntag 0 1 5 0xFF),  -- BNTAG g1, 0x05 (BT: op 0x11, cond 1)
  (0x45610004, .bcls 0 1 3 4),  -- BCLS g1, 3 (B: op 0x11, cond 8 + k)
  (0x4FFFFFFF, .call 0 0x3FFFFFF),  -- CALL -1 (J: op 0x13)
  (0x50090000, .jr 0 9),  -- JR g9 (R: op 0x14, func 0)
  (0x60020032, .armt 0 2 3),  -- ARMT g2, 3 (R: op 0x18, func 2 + 16 n)
  (0x60221847, .rduc 0 1 2 3 4),  -- RDUC g1, g2, g3, 4 (R: op 0x18, func 7 + 16 f)
  (0x70221802, .vmulD 0 1 2 3),  -- VMUL.D v1, v2, v3 (R: op 0x1C, func 2)
  (0x70221831, .vextF 0 1 2 3)  -- VEXT.F g1, v2, 3 (R: op 0x1C, func 0x31, lane in gb)
  ]

theorem test_words_decode : spelled.all (fun e => decodeWord 0 none e.1 == some e.2) = true := by decide +kernel

theorem test_words_encode : spelled.all (fun e => encodeCore e.2 == some e.1) = true := by decide +kernel

/-- `REP g9` and the `MOVW g4, g3, g5` that it governs. -/
theorem test_rep_pair : iwRep 9 = 0x04090000 ∧ decodeWord 0 (some 9) 0x38832800 = some (.movw 0 (some 9) 4 3 5) := by decide +kernel

/-- 04 R90, Table 4.3: the first check that a word fails. -/
theorem test_rejected : [(0x54000000, 0x01), (0x08000010, 0x00), (0x0800000B, 0x02), (0x00003004, 0x02), (0x00004FFF, 0x05), (0x00005021, 0x05),
    (0x00001001, 0x03), (0x24000002, 0x03), (0x38832800, 0x06)].all (fun (e : BitVec 32 × BitVec 8) =>
      ((illegalOf e.1 0).map (·.1)).getD 0 == e.2) = true := by decide +kernel

/-- A word of the block has no bits in the table. -/
theorem test_no_bits : decodeTableWord 32 0 = none := rfl

/-! ## Well-formedness: an ill-formed term for each check, beside a well-formed one -/

def refusedTerms : List Instr := [.mfc 0 1 0xFFF, .mtc 0 0xFFF 1, .mtc 0 0x021 1, .invtlb 0 4 2, .invtlbB 0 4 3, .shli 0 1 64, .shri 0 1 64, .sari 0 1 64, .alloc 0 1 2 0,
  .ldw 0 1 2 0 1, .ldwNb 0 1 2 0 2, .stw 0 1 2 0 3, .stwNb 0 1 2 0 1, .ldD 0 1 2 true 0, .rduc 0 1 2 3 5, .lwalk 0 none 1 1 2, .lwalk 0 (some 3) 3 1 2]

/-- A block instruction without its prefix, with the count register among its own, with its index register an object register. -/
def refusedBlocks (f : CoreId → Option Reg → Reg → Reg → Reg → Instr) : List Instr := [f 0 none 1 2 3, f 0 (some 1) 1 2 3, f 0 (some 2) 1 2 3, f 0 (some 3) 1 2 3, f 0 (some 9) 1 2 1, f 0 (some 9) 1 2 2]

theorem test_ill_formed_refused : refusedTerms.all (fun i => !wellFormedInstr i)
  ∧ [Instr.movw, Instr.fillw, Instr.scanw, Instr.cmpw, Instr.movb].all (fun f => (refusedBlocks f).all (fun i => !wellFormedInstr i) && wellFormedInstr (f 0 (some 9) 1 2 3)) := by
  decide +kernel

theorem test_well_formed : spelled.all (fun e => wellFormedInstr e.2) = true := by decide +kernel

/-! ## Single steps, with results the spec gives -/

/-- The payload of a register of core 0 after an instruction. -/
def result (r : Reg) (i : Instr) (s : State) : Option W64 := match exec i s with
  | .next t => some (gread (getCore t 0) r).payload
  | _ => none

def demo5 (w : Word) : State := core0 (fun k => gwrite k 5 w) (demo 1 (fix 0) (fix 0) (fix 0) (fix 0))

/-- 04 R117, worked constants: `MOVI` sign-extends; `MOVHI` replaces one quarter. -/
theorem test_movi : result 5 (.movi 0 5 0x9ABC) (demo5 (fix 0)) = some 0xFFFFFFFFFFFF9ABC := by decide +kernel

theorem test_movhi : result 5 (.movhi 0 5 0x0000 0) (demo5 (fix 0xFFFFFFFFFFFF9ABC)) = some 0xFFFFFFFF00009ABC
  ∧ result 5 (.movhi 0 5 0x8000 1) (demo5 (fix 0xFFFFFFFF00009ABC)) = some 0xFFFF800000009ABC
  ∧ result 5 (.movhi 0 5 0x0001 2) (demo5 (fix 0xFFFF800000009ABC)) = some 0x0001800000009ABC := by decide +kernel

/-- 04 Table 4.5: the sum wraps, a right shift of a negative number fills with its sign, the order is signed or not. -/
theorem test_raw : result 3 (.add 0 3 1 2) (demo 1 (fix 0x7FFFFFFFFFFFFFFF) (fix 1) (fix 0) (fix 0)) = some 0x8000000000000000
  ∧ result 3 (.sar 0 3 1 2) (demo 1 (fix 0x8000000000000000) (fix 127) (fix 0) (fix 0)) = some 0xFFFFFFFFFFFFFFFF
  ∧ result 3 (.cmps 0 3 1 2) (demo 1 (fix 0xFFFFFFFFFFFFFFFF) (fix 1) (fix 0) (fix 0)) = some 0xFFFFFFFFFFFFFFFF
  ∧ result 3 (.cmpu 0 3 1 2) (demo 1 (fix 0xFFFFFFFFFFFFFFFF) (fix 1) (fix 0) (fix 0)) = some 1
  ∧ result 3 (.rol 0 3 1 2) (demo 1 (fix 0x8000000000000001) (fix 4) (fix 0) (fix 0)) = some 0x18 := by decide +kernel

/-- A destination that is also a source takes the result of the old word. -/
theorem test_same_register : result 1 (.sub 0 1 2 1) (demo 1 (fix 3) (fix 10) (fix 0) (fix 0)) = some 7 := by decide +kernel

/-- 04 R100: a byte of a word, by the order of R31. -/
theorem test_bytes : (let s := withWords [(0x202, toDram ⟨0x06, 0x8877665544332211⟩)] (demo 1 (fix 0x1010) (fix 0) (fix 0) (fix 0))
    result 3 (.ldB 0 3 1 true 7) s == some 0x88 && result 3 (.ldB 0 3 1 false 7) s == some 0xFFFFFFFFFFFFFF88 && result 3 (.ldH 0 3 1 true 1) s == some 0x3322) = true := by
  decide +kernel

/-- 02 R50: `STAG` makes a word of the tag that it names; `GTAG` reads it. -/
theorem test_tags : (let s := demo 1 (⟨0x06, 0x1234⟩) (fix 0) (fix 0) (fix 0)
    result 3 (.gtag 0 3 1) s == some 0x06 && result 3 (.stag 0 3 1 0x00) s == some 0x1234) = true := by decide +kernel

/-- 04 R109: a taken branch goes to its own address plus four times its displacement, another to the next instruction. -/
theorem test_branch : (let s := demo 1 (fix 0) (fix 1) (fix 0) (fix 0)
    next (.bz 0 1 0xFFFE) s (fun t => (getCore t 0).pc == 0xFF8) && next (.bz 0 2 0xFFFE) s (fun t => (getCore t 0).pc == 0x1004)
      && next (.call 0 0x3FFFFFF) s (fun t => (getCore t 0).pc == 0xFFC)) = true := by decide +kernel

/-- 17, the example of a relayed load: the header and the address extension of its request of 24 bytes, and a response of 32 bytes. -/
theorem test_flit_example : (let f := { flit 0 0xC0000123A40 [] with dst := 12, src := 5, compart := 3, tid := 0x01A, hops := 2, bytemask := 0, wmask := 0, nline := 0, bodytag := false }
    flitHeader f == 0x201A35C0 && flitExt f == 0xC0000123A40 && (flitBytes f).length == 24 && (flitBytes (flit 7 0 [fix 1])).length == 32) = true := by decide +kernel

/-- SHA-384 of "abc" (FIPS 180-4, first example), and CRC-32C of "123456789", its usual check value (logs 58 and 56). -/
theorem test_sha384 : sha384 [0x61, 0x62, 0x63] = 0xcb00753f45a35e8bb5a03d699ac65007272c32ab0eded1631a8b605a43ff5bed8086072ba1e7cc2358baeca134c825a7 := by
  decide +kernel

theorem test_crc32c : crc32c ((List.range 9).map fun i => BitVec.ofNat 8 (0x31 + i)) = 0xE3069283 := by decide +kernel

/-- The vectors of 04's example: A at 0x1000 with 20 elements, B at 0x2030 with room for 30. -/
def copyState : State :=
  let a : SMap DramWord := (0x200, toDram ⟨0x04, 20⟩) :: (List.range 20).map fun i => (0x201 + i, toDram (fix (BitVec.ofNat 64 (100 + i))))
  let b : SMap DramWord := (0x406, toDram ⟨0x04, 30⟩) :: (List.range 30).map fun i => (0x407 + i, toDram (fix 0))
  let s := core0 (fun k => gwrite (gwrite (gwrite (gwrite { k with pc := 0x8000 } 3 ⟨0x82, 0x1000⟩) 4 ⟨0x82, 0x2030⟩) 5 (fix 0x400000000)) 9 (fix 20)) (demo 1 (fix 0) (fix 0) (fix 0) (fix 0))
  { s with dram := { s.dram with words := a ++ b ++ [(0x1000, toDram ⟨0x06, 0x3883280004090000⟩)] } }

/-- 04, the example of a block copy: I and J end at 20 and 24, the count at 0. -/
theorem test_block_copy : (match exec (.movw 0 (some 9) 4 3 5) copyState with
    | .next t => (gread (getCore t 0) 5).payload == 0x1800000014 && (gread (getCore t 0) 9).payload == 0 && (getCore t 0).pc == 0x8008
    | _ => false) = true := by decide +kernel

/-- The queue is first in, first out; what a step answers is the front command's outcome with the rest waiting. -/
theorem test_queue : (match step { demo 1 (fix 0) (fix 0) (fix 0) (fix 0) with pending := [.movi 0 5 7, .movi 0 5 8] } with
    | .next t => t.pending == [.movi 0 5 8] && (gread (getCore t 0) 5).payload == 7
    | _ => false) = true := by decide +kernel

end Sys2Proof.Tests
end

section
/-! PROOFS. The scope of the block (00): every command answers a next state, and a step runs the command at the front of the queue. -/

namespace Sys2Proof.Machine

/-! ## Outcomes that are a next state -/

/-- An outcome that is a next state: neither a fault nor a refusal. -/
def Answers (o : Host.Outcome State Fault Refusal) : Prop := ∃ t, o = .next t

theorem answers_next (t : State) : Answers (.next t) := ⟨t, rfl⟩

theorem answers_ite {p : Prop} [Decidable p] {a b : Host.Outcome State Fault Refusal} (ha : Answers a) (hb : Answers b) :
    Answers (if p then a else b) := by
  split
  · exact ha
  · exact hb

/-- The usual shape of an event: it comes about under its precondition, and where that fails it does not (log 7). -/
theorem answers_guard {p : Prop} [Decidable p] (t u : State) : Answers (if p then .next t else .next u) :=
  answers_ite (answers_next t) (answers_next u)

/-- An instruction that a core is given: whether it is taken or not, the core goes on from a state. -/
theorem answers_issue (c : CoreId) (i : Instr) (body : CM Flow) (s : State) : Answers (issue c i body s) := by
  unfold issue
  split
  · exact answers_next _
  · exact answers_next _

/-! ## Events that branch more than once -/

/-! ### Cores -/

theorem execSplitStoreBusError_answers (c : CoreId) (s : State) : Answers (execSplitStoreBusError c s) := by
  simp only [execSplitStoreBusError]
  split
  · exact answers_next _
  · split
    · exact answers_next _
    · exact answers_next _

theorem execMachineCheck_answers (c : CoreId) (src : McSource) (s : State) : Answers (execMachineCheck c src s) := by
  simp only [execMachineCheck]
  split
  · exact answers_guard _ _
  · exact answers_next _
  · exact answers_next _
  · refine answers_ite (answers_next _) ?_
    split
    · exact answers_next _
    · exact answers_next _
  · refine answers_ite (answers_next _) ?_
    split
    · exact answers_next _
    · exact answers_ite (answers_guard _ _) (answers_next _)

theorem execForwardReply_answers (c : CoreId) (s : State) : Answers (execForwardReply c s) := by
  simp only [execForwardReply]
  split
  · exact answers_ite (answers_next _) (answers_guard _ _)
  · exact answers_next _

theorem execCardCheckReply_answers (c : CoreId) (s : State) : Answers (execCardCheckReply c s) := by
  simp only [execCardCheckReply]
  split
  · exact answers_ite (answers_next _) (answers_guard _ _)
  · exact answers_next _

theorem execIllegalInstruction_answers (c : CoreId) (w nextw : BitVec 32) (s : State) : Answers (execIllegalInstruction c w nextw s) := by
  simp only [execIllegalInstruction]
  split
  · exact answers_next _
  · split
    · exact answers_next _
    · exact answers_next _

/-! ### Percolators -/

theorem execPercolatorCommandComplete_answers (k : ClusterId) (p : CompId) (s : State) : Answers (execPercolatorCommandComplete k p s) := by
  simp only [execPercolatorCommandComplete]
  split
  · split
    · exact answers_next _
    · exact answers_next _
  · refine answers_ite (answers_next _) ?_
    split
    · exact answers_next _
    · exact answers_next _
    · exact answers_guard _ _

theorem execForward_answers (k : ClusterId) (s : State) : Answers (execForward k s) := by
  simp only [execForward]
  split
  · exact answers_next _
  · split
    · exact answers_next _
    · exact answers_next _

theorem execMarkRequest_answers (k : ClusterId) (s : State) : Answers (execMarkRequest k s) := by
  simp only [execMarkRequest]
  split
  · exact answers_next _
  · split
    · exact answers_next _
    · exact answers_next _
    · exact answers_next _

theorem execCardRequest_answers (k : ClusterId) (s : State) : Answers (execCardRequest k s) := by
  simp only [execCardRequest]
  split
  · exact answers_next _
  · split
    · exact answers_next _
    · split
      · exact answers_next _
      · exact answers_next _
      · exact answers_next _
      · exact answers_next _

theorem execCardCopyComplete_answers (k : ClusterId) (s : State) : Answers (execCardCopyComplete k s) := by
  simp only [execCardCopyComplete]
  split
  · exact answers_next _
  · split
    · exact answers_next _
    · exact answers_next _
    · exact answers_next _

/-! ### The Weir, links, the host and power -/

theorem execActionPostComplete_answers (p : CompId) (full failed : BitVec 16) (s : State) :
    Answers (execActionPostComplete p full failed s) := by
  simp only [execActionPostComplete]
  split
  · exact answers_ite (answers_next _) (answers_guard _ _)
  · exact answers_guard _ _

theorem execFlitReceive_answers (x : PortId) (body trailer : List Byte) (s : State) : Answers (execFlitReceive x body trailer s) := by
  simp only [execFlitReceive]
  refine answers_ite (answers_next _) ?_
  split
  · exact answers_next _
  · exact answers_guard _ _

theorem execPcieError_answers (fn : CompId) (e : PcieErr) (s : State) : Answers (execPcieError fn e s) := by
  simp only [execPcieError]
  split
  · exact answers_next _
  · exact answers_next _
  · exact answers_next _

theorem execDescriptorComplete_answers (n : ChanId) (s : State) : Answers (execDescriptorComplete n s) := by
  simp only [execDescriptorComplete]
  split
  · split
    · exact answers_guard _ _
    · exact answers_next _
  · split
    · exact answers_next _
    · exact answers_next _
    · exact answers_guard _ _

theorem execLoadDone_answers (data : List Byte) (s : State) : Answers (execLoadDone data s) := by
  simp only [execLoadDone]
  split
  · exact answers_next _
  · split
    · exact answers_next _
    · exact answers_guard _ _

theorem execRegisterWrite_answers (w : RegWriter) (a : Nat) (be : BitVec 8) (v : W64) (s : State) :
    Answers (execRegisterWrite w a be v s) := by
  simp only [execRegisterWrite]
  split
  · exact answers_guard _ _
  · exact answers_guard _ _
  · exact answers_guard _ _
  · exact answers_guard _ _
  · exact answers_guard _ _

theorem execRegulatorCommand_answers (r : RegCommand) (s : State) : Answers (execRegulatorCommand r s) := by
  simp only [execRegulatorCommand]
  refine answers_ite (answers_next _) ?_
  split
  · exact answers_guard _ _
  · exact answers_guard _ _

theorem execPowerCapStep_answers (k : ClusterId) (up : Bool) (s : State) : Answers (execPowerCapStep k up s) := by
  simp only [execPowerCapStep]
  exact answers_ite (answers_next _) (answers_ite (answers_guard _ _) (answers_ite (answers_next _)
    (answers_ite (answers_guard _ _) (answers_guard _ _))))

/-! ## Every command and every step -/

theorem exec_answers (i : Instr) (s : State) : Answers (exec i s) := by
  cases i
  -- Instructions of a core; the rows that are writes of one register have their effect where the bit is set (log 6).
  case syscall | retx | isync | fenceL | fenceS | fenceA | mfc | mtc | mfb | mtb | invtlb | invtlbB | halt | brk | dret
      | add | sub | and | or | xor | shl | shr | sar | rol | cmps | cmpu | mul | mulh | div | divu | rem | remu | addi | andi
      | ori | xori | shli | shri | sari | movi | movhi | gadd | gsub | gmul | gdiv | gquo | grem | gneg | glt | gle | geq
      | gcmp | eq | gtag | stag | tcls | car | cdr | cons | rplaca | rplacd | lwalk | alloc | hdr | vref | vset | vlen | ldw
      | ldwNb | stw | stwNb | ldB | ldH | ldW | ldD | stB | stH | stW | stD | casw | movw | fillw | scanw | cmpw | movb
      | pref | beq | bne | bnil | bnnil | bz | bnz | bltf | bgef | btag | bntag | bcls | jmp | call | jr | callr | ret
      | rdt | waitt | armt | barw | bara | bart | bcst | rduc | vaddD | vsubD | vmulD | vdivD | vfmaD | vsqrtD | vminD
      | vmaxD | vcmpltD | vcmpeqD | vcvtLd | vcvtDl | vaddL | vsubL | vmulL | vand | vor | vxor | vldF | vldB | vstF
      | vstB | vins | vextF | vextL | vsplat | nrdf | nwrf => exact answers_issue _ _ _ _
  case wdset | wdclr | irouteWr | swi | swclr => exact answers_ite (answers_issue _ _ _ _) (answers_next _)
  -- Events that come about in every state, or whose guard stands within the next state.
  case groupOperationComplete | divideComplete | longOperationComplete | storeQueueDrain | patrolRead | actPostGo
      | actPostCancel | actionCancelFlood | deviceFailed | timerAdvance | tmrCountRead | captureRead | tmrGcmdStart
      | tmrGcmdStop | tmrGcmdStagger | prcTail | mark | relocate | remap | scrub | cleanLog | snapshotCopy
      | markBufferDrain | terminationRound | schedulingWindow | clean | inval | cleanInval | taginit | l2ReqOn | l2ReqOff
      | l2CarafeWrite | getInfo | getStatus | setProfile | compartmentCreate | compartmentLoad | compartmentStart
      | release | compartmentQuiesce | compartmentAbort | mbxAbort | compartmentDestroy | weirConfig | weirSchedule
      | linkTrain | linkStatus | telemetryRead | errorLogRead | errorLogClear | fwUpdate | microcodeStage
      | programKeySlot2 | snapshot | deviceReset | rdWord | rdLine | rdBulk | wrWord | wrLine | wrBulk | respData
      | respAck | cvTail | qpSqhead | qpCqtail | vfHostirq | logFlashWrite | interruptEntry | lineFill | resetN
      | creditFree | smbusBlockRead => exact answers_next _
  -- Events with guards alone.
  case alarmFire | markBufferRoom | refresh | driftTracking | phaseFlipStop | phaseFlipResume | snapshotDump | rootChange
      | weirSyncPulse | onDieResynchronisation | weirPllLossOfLock | evtEdge | markStackSteal | l2DrainComplete
      | profileClusterSwitch | destroyDone | heartbeat | lockkeeperRestart | telemetrySample | thermalSample
      | clusterFrequencyChange | clusterPllLossOfLock | clusterPllRelock | railFault | dramPg | dramPgTimeout | perstN
      | firmwareVerification | memoryInitialisation | microcodeLoad | pcieTraining | ackTimeout | standbyWake
      | standbyWakeComplete | standbyEntry | vfFlr | qpSqtail | correctedErrorSummary | jtagInstruction
      | inputPowerApplied | inputPowerRemoved | lockkeeperRestartDone => exact answers_guard _ _
  case groupMessage | snapshotCoreStop | linkTrained | currentSample | pwrgoodFall | linkRetrainComplete
      | lockkeeperSramError => exact answers_ite (answers_next _) (answers_guard _ _)
  case pwrgoodRise | carafeWayConverted =>
    exact answers_ite (answers_next _) (answers_ite (answers_next _) (answers_guard _ _))
  case railGood | timingSymbolExchange =>
    exact answers_ite (answers_next _) (answers_ite (answers_next _) (answers_ite (answers_next _) (answers_guard _ _)))
  -- Events that depend on what a lookup finds.
  case startTimerChannels | staggerTimerChannels | setGoodcol | groupInterrupt | startPercolatorCommand | snapshotStop
      | compartmentReset | forwardCompletionNotice | remoteRequestTimeout | msg =>
    simp only [exec_startTimerChannels, execStartTimerChannels, exec_staggerTimerChannels, execStaggerTimerChannels,
      exec_setGoodcol, execSetGoodcol, exec_groupInterrupt, execGroupInterrupt, exec_startPercolatorCommand,
      execStartPercolatorCommand, exec_snapshotStop, execSnapshotStop, exec_compartmentReset, execCompartmentReset,
      exec_forwardCompletionNotice, execForwardCompletionNotice, exec_remoteRequestTimeout, execRemoteRequestTimeout, exec_msg,
      execMsg]
    split
    · exact answers_next _
    · exact answers_next _
  case invtlbBArrival | invtlbBComplete | waittExpiry | dramRead | snapshotStopReport | maintenanceQueuedStart
      | maintenanceComplete | quiesceStop | quiesceTimeout | abortTimerExpiry | abortComplete | lockupReport
      | recoveryStopReport | thermalTrip | cas | completionTimeout | nbt =>
    simp only [exec_invtlbBArrival, execInvtlbBArrival, exec_invtlbBComplete, execInvtlbBComplete, exec_waittExpiry,
      execWaittExpiry, exec_dramRead, execDramRead, exec_snapshotStopReport, execSnapshotStopReport, exec_maintenanceQueuedStart,
      execMaintenanceQueuedStart, exec_maintenanceComplete, execMaintenanceComplete, exec_quiesceStop, execQuiesceStop,
      exec_quiesceTimeout, execQuiesceTimeout, exec_abortTimerExpiry, execAbortTimerExpiry, exec_abortComplete,
      execAbortComplete, exec_lockupReport, execLockupReport, exec_recoveryStopReport, execRecoveryStopReport, exec_thermalTrip,
      execThermalTrip, exec_cas, execCas, exec_completionTimeout, execCompletionTimeout, exec_nbt, execNbt]
    split
    · exact answers_guard _ _
    · exact answers_next _
  case startCulvertChannel | forwardPoll | hostToDevice | deviceToHost | deviceToDevice | pcieCompletion =>
    simp only [exec_startCulvertChannel, execStartCulvertChannel, exec_forwardPoll, execForwardPoll, exec_hostToDevice,
      execHostToDevice, exec_deviceToHost, execDeviceToHost, exec_deviceToDevice, execDeviceToDevice, exec_pcieCompletion,
      execPcieCompletion]
    split
    · exact answers_next _
    · exact answers_guard _ _
  case actionInstall | quiesced | calibration =>
    simp only [exec_actionInstall, execActionInstall, exec_quiesced, execQuiesced, exec_calibration, execCalibration]
    refine answers_ite (answers_next _) ?_
    split
    · exact answers_next _
    · exact answers_next _
  -- Events that branch more than once.
  case splitStoreBusError => exact execSplitStoreBusError_answers _ _
  case machineCheck => exact execMachineCheck_answers _ _ _
  case forwardReply => exact execForwardReply_answers _ _
  case cardCheckReply => exact execCardCheckReply_answers _ _
  case illegalInstruction => exact execIllegalInstruction_answers _ _ _ _
  case percolatorCommandComplete => exact execPercolatorCommandComplete_answers _ _ _
  case forward => exact execForward_answers _ _
  case markRequest => exact execMarkRequest_answers _ _
  case cardRequest => exact execCardRequest_answers _ _
  case cardCopyComplete => exact execCardCopyComplete_answers _ _
  case actionPostComplete => exact execActionPostComplete_answers _ _ _ _
  case flitReceive => exact execFlitReceive_answers _ _ _ _
  case pcieError => exact execPcieError_answers _ _ _
  case descriptorComplete => exact execDescriptorComplete_answers _ _
  case loadDone => exact execLoadDone_answers _ _
  case registerWrite => exact execRegisterWrite_answers _ _ _ _ _
  case regulatorCommand => exact execRegulatorCommand_answers _ _
  case powerCapStep => exact execPowerCapStep_answers _ _ _

theorem step_nil {s : State} (h : s.pending = []) : step s = .next (idleStep s) := by
  simp only [step, h]

theorem step_cons {i : Instr} {rest : List Instr} {s : State} (h : s.pending = i :: rest) :
    step s = exec i { s with pending := rest } := by
  simp only [step, h]

theorem step_answers (s : State) : Answers (step s) := by
  cases h : s.pending with
  | nil => rw [step_nil h]; exact answers_next _
  | cons i rest => rw [step_cons h]; exact exec_answers i _

/-- Settles O1: the queue that the step takes apart is the one that the statement names. -/
theorem stepRunsFrontCommand : Obligations.StepRunsFrontCommand := fun _ _ _ h => step_cons h

/-- Settles O3, by cases on the queue and on the command at its front. -/
theorem everyStepAnswersNext : Obligations.EveryStepAnswersNext := step_answers

end Sys2Proof.Machine
end

section
/-! PROOFS. Writes of registers (00 R4): what a write of each kind of page does, and the four writers. -/

namespace Sys2Proof.Machine

/-! ## Byte enables -/

theorem byteMask_all : byteMask 0xFF#8 = BitVec.allOnes 64 := by decide

@[simp] theorem and_byteMask_all (v : W64) : v &&& byteMask 0xFF#8 = v := by
  rw [byteMask_all, BitVec.and_allOnes]

/-- A write with every byte enabled replaces the register. -/
@[simp] theorem mergeBytes_all (old v : W64) : mergeBytes old v 0xFF#8 = v := by
  rw [mergeBytes, and_byteMask_all, byteMask_all, BitVec.not_allOnes, BitVec.and_zero, BitVec.zero_or]

theorem ofNat_fld {n : Nat} (w : BitVec n) (lo len : Nat) : BitVec.ofNat len (fld w lo len) = (w >>> lo).setWidth len := by
  apply BitVec.eq_of_toNat_eq
  simp [fld]

/-! ## Maintenance pages (12 R321, R322) -/

@[simp] theorem getMnt_modMnt (s : State) (k : ClusterId) (p : CompId) (f : Mnt → Mnt) : getMnt (modMnt s k p f) k p = f (getMnt s k p) := by
  simp [getMnt, modMnt, modMntEng]

theorem mntWrite_start {s : State} {k : ClusterId} {p : CompId} (v : W64) (hb : (getMnt s k p).busy = false)
    (hq : (getMnt s k p).queued = false) :
    mntWrite s k p 0 0xFF v = modMnt s k p fun m => { m with start := v &&& mntPaMask } := by
  simp [mntWrite, hb, hq]

theorem mntWrite_op {s : State} {k : ClusterId} {p : CompId} (v : W64) (hb : (getMnt s k p).busy = false)
    (hq : (getMnt s k p).queued = false) (hv : fld v 0 3 ≠ 0) :
    mntWrite s k p 0x10 0xFF v = mntStart s k p (v &&& 0xF#64) := by
  have h : fld (v &&& 0xF#64) 0 3 = fld v 0 3 := by
    have h15 : v.toNat &&& 15 = v.toNat % 2 ^ 4 := Nat.and_two_pow_sub_one_eq_mod v.toNat 4
    simp only [fld, Nat.shiftRight_zero, BitVec.toNat_and]
    change (v.toNat &&& 15) % 2 ^ 3 = _
    omega
  simp [mntWrite, hb, hq, h, hv]

theorem mntStart_getMnt (s : State) (k : ClusterId) (p : CompId) (op : W64) :
    (getMnt (mntStart s k p op) k p).op = op
    ∧ (getMnt (mntStart s k p op) k p).busy = (s.mnt.get k).queue.isEmpty
    ∧ (getMnt (mntStart s k p op) k p).queued = !(s.mnt.get k).queue.isEmpty := by
  simp [mntStart, getMnt, modMnt, modMntEng]

theorem mntStart_queue (s : State) (k : ClusterId) (p : CompId) (op : W64) :
    ((mntStart s k p op).mnt.get k).queue = (s.mnt.get k).queue ++ [p] := by
  simp [mntStart, modMnt, modMntEng]

/-! ## L2 control pages (12 R319, R320) -/

@[simp] theorem l2Of_modL2 (s : State) (k : ClusterId) (f : L2 → L2) : l2Of (modL2 s k f) k = f (l2Of s k) := by
  simp [l2Of, modL2]

theorem l2On_of_off {s : State} {k : ClusterId} (h : (l2Of s k).st = .off) :
    l2Of (l2On s k) k = { l2Of s k with st := .on, lines := [] } := by
  simp [l2On, h]

theorem l2CtlWrite_on (s : State) (k : ClusterId) : l2CtlWrite s k 0 0xFF 4 = l2On s k := by
  have h : fld ((4 : W64) &&& byteMask 0xFF) 2 2 = 1 := by decide
  simp only [l2CtlWrite, h, if_true]

/-! ## The windows of the pages (11 Table 11.1) -/

theorem pageAt_mnt (k : ClusterId) (p : CompId) (r : Nat) (hr : r < 0x1000) :
    pageAt (0x300000 + 0x10000 * k.val + 0x1000 * p.val + r) = some (.mnt k p) := by
  have hk := k.isLt
  have hp := p.isLt
  have hn : (0x300000 + 0x10000 * k.val + 0x1000 * p.val + r) / 0x1000 = 0x300 + 16 * k.val + p.val := by omega
  have ek : Fin.ofNat 16 ((0x300 + 16 * k.val + p.val) / 16) = k := Fin.ext (by simp only [Fin.ofNat]; omega)
  have ep : Fin.ofNat 16 (0x300 + 16 * k.val + p.val) = p := Fin.ext (by simp only [Fin.ofNat]; omega)
  simp only [pageAt, hn, ek, ep]
  rw [if_neg (by omega), if_neg (by omega), if_neg (by omega), if_neg (by omega), if_pos (by omega)]

theorem pageAt_l2 (k : ClusterId) (r : Nat) (hr : r < 0x1000) : pageAt (0x400000 + 0x1000 * k.val + r) = some (.l2 k) := by
  have hk := k.isLt
  have hn : (0x400000 + 0x1000 * k.val + r) / 0x1000 = 0x400 + k.val := by omega
  have ek : Fin.ofNat 16 (0x400 + k.val) = k := Fin.ext (by simp only [Fin.ofNat]; omega)
  simp only [pageAt, hn, ek]
  rw [if_neg (by omega), if_neg (by omega), if_neg (by omega), if_neg (by omega), if_neg (by omega), if_pos (by omega)]

/-! ## The error log (18 R430) -/

@[simp] theorem signal_mnt (s : State) (p : CompId) (n : Nat) : (signal s p n).mnt = s.mnt := by
  unfold signal; split <;> rfl

@[simp] theorem signal_log (s : State) (p : CompId) (n : Nat) : (signal s p n).log = s.log := (signal_frame s p n).2.2.2.1

theorem mbxIrq_frame (s : State) (i : Nat) : (mbxIrq s i).mnt = s.mnt ∧ (mbxIrq s i).log = s.log := by
  unfold mbxIrq
  simp only
  split
  · simp
  · simp

theorem ringEvent_frame (s : State) (code comp : Nat) (seq : BitVec 32) (data : W64) :
    (ringEvent s code comp seq data).mnt = s.mnt ∧ (ringEvent s code comp seq data).log = s.log := by
  unfold ringEvent
  simp only
  split
  · exact ⟨rfl, rfl⟩
  · exact mbxIrq_frame _ 1

theorem postEvent_frame (s : State) (code comp : Nat) (seq : BitVec 32) (data : W64) :
    (postEvent s code comp seq data).mnt = s.mnt ∧ (postEvent s code comp seq data).log = s.log := by
  unfold postEvent
  split
  · exact ⟨rfl, rfl⟩
  · exact ringEvent_frame _ _ _ _ _

theorem logErr_mnt (s : State) (cls sev comp unit : Nat) (addr info : W64) : (logErr s cls sev comp unit addr info).mnt = s.mnt :=
  (postEvent_frame _ _ _ _ _).1

theorem logErr_seq (s : State) (cls sev comp unit : Nat) (addr info : W64) :
    (logErr s cls sev comp unit addr info).log.seq = s.log.seq + 1 := by
  rw [logErr, (postEvent_frame _ _ _ _ _).2]

/-! ## The command buffer (15 R365) -/

theorem smPut_sorted {α : Type} [DecidableEq α] {d : α} {m : SMap α} (k : Nat) (v : α) (h : smSorted m = true) :
    smSorted (smPut d m k v) = true := by
  unfold smPut
  split
  · exact smDel_sorted h
  · exact smSet_sorted h

theorem smGet_putBytes_of_lt (m : SMap Byte) (o k : Nat) (l : List Byte) (hm : smSorted m = true) (hk : k < o) :
    smGet 0 (putBytes m o l) k = smGet 0 m k := by
  induction l generalizing m o with
  | nil => rfl
  | cons b l ih =>
    rw [putBytes, ih _ _ (smPut_sorted o b hm) (by omega), smGet_smPut k hm, if_neg (by omega)]

theorem getBytes_succ (m : SMap Byte) (o n : Nat) : getBytes m o (n + 1) = smGet 0 m o :: getBytes m (o + 1) n := by
  simp [getBytes, List.range_succ_eq_map, Function.comp_def, Nat.add_assoc, Nat.add_comm 1]

/-- Bytes that were written are read back. -/
theorem getBytes_putBytes (m : SMap Byte) (o : Nat) (l : List Byte) (hm : smSorted m = true) :
    getBytes (putBytes m o l) o l.length = l := by
  induction l generalizing m o with
  | nil => rfl
  | cons b l ih =>
    have hm' := smPut_sorted (d := 0) o b hm
    rw [List.length_cons, getBytes_succ, putBytes, ih _ _ hm', smGet_putBytes_of_lt _ _ _ _ hm' (by omega), smGet_smPut o hm, if_pos rfl]

/-- Bytes written one after another into a buffer that is not locked. -/
theorem writeCmdBuf_each (l : List Byte) (o : Nat) (s : State) (hs : s.mbx.busy = false) (hl : o + l.length ≤ 4096) :
    (l.zipIdx o).foldl (fun s b => writeCmdBuf s b.2 [b.1]) s = { s with mbx := { s.mbx with cmd := putBytes s.mbx.cmd o l } } := by
  induction l generalizing o s with
  | nil => rfl
  | cons b l ih =>
    rw [List.length_cons] at hl
    have hb : writeCmdBuf s o [b] = { s with mbx := { s.mbx with cmd := smPut 0 s.mbx.cmd o b } } := by
      have : 4096 - o = (4095 - o) + 1 := by omega
      simp [writeCmdBuf, hs, this, putBytes]
    rw [List.zipIdx_cons, List.foldl_cons, hb]
    exact ih (o + 1) { s with mbx := { s.mbx with cmd := smPut 0 s.mbx.cmd o b } } hs (by omega)

theorem range_enabled_all : (List.range 8).filter (fun i => bit (0xFF : Byte) i) = List.range 8 := by decide

theorem enabledBytes_all (o : Nat) (v : W64) : enabledBytes o 0xFF v = ((leBytes 8 v.toNat).zipIdx o).map Prod.swap := by
  have hb : ∀ i, BitVec.ofNat 8 (fld v (8 * i) 8) = BitVec.ofNat 8 (v.toNat / 256 ^ i) := fun i => by
    rw [fld, Nat.shiftRight_eq_div_pow, Nat.pow_mul]
    exact BitVec.eq_of_toNat_eq (by simp)
  rw [enabledBytes, range_enabled_all]
  simp [hb, leBytes, List.range_succ, Nat.div_div_eq_div_mul]

theorem cmdBufWrite_free (s : State) (o : Nat) (v : W64) (hs : s.mbx.busy = false) (ho : o + 8 ≤ 4096) :
    cmdBufWrite s o 0xFF v = { s with mbx := { s.mbx with cmd := putBytes s.mbx.cmd o (leBytes 8 v.toNat) } } := by
  rw [cmdBufWrite, enabledBytes_all, List.foldl_map]
  exact writeCmdBuf_each _ _ _ hs ho

theorem cmdBufWrite_locked (s : State) (o : Nat) (v : W64) (hs : s.mbx.busy = true) :
    cmdBufWrite s o 0xFF v = { s with mbx := { s.mbx with rej := true } } := by
  rw [cmdBufWrite, enabledBytes_all]
  simp [leBytes, writeCmdBuf, hs]

/-! ## The writers (00 R4) -/

theorem registerWrite_core {s : State} {c : CoreId} (a : Nat) (be : Byte) (v : W64) (h : (getCore s c).run = .running) :
    exec (.registerWrite (.core c) a be v) s = .next (mmioWrite s c (!isSys (getCore s c)) (a / 8 * 8) be v) := by
  simp only [exec_registerWrite, execRegisterWrite, h, if_true]

theorem registerWrite_lockkeeper {s : State} (a : Nat) (be : Byte) (v : W64) (h : lkRuns s = true) :
    exec (.registerWrite .lockkeeper a be v) s = .next (lkWrite s (a / 8 * 8) be v) := by
  simp only [exec_registerWrite, execRegisterWrite, h, if_true]

theorem registerWrite_pf {s : State} (a : Nat) (be : Byte) (v : W64) (h : hostReaches s = true) :
    exec (.registerWrite .hostPf a be v) s = .next (pfWrite s a be v) := by
  simp only [exec_registerWrite, execRegisterWrite, h, if_true]

theorem registerWrite_vf {s : State} (p : CompId) (a : Nat) (be : Byte) (v : W64) (h : hostReaches s = true) :
    exec (.registerWrite (.hostVf p) a be v) s = .next (vfWrite s p a be v) := by
  simp only [exec_registerWrite, execRegisterWrite, h, if_true]

theorem registerWrite_pf_unreached {s : State} (a : Nat) (be : Byte) (v : W64) (h : hostReaches s = false) :
    exec (.registerWrite .hostPf a be v) s = .next s := by
  simp [exec_registerWrite, execRegisterWrite, h]

theorem registerWrite_cfg {s : State} (r : CfgReg) (a : Nat) (be : Byte) (v : W64) (h : configAnswers s = true) :
    exec (.registerWrite (.hostConfig r) a be v) s = .next (configWrite s r v) := by
  simp only [exec_registerWrite, execRegisterWrite, h, if_true]

/-! ## What a core reaches (07 R178) -/

theorem coreReaches_mnt (s : State) (c : CoreId) (k : ClusterId) (p : CompId) :
    coreReaches s c (.mnt k p) = (compNo p == (getCore s c).compart && p != 0) := rfl

/-- A core's write of its own compartment's maintenance page. -/
theorem registerWrite_own_mnt {s : State} {c : CoreId} {p : CompId} (k : ClusterId) (r : Nat) (be : Byte) (v : W64)
    (hrun : (getCore s c).run = .running) (hown : (getCore s c).compart = compNo p) (hp : p ≠ 0) (hr : r < 0x1000) (h8 : 8 ∣ r) :
    exec (.registerWrite (.core c) (0x300000 + 0x10000 * k.val + 0x1000 * p.val + r) be v) s = .next (mntWrite s k p r be v) := by
  have hreach : coreReaches s c (.mnt k p) = true := by simp [coreReaches_mnt, hown, hp]
  rw [registerWrite_core _ be v hrun, Nat.div_mul_cancel (by omega), mmioWrite, pageAt_mnt k p r hr]
  have hoff : (0x300000 + 0x10000 * k.val + 0x1000 * p.val + r) % 0x1000 = r := by omega
  simp only [hreach, if_true, hoff, pageWrite]

/-- A core's attempt on another compartment's maintenance page is logged and has no other effect. -/
theorem registerWrite_other_mnt {s : State} {c : CoreId} {p : CompId} (k : ClusterId) (r : Nat) (be : Byte) (v : W64)
    (hrun : (getCore s c).run = .running) (hother : (getCore s c).compart ≠ compNo p) (hr : r < 0x1000) (h8 : 8 ∣ r) :
    exec (.registerWrite (.core c) (0x300000 + 0x10000 * k.val + 0x1000 * p.val + r) be v) s
      = .next (logErr s 0x0C 1 (getCore s c).compart.toNat c.val 0 0) := by
  have hreach : coreReaches s c (.mnt k p) = false := by simp [coreReaches_mnt, Ne.symm hother]
  rw [registerWrite_core _ be v hrun, Nat.div_mul_cancel (by omega), mmioWrite, pageAt_mnt k p r hr]
  simp [hreach, logsAttempt]

/-! ## What the Lockkeeper reaches (12 R319) -/

theorem registerWrite_l2 {s : State} (k : ClusterId) (r : Nat) (be : Byte) (v : W64) (h : lkRuns s = true) (hr : r < 0x1000)
    (h8 : 8 ∣ r) : exec (.registerWrite .lockkeeper (0x400000 + 0x1000 * k.val + r) be v) s = .next (l2CtlWrite s k r be v) := by
  rw [registerWrite_lockkeeper _ be v h, Nat.div_mul_cancel (by omega), lkWrite, pageAt_l2 k r hr]
  have hoff : (0x400000 + 0x1000 * k.val + r) % 0x1000 = r := by omega
  simp only [hoff, pageWrite, if_true]

/-! ## What the host reaches (15 R364, R365, 16 R391, 17 Table 17.6) -/

theorem pfWrite_irq (s : State) (v : W64) : pfWrite s 0x10 0xFF v = mbxWrite s 0x10 0xFF v := by
  simp [pfWrite, regAccess]

theorem mbxWrite_irq (s : State) (v : W64) : mbxWrite s 0x10 0xFF v =
    { s with mbx := { s.mbx with irq := s.mbx.irq &&& ~~~(v.setWidth 3), irqEn := (v >>> 8).setWidth 3 } } := by
  have hbe : bit (0xFF : Byte) 1 = true := by decide
  have hw : v &&& byteMask (0xFF : Byte) = v := and_byteMask_all v
  simp only [mbxWrite, hbe, hw, ofNat_fld, BitVec.ushiftRight_zero, if_true]

theorem pfWrite_cmdBuf (s : State) (off : Nat) (be : Byte) (v : W64) (h : off < 512) :
    pfWrite s (0x1000 + 8 * off) be v = cmdBufWrite s (8 * off) be v := by
  have ha : (0x1000 + 8 * off) / 8 * 8 = 0x1000 + 8 * off := by omega
  rw [pfWrite, ha, if_pos (by omega), Nat.add_sub_cancel_left]

@[simp] theorem getQp_modQp (s : State) (p : CompId) (q : QpId) (f : QueuePair → QueuePair) : getQp (modQp s p q f) p q = f (getQp s p q) := by
  simp [getQp, modQp]

theorem vfWrite_cqhead {s : State} {p : CompId} (v : W64) (hp : p ≠ 0) (hw : vfWritable (getComp s p).st = true) :
    vfWrite s p 0x30 0xFF v = modQp s p 0 fun x => { x with cqhead := BitVec.ofNat 12 (v.toNat % 4096) } := by
  simp [vfWrite, qpHostWrite, hp, hw, fld]

theorem configWrite_maxPayload {s : State} {v : W64} (h : v.toNat % 8 ≤ 2) :
    configWrite s .maxPayload v = { s with pcie := { s.pcie with maxPayload := 128 * 2 ^ (v.toNat % 8) } } := by
  have hn : 128 * 2 ^ (v.toNat % 8) ≤ 512 := Nat.mul_le_mul_left 128 (Nat.pow_le_pow_right (by omega) h)
  have hf : fld v 0 3 = v.toNat % 8 := rfl
  simp only [configWrite, hf, hn, if_true]

/-- Settles O52: one register of each kind of page, by its writer. -/
theorem registerWrites : Obligations.RegisterWrites := by
  intro c k p v off s m page
  refine ⟨fun hrun hown hp hbusy hqueued => ⟨?_, fun hop => ?_⟩, fun hrun hother => ?_, fun hlk hoff => ?_,
    fun hhost => ⟨?_, fun hfree hsorted hlt => ?_, fun hlocked => ?_, fun hp hw => ?_⟩, fun hcfg hv => ?_, fun hhost => ?_⟩
  · refine ⟨_, registerWrite_own_mnt k 0 0xFF v hrun hown hp (by omega) (by omega), ?_⟩
    rw [mntWrite_start v hbusy hqueued]
    exact ⟨by rw [getMnt_modMnt]; rfl, rfl⟩
  · refine ⟨_, registerWrite_own_mnt k 0x10 0xFF v hrun hown hp (by omega) (by omega), ?_⟩
    rw [mntWrite_op v hbusy hqueued hop]
    obtain ⟨hop', hbusy', hqueued'⟩ := mntStart_getMnt s k p (v &&& 0xF#64)
    exact ⟨hop', by rw [hbusy', hqueued', Bool.or_not_self], mntStart_queue s k p _⟩
  · exact ⟨_, registerWrite_other_mnt k 0 0xFF v hrun hother (by omega) (by omega), logErr_mnt _ _ _ _ _ _ _, logErr_seq _ _ _ _ _ _ _⟩
  · refine ⟨_, registerWrite_l2 k 0 0xFF 4 hlk (by omega) (by omega), ?_⟩
    rw [l2CtlWrite_on, l2On_of_off hoff]
    exact ⟨rfl, rfl⟩
  · refine ⟨_, registerWrite_pf 0x10 0xFF v hhost, ?_⟩
    rw [pfWrite_irq, mbxWrite_irq]
    exact ⟨rfl, rfl, rfl⟩
  · refine ⟨_, registerWrite_pf _ 0xFF v hhost, ?_⟩
    rw [pfWrite_cmdBuf s off 0xFF v hlt, cmdBufWrite_free s _ v hfree (by omega)]
    exact ⟨getBytes_putBytes _ _ _ hsorted, rfl⟩
  · rw [registerWrite_pf _ 0xFF v hhost]
    exact congrArg _ (cmdBufWrite_locked s 0 v hlocked)
  · refine ⟨_, registerWrite_vf p 0x30 0xFF v hhost, ?_⟩
    rw [vfWrite_cqhead v hp hw, getQp_modQp]
  · rw [registerWrite_cfg .maxPayload off 0xFF v hcfg, configWrite_maxPayload hv]
  · exact registerWrite_pf_unreached _ 0xFF v hhost

end Sys2Proof.Machine
end

section
/-! PROOFS. Memory and its events (02 R57, 17 R417 to R420): a demand read, the patrol, refresh and drift tracking. -/

namespace Sys2Proof.Machine

/-! ## Reading back what was stored -/

/-- A listed value is found, be the keys in order or not: a search passes exactly what the listing passed. -/
theorem smGet?_smSet_same {α : Type} (m : SMap α) (k : Nat) (v : α) : smGet? (smSet m k v) k = some v := by
  induction m with
  | nil => simp [smSet, smGet?]
  | cons e m ih =>
    obtain ⟨j, w⟩ := e
    rw [smSet]
    split
    · simp [smGet?]
    · split
      · simp [smGet?]
      · rename_i hlt hne
        rw [smGet?, if_neg hne, if_neg hlt, ih]

theorem smGet_smPut_same_of_ne {α : Type} [DecidableEq α] {d v : α} (m : SMap α) (k : Nat) (h : v ≠ d) :
    smGet d (smPut d m k v) k = v := by
  rw [smPut, if_neg h, smGet, smGet?_smSet_same, Option.getD_some]

/-! ## Demand reads (02 R57) -/

theorem classify_dram {s : State} {pa : BitVec 44} (hd : paDev pa = s.devid) (ho : paOff pa < 0x8000000000) :
    classify s pa = .dram (paOff pa) := by
  simp [classify, hd, ho]

/-- Of at most 512 units of 1 GiB, each offset lies below the end of the DRAM space. -/
theorem lt_dramSpace_of_installed {s : State} {o : Nat} (hi : installed s o = true) (hu : s.dram.units ≤ 512) : o < 0x8000000000 := by
  have ho : o < s.dram.units * 0x40000000 := of_decide_eq_true hi
  omega

theorem dramRead_event {s : State} {pa : BitVec 44} (hd : paDev pa = s.devid) (hi : installed s (paOff pa) = true)
    (hu : s.dram.units ≤ 512) : exec (.dramRead pa none) s = .next (dramRead false (paOff pa) s).2 := by
  rw [exec_dramRead, execDramRead, classify_dram hd (lt_dramSpace_of_installed hi hu)]
  simp only [hi, if_true]

/-! ## The patrol (17 R420) -/

theorem patrolPtr_installed {m : Fin 8} {s : State} (h : installed s (smGet 0 s.dram.patrol m.val) = true) :
    patrolPtr m s = smGet 0 s.dram.patrol m.val := if_pos h

/-- A block that lies on the channel is itself the first from it on. -/
theorem nextBlock_self {s : State} {m : Fin 8} {b : Nat} (h : onChannel s m b = true) : nextBlock s m b = some b := by
  simp [nextBlock, List.range_succ_eq_map, h]

theorem patrolAt_clean {m : Fin 8} {o : Nat} {s : State} (h : syndrome (smGet dramDefault s.dram.words (o / 8)) = .clean) :
    patrolAt m o s = patrolPast m o s := by
  rw [patrolAt, dramRead_clean s true o h]

theorem patrolPast_pointer (m : Fin 8) (o : Nat) (s : State) : smGet 0 (patrolPast m o s).dram.patrol m.val = o + 8 :=
  smGet_smPut_same_of_ne _ _ (Nat.succ_ne_zero _)

/-- The patrol at a word of its channel reads that word. -/
theorem patrolRead_here {m : Fin 8} {s : State} (hi : installed s (smGet 0 s.dram.patrol m.val) = true)
    (hc : onChannel s m (smGet 0 s.dram.patrol m.val / 512) = true) :
    exec (.patrolRead m) s = .next (patrolAt m (smGet 0 s.dram.patrol m.val) s) := by
  rw [exec_patrolRead, execPatrolRead, patrolPtr_installed hi, nextBlock_self hc, patrolNext, if_pos rfl]

/-! ## Refresh and drift tracking (17 R417, R419) -/

theorem refresh_due {s : State} {q : Fin 16} (h : smGet 0 s.dram.refreshed q.val + refreshInterval s q ≤ s.now) :
    exec (.refresh q) s = .next { s with dram := { s.dram with refreshed := smPut 0 s.dram.refreshed q.val s.now } } := by
  rw [exec_refresh, execRefresh, if_pos h]

theorem refreshInterval_pos (s : State) (q : Fin 16) : 0 < refreshInterval s q := by
  unfold refreshInterval
  split <;> omega

theorem driftTracking_due {s : State} {q : Fin 16} (hr : s.pins.ready = true) (h : smGet 0 s.dram.drift q.val + 1000000 ≤ s.now) :
    exec (.driftTracking q) s = .next { s with dram := { s.dram with drift := smPut 0 s.dram.drift q.val s.now } } := by
  rw [exec_driftTracking, execDriftTracking, if_pos ⟨hr, h⟩]

/-- Settles O35: a clean read leaves the state alone; a pointer behind a word, and a time at which an interval has passed, are never
0, the default of the map that keeps them, so they are read back also where its keys are out of order. -/
theorem memoryEvents : Obligations.MemoryEvents := by
  intro pa m q s o p
  refine ⟨fun hd ho hu hclean => ?_, fun hi hc hclean => ?_, fun hdue => ?_, fun hready hdue => ?_⟩
  · rw [dramRead_event hd (decide_eq_true ho) hu, dramRead_clean s false o hclean]
  · refine ⟨patrolPast m p s, ?_, patrolPast_pointer m p s, rfl, rfl⟩
    rw [patrolRead_here hi hc, patrolAt_clean hclean]
  · have hpos := refreshInterval_pos s q
    have hdue' : smGet 0 s.dram.refreshed q.val + refreshInterval s q ≤ s.now := hdue
    exact ⟨_, refresh_due hdue', smGet_smPut_same_of_ne _ _ (by omega)⟩
  · exact ⟨_, driftTracking_due hready hdue, smGet_smPut_same_of_ne _ _ (by omega)⟩

end Sys2Proof.Machine
end

section
/-! PROOFS. Core state at reset (03 Tables 3.3, 3.5, 3.9) and the reset values of the other units. -/

namespace Sys2Proof.Machine

/-! ## Units at reset: each copy of a unit stands at that unit's own reset value -/

theorem getCore_reset (c : CoreId) : getCore State.reset c = Core.reset := Vector.getElem_replicate _

theorem getCl_reset (k : ClusterId) : getCl State.reset k = Cluster.reset := Vector.getElem_replicate _

theorem l2Of_reset (k : ClusterId) : l2Of State.reset k = L2.reset := by
  rw [l2Of, getCl_reset]
  rfl

theorem getComp_reset (p : CompId) : getComp State.reset p = Comp.reset := Vector.getElem_replicate _

theorem getChan_reset (n : ChanId) : getChan State.reset n = Channel.reset := Vector.getElem_replicate _

theorem getTimer_reset (x : TimerId) : getTimer State.reset x = Timer.reset := Vector.getElem_replicate _

theorem regOf_reset (b : Fin 8) (r : Reg) (h : r ≠ 0) : regOf Core.reset b r = ⟨0x07, 0⟩ := by
  have hb : bankOf Core.reset b = Bank.reset := Vector.getElem_replicate _
  rw [regOf, if_neg h, hb]
  exact Vector.getElem_replicate _

/-! ## Memory that nothing has written (02 R42) -/

theorem dramDefault_clean : syndrome dramDefault = .clean := by decide +kernel

theorem dramRead_unwritten (s : State) (patrol : Bool) (off : Nat) (h : s.dram.words = []) :
    (dramRead patrol off s).1 = ⟨0x07, 0⟩ := by
  have hd : smGet dramDefault s.dram.words (off / 8) = dramDefault := by rw [h]; rfl
  rw [dramRead_clean s patrol off (by rw [hd]; exact dramDefault_clean), hd]
  rfl

/-- Settles O4: the units are read at their own reset values, whose fields are the values claimed. -/
theorem resetValues : Obligations.ResetValues := by
  intro c k p n x r b
  simp only
  rw [getCore_reset, l2Of_reset, getComp_reset, getChan_reset, getTimer_reset]
  exact ⟨rfl, rfl, rfl, rfl, rfl, rfl, rfl, rfl, rfl, regOf_reset b r, rfl, rfl, rfl, rfl, rfl, rfl, rfl, rfl, rfl, rfl, rfl,
    rfl, rfl, rfl, rfl, rfl, rfl, rfl, dramRead_unwritten _ _ _ rfl⟩

end Sys2Proof.Machine
end

section
/-! PROOFS. Control registers (03 R66 to R76): what passes the decode check of `MTC`, what a write leaves in the core, and how a
`STATUS` that was written comes into force. -/

namespace Sys2Proof.Machine

/-! ## The decode check (09 R262) -/

theorem cm_bind_ok {α β : Type} {m : CM α} {f : α → CM β} {s t : State} {b : β} (h : (m >>= f) s = .ok b t) :
    ∃ a u, m s = .ok a u ∧ f a u = .ok b t := by
  rw [cm_bind] at h
  cases hm : m s with
  | ok a u => rw [hm] at h; exact ⟨a, u, rfl, h⟩
  | error e u => rw [hm] at h; cases h

/-- An illegal instruction raises its exception, marked as a repeat pair's or not. -/
theorem illegal_raises (c : CoreId) (sub : Byte) (w : BitVec 32) (pair : Bool) (s t : State) :
    (if pair = true then inRep (raise c 0x02 sub 0 (w.setWidth 64)) else raise c 0x02 sub 0 (w.setWidth 64) : CM Unit) s ≠ .ok () t := by
  intro h
  cases pair with
  | false => cases h
  | true => cases h

theorem legal_of_decodeChecks {c : CoreId} {i : Instr} {s t : State} (h : decodeChecks c i s = .ok () t) :
    illegalInstr (repOf i) i = none := by
  cases hi : illegalInstr (repOf i) i with
  | none => rfl
  | some e =>
    unfold decodeChecks at h
    simp only [hi] at h
    obtain ⟨_, _, -, h⟩ := cm_bind_ok h
    obtain ⟨_, _, -, h⟩ := cm_bind_ok h
    split at h
    · obtain ⟨_, _, -, h⟩ := cm_bind_ok h
      exact absurd h (illegal_raises _ _ _ _ _ _)
    · exact absurd h (illegal_raises _ _ _ _ _ _)

/-- An instruction that a core takes is no illegal one. -/
theorem legal_of_takes {c : CoreId} {i : Instr} {s s1 : State} (h : Takes c i s s1) : illegalInstr (repOf i) i = none := by
  obtain ⟨_, -, -, hd, -, -, -⟩ := h
  exact legal_of_decodeChecks hd

theorem checkWord_of_legal {w : BitVec 32} (h : illegalOf w 0 = none) : checkWord w = none := by
  unfold illegalOf at h
  cases hc : checkWord w with
  | none => rfl
  | some sub =>
    rw [hc] at h
    simp only at h
    split at h
    · cases h
    · cases h

theorem iwS_toNat (gd ga : Reg) (sf n : Nat) (hs : sf < 16) (hn : n < 4096) :
    (iwS gd ga sf n).toNat = gd.val * 2 ^ 21 + ga.val * 2 ^ 16 + sf * 2 ^ 12 + n := by
  rw [iwS, iw, BitVec.toNat_ofNat]
  omega

/-- `MTC` of a number that no register has, or of a register that it may not write, fails its decode check (03 R66, 04 R90). -/
theorem checkWord_mtc_refused {ga : Reg} {n : Nat} (hn : n < 4096) (hbad : (!ctlNumbers.contains n || ctlReadOnly.contains n) = true) :
    checkWord (iwS 0 ga 5 n) = some 0x05 := by
  have hw := iwS_toNat 0 ga 5 n (by omega) hn
  have hop : (iwS 0 ga 5 n).toNat / 2 ^ 26 = 0x00 := by rw [hw]; omega
  have hsf : (iwS 0 ga 5 n).toNat % 2 ^ 16 / 2 ^ 12 = 5 := by rw [hw]; omega
  have hnum : (iwS 0 ga 5 n).toNat % 2 ^ 16 % 2 ^ 12 = n := by rw [hw]; omega
  simp only [checkWord, hop, hsf, hnum]
  rw [if_pos trivial, if_neg (by omega), if_pos ⟨.inr trivial, hbad⟩]

/-- The registers that `MTC` may write (03 R66, Table 3.4). -/
def mtcNumbers : List Nat := ctlNumbers.filter fun m => !ctlReadOnly.contains m

theorem mtc_writable {c : CoreId} {n : BitVec 12} {ga : Reg} {s s1 : State} (h : Takes c (.mtc c n ga) s s1) :
    mtcNumbers.contains n.toNat = true := by
  have hc : checkWord (iwS 0 ga 5 n.toNat) = none := checkWord_of_legal (legal_of_takes h)
  have hgood : ¬ (!ctlNumbers.contains n.toNat || ctlReadOnly.contains n.toNat) = true := fun hbad => by
    rw [checkWord_mtc_refused n.isLt hbad] at hc
    cases hc
  simpa [mtcNumbers] using hgood

/-! ## Privilege (04 R92) -/

/-- The exception that a privileged instruction raises in user mode. -/
def privilegeExc (k : Core) (i : Instr) : ExcArgs :=
  { vec := 0x03, sub := 0, epc := k.pc, eaddr := 0, einfo := einfoWord i, impr := false, inrep := false }

theorem sysOnly_sys {c : CoreId} {i : Instr} {s : State} (h : isSys (getCore s c) = true) : sysOnly c i s = .ok () s := by
  simp [sysOnly, h]

theorem sysOnly_user {c : CoreId} {i : Instr} {s : State} (h : isSys (getCore s c) = false) :
    sysOnly c i s = .error (.exc (privilegeExc (getCore s c) i)) s := by
  simp [sysOnly, h, privilegeExc]

/-! ## `MFC` (03 R66, R67) -/

section

variable {c : CoreId} {gd : Reg} {n : BitVec 12} {s s1 : State}

theorem mfc_open (h : Takes c (.mfc c gd n) s s1) (ho : isSys (getCore s1 c) = true ∨ userReadable.contains n.toNat = true) :
    exec (.mfc c gd n) s = .next (advanced c (.mfc c gd n) {} (withReg c gd (ctlRead s1 c n.toNat) s1)) := by
  have hopen : (!isSys (getCore s1 c) && !userReadable.contains n.toNat) = false := by
    rcases ho with h | h <;> rw [h] <;> simp
  have hb : bodyMfc c gd n s1 = .ok {} (withReg c gd (ctlRead s1 c n.toNat) s1) := by
    simp only [bodyMfc, cm_thenNext, cm_bind, cm_cget, hopen, Bool.false_eq_true, if_false, cm_sget, cm_setReg, withReg]
  exact issue_plain h hb (withReg_st ..)

theorem mfc_closed (h : Takes c (.mfc c gd n) s s1) (hu : isSys (getCore s1 c) = false) (hc : userReadable.contains n.toNat = false) :
    exec (.mfc c gd n) s = .next (raiseAt c (privilegeExc (getCore s1 c) (.mfc c gd n)) s1) := by
  refine issue_exc h ?_
  simp only [bodyMfc, cm_thenNext, cm_bind, cm_cget, hu, hc, Bool.not_false, Bool.and_true, if_true, sysOnly_user hu]

end

/-! ## What a write leaves in the core -/

section

variable (k : Core) (v : W64) (w : Word)

@[simp] theorem bankwinWrite_st : (bankwinWrite k v).st = k.st := by
  unfold bankwinWrite
  split <;> rfl

@[simp] theorem ipendWrite_st : (ipendWrite k v).st = k.st := rfl

@[simp] theorem irouteWrite_st : (irouteWrite k v).st = k.st := by
  simp only [irouteWrite]
  split <;> rfl

/-- A register other than `STATUS` leaves `STATUS` alone. -/
@[simp] theorem ctlWrite_st (n : Nat) : (ctlWrite k n w).st = k.st := by
  unfold ctlWrite
  split <;> simp [apply_ite Core.st]

theorem ctlWrite_lsp (a : Fin 8) :
    ctlWrite k (0x008 + a.val) w = { k with mmu := { k.mmu with lsp := k.mmu.lsp.set a.val w } } :=
  match a with
  | 0 | 1 | 2 | 3 | 4 | 5 | 6 | 7 => rfl

theorem ctlTagged_lsp : ∀ a : Fin 8, ctlTagged (0x008 + a.val) = true := by decide

theorem ctlWrite_alarm (a : Fin 4) :
    ctlWrite k (0x051 + a.val) w = { k with alarm := k.alarm.set a.val (w.payload &&& 0x7FFFFFFFFFFFFFFF) } :=
  match a with
  | 0 | 1 | 2 | 3 => rfl

end

/-! ## The operation that `MTC` and its five rows share (log 6) -/

/-- 03 R67: a tagged register takes any word, another one a word that may be consumed. -/
def MtcOperand (n : Nat) (w : Word) : Prop := ctlTagged n = true ∨ plainWord w = true

section

variable {c : CoreId} {i : Instr} {n : Nat} {ga : Reg} {s s1 : State}

theorem mtcOp_user (hu : isSys (getCore s c) = false) (hn : n ≠ 0) :
    mtcOp c i n ga s = .error (.exc (privilegeExc (getCore s c) i)) s := by
  simp [mtcOp, hu, hn, sysOnly_user hu]

theorem mtcOp_status (hw : plainWord (opnd s c ga) = true) :
    mtcOp c i 0 ga s = .ok { status := some (statusWrite (getCore s c) (opnd s c ga).payload) } s := by
  have ht : ctlTagged 0 = false := rfl
  simp [mtcOp, ht, consume_ok c s (gread (getCore s c) ga) 0 hw, opnd]

theorem mtcOp_sys (hs : isSys (getCore s c) = true) (hn : n ≠ 0) (hw : MtcOperand n (opnd s c ga)) :
    mtcOp c i n ga s =
      .ok { count := if n = 0x060 ∨ n = 0x061 then 0 else 1 } (modCore s c fun k => ctlWrite k n (opnd s c ga)) := by
  cases ht : ctlTagged n with
  | true => simp [mtcOp, hs, hn, ht, opnd]
  | false =>
    have hplain : plainWord (gread (getCore s c) ga) = true := hw.resolve_left (by simp [ht])
    simp [mtcOp, hs, hn, ht, consume_ok c s _ 0 hplain, opnd]

/-- The whole next state of a write in system mode; `f` says what the write makes of the core. -/
theorem issue_mtcOp {f : Core → Core} (h : Takes c i s s1) (hs : isSys (getCore s1 c) = true) (hn : n ≠ 0)
    (hw : MtcOperand n (opnd s1 c ga)) (hf : ctlWrite (getCore s1 c) n (opnd s1 c ga) = f (getCore s1 c)) :
    issue c i (mtcOp c i n ga) s = .next (advanced c i { count := if n = 0x060 ∨ n = 0x061 then 0 else 1 } (modCore s1 c f)) := by
  rw [← modCore_congr s1 c (fun k => ctlWrite k n (opnd s1 c ga)) f hf]
  exact issue_plain h (mtcOp_sys hs hn hw) (by rw [getCore_modCore, ctlWrite_st])

end

section

variable {c : CoreId} {n : BitVec 12} {ga : Reg} {s s1 : State}

theorem mtc_sys {m : Nat} {f : Core → Core} (h : Takes c (.mtc c n ga) s s1) (hs : isSys (getCore s1 c) = true)
    (hw : MtcOperand m (opnd s1 c ga)) (hm : m ≠ 0 ∧ m ≠ 0x060 ∧ m ≠ 0x061)
    (hf : ctlWrite (getCore s1 c) m (opnd s1 c ga) = f (getCore s1 c)) (hn : n.toNat = m) :
    exec (.mtc c n ga) s = .next (advanced c (.mtc c n ga) {} (modCore s1 c f)) := by
  subst hn
  obtain ⟨h0, hcount⟩ := hm
  refine (issue_mtcOp h hs h0 hw hf).trans ?_
  rw [if_neg (not_or.mpr hcount)]

theorem mtc_user (h : Takes c (.mtc c n ga) s s1) (hu : isSys (getCore s1 c) = false) (hn : n ≠ 0) :
    exec (.mtc c n ga) s = .next (raiseAt c (privilegeExc (getCore s1 c) (.mtc c n ga)) s1) :=
  issue_exc h (mtcOp_user hu fun h0 => hn (BitVec.eq_of_toNat_eq h0))

end

/-! ## The shadow of `STATUS` (03 R73) -/

/-- An instruction that is taken has neither a single step nor a mode shadow in force. -/
theorem takes_quiet {c : CoreId} {i : Instr} {s s1 : State} (h : Takes c i s s1) :
    stSSTEP (getCore s1 c) = false ∧ (getCore s1 c).st.shadow = [] := by
  obtain ⟨_, -, -, -, hstep, hshadow, -⟩ := h
  exact ⟨hstep, hshadow⟩

theorem advanced_status {c : CoreId} {i : Instr} {v : W64} {s : State} (hd : stDET (getCore s c) = false)
    (hh : (getCore s c).st.shadow = []) :
    (getCore (advanced c i { status := some v } s) c).st = { newest := v, force := (getCore s c).st.force, shadow := [(3, v)] } := by
  simp only [advanced, hd, Bool.false_eq_true, if_false, getCore_modCore, statusSet]
  simp [endMicro, hh]

/-- An instruction that ends in the shadow and is not the last of it. -/
theorem ageShadow_st_of_lasting (a : Core) (v f : W64) (n : Nat) (h : a.st = { newest := v, force := f, shadow := [(n + 2, v)] }) :
    (ageShadow a).st = { newest := v, force := f, shadow := [(n + 1, v)] } := by
  simp [ageShadow, h]

theorem putForce_st (k : Core) (v : W64) : (putForce k v).st = { k.st with force := v } := by
  simp only [putForce]
  split <;> rfl

/-- The last instruction of the shadow brings the written value into force. -/
theorem ageShadow_st_of_last (a : Core) (v f : W64) (h : a.st = { newest := v, force := f, shadow := [(1, v)] }) :
    (ageShadow a).st = { newest := v, force := v, shadow := [] } := by
  simp [ageShadow, h, putForce_st]

/-- Settles O22: `MFC` by what is open to it; `MTC` by the operation of system mode, one register after the other; and the shadow by
its three instructions. -/
theorem controlRegisters : Obligations.ControlRegisters := by
  refine ⟨fun c gd n s s1 h => ⟨mfc_open h, mfc_closed h⟩, ?_, ?_⟩
  · intro c ga n s s1 k w v i Puts b written h
    have put {m : BitVec 12} {f : Core → Core} (hs : isSys k = true) (hw : MtcOperand m.toNat w)
        (hm : m.toNat ≠ 0 ∧ m.toNat ≠ 0x060 ∧ m.toNat ≠ 0x061) (hf : ctlWrite k m.toNat w = f k) (e : n = m) : Puts f :=
      mtc_sys h hs hw hm hf (congrArg BitVec.toNat e)
    refine ⟨fun hs hw => ?_, mtc_writable h, fun hs => ?_, fun hu hn => mtc_user h hu hn⟩
    · have raw {m : BitVec 12} {f : Core → Core} := put (m := m) (f := f) hs (.inr hw)
      exact ⟨raw (by decide) rfl, raw (by decide) rfl, raw (by decide) rfl, raw (by decide) rfl, raw (by decide) rfl, raw (by decide) rfl,
        raw (by decide) rfl, raw (by decide) rfl, raw (by decide) rfl, raw (by decide) rfl, raw (by decide) rfl, raw (by decide) rfl,
        raw (by decide) rfl, raw (by decide) rfl, raw (by decide) rfl, raw (by decide) rfl,
        fun a => mtc_sys h hs (.inr hw) (by omega) (ctlWrite_alarm k w a),
        fun e => by subst e; exact issue_mtcOp h hs (by decide) (.inr hw) rfl,
        fun e => by subst e; exact issue_mtcOp h hs (by decide) (.inr hw) rfl⟩
    · exact ⟨put hs (.inl rfl) (by decide) rfl, fun a => mtc_sys h hs (.inl (ctlTagged_lsp a)) (by omega) (ctlWrite_lsp k w a),
        put hs (.inl rfl) (by decide) rfl, put hs (.inl rfl) (by decide) rfl⟩
  · intro c ga s s1 k i m v hw h
    obtain ⟨hstep, hshadow⟩ := takes_quiet h
    refine ⟨issue_taken h (mtcOp_status hw) hstep hshadow, fun hd => advanced_status hd hshadow, fun a ha => ?_⟩
    have h2 := ageShadow_st_of_lasting a v k.st.force 1 ha
    have h1 := ageShadow_st_of_lasting _ v k.st.force 0 h2
    exact ⟨h2, h1, ageShadow_st_of_last _ v k.st.force h1⟩

end Sys2Proof.Machine
end

section
/-! PROOFS. The bank window (03 R77, R78) and the write-one fields of the interrupt registers (09 R247, R248). -/

namespace Sys2Proof.Machine

/-! ## `MFB` and `MTB` -/

section

variable {c : CoreId} {gd r ga : Reg} {s s1 : State}

theorem mfb_sys (h : Takes c (.mfb c gd r) s s1) (hs : isSys (getCore s1 c) = true) :
    exec (.mfb c gd r) s = .next (advanced c (.mfb c gd r) {}
      (withReg c gd (regOf (getCore s1 c) (Fin.ofNat 8 (getCore s1 c).bw.bank.toNat) r) s1)) := by
  have hb : bodyMfb c gd r s1 = .ok {} (withReg c gd (regOf (getCore s1 c) (Fin.ofNat 8 (getCore s1 c).bw.bank.toNat) r) s1) := by
    simp only [bodyMfb, cm_thenNext, cm_bind, sysOnly_sys hs, cm_cget, cm_setReg, withReg]
  exact issue_plain h hb (withReg_st ..)

theorem mfb_user (h : Takes c (.mfb c gd r) s s1) (hu : isSys (getCore s1 c) = false) :
    exec (.mfb c gd r) s = .next (raiseAt c (privilegeExc (getCore s1 c) (.mfb c gd r)) s1) := by
  refine issue_exc h ?_
  simp only [bodyMfb, cm_thenNext, cm_bind, sysOnly_user hu]

theorem mtb_sys (h : Takes c (.mtb c r ga) s s1) (hs : isSys (getCore s1 c) = true) {b : Fin 8}
    (hb : Fin.ofNat 8 (getCore s1 c).bw.bank.toNat = b) :
    exec (.mtb c r ga) s = .next (advanced c (.mtb c r ga) {} (modCore s1 c fun k => setRegOf k b r (opnd s1 c ga))) := by
  have hbody : bodyMtb c r ga s1 = .ok {} (modCore s1 c fun k => setRegOf k b r (opnd s1 c ga)) := by
    simp only [bodyMtb, cm_thenNext, cm_bind, sysOnly_sys hs, cm_reg, cm_cmod]
    exact congrArg _ (modCore_congr s1 c _ _ (by rw [hb]; rfl))
  exact issue_plain h hbody (by rw [getCore_modCore, setRegOf_st])

theorem mtb_user (h : Takes c (.mtb c r ga) s s1) (hu : isSys (getCore s1 c) = false) :
    exec (.mtb c r ga) s = .next (raiseAt c (privilegeExc (getCore s1 c) (.mtb c r ga)) s1) := by
  refine issue_exc h ?_
  simp only [bodyMtb, cm_thenNext, cm_bind, sysOnly_user hu]

end

/-! ## The fields of `BANKWIN`, `IPEND` and `IROUTE` (Table 3.7, 09 Tables 9.8, 9.9) -/

theorem ofNat_fld_extract {m : Nat} (v : BitVec m) (lo len : Nat) : BitVec.ofNat len (fld v lo len) = v.extractLsb' lo len := by
  apply BitVec.eq_of_toNat_eq
  simp [fld, BitVec.extractLsb'_toNat]

/-- The levels of the sources after a write of `IROUTE` (09 R248). -/
def routed (m : SMap (BitVec 3)) (v : W64) : SMap (BitVec 3) :=
  if v.getLsbD 15 ∧ 0x40 ≤ v.toNat % 256 then smPut 0 m (v.toNat % 256) (BitVec.ofNat 3 (v.toNat / 256)) else m

section

variable (k : Core) (v : W64)

theorem bankwinWrite_eq : bankwinWrite k v =
    let j := { k with bw := { bank := BitVec.ofNat 3 (v.toNat % 8), dspw := v.getLsbD 3 } }
    if v.getLsbD 5 = v.getLsbD 6 then j else modBank j (Fin.ofNat 8 (v.toNat % 8)) fun x => { x with dbusy := v.getLsbD 5 } := by
  simp only [bankwinWrite, beq_iff_eq]
  rfl

theorem ipendWrite_eq : ipendWrite k v = { k with irq := { k.irq with
    swi := (k.irq.swi ||| v.extractLsb' 16 3) &&& ~~~(v.extractLsb' 20 3), alm := k.irq.alm &&& ~~~(v.extractLsb' 24 4) } } := by
  simp only [ipendWrite, ofNat_fld_extract]

theorem irouteWrite_eq : irouteWrite k v =
    { k with irq := { k.irq with src := BitVec.ofNat 8 (v.toNat % 256), level := routed k.irq.level v } } := by
  have hsrc : fld v 0 8 = v.toNat % 256 := rfl
  have hlvl : BitVec.ofNat 3 (fld v 8 3) = BitVec.ofNat 3 (v.toNat / 256) := by
    apply BitVec.eq_of_toNat_eq
    simp [fld, Nat.shiftRight_eq_div_pow]
  simp only [irouteWrite, hsrc, hlvl, routed, bit]
  split <;> rfl

end

section

variable {m : SMap (BitVec 3)} {v : W64}

theorem smGet_routed_self (hm : smWf 0 m = true) (hw : v.getLsbD 15 = true) (hs : 0x40 ≤ v.toNat % 256) :
    smGet 0 (routed m v) (v.toNat % 256) = BitVec.ofNat 3 (v.toNat / 256) := by
  rw [smWf, Bool.and_eq_true] at hm
  obtain ⟨hsorted, -⟩ := hm
  rw [routed, if_pos ⟨hw, hs⟩, smGet_smPut _ hsorted, if_pos rfl]

theorem smGet_routed_other (hm : smWf 0 m = true) {j : Nat}
    (h : j ≠ v.toNat % 256 ∨ v.getLsbD 15 = false ∨ v.toNat % 256 < 0x40) : smGet 0 (routed m v) j = smGet 0 m j := by
  rw [smWf, Bool.and_eq_true] at hm
  obtain ⟨hsorted, -⟩ := hm
  rw [routed]
  split
  next hr =>
    obtain ⟨hw, hs⟩ := hr
    have hj : j ≠ v.toNat % 256 := h.resolve_right (by simp [hw]; omega)
    rw [smGet_smPut _ hsorted, if_neg hj]
  next => rfl

end

/-! ## The five rows are writes of `MTC` (log 6) -/

theorem bit_of_extract_ne_zero {v : W64} {lo : Nat} (h : v.extractLsb' lo 3 ≠ 0) :
    (v.getLsbD lo || v.getLsbD (lo + 1) || v.getLsbD (lo + 2)) = true := by
  cases hb : (v.getLsbD lo || v.getLsbD (lo + 1) || v.getLsbD (lo + 2)) with
  | true => rfl
  | false =>
    simp only [Bool.or_eq_false_iff] at hb
    obtain ⟨⟨h0, h1⟩, h2⟩ := hb
    refine absurd (BitVec.eq_of_getLsbD_eq fun j hj => ?_) h
    have hj3 : j = 0 ∨ j = 1 ∨ j = 2 := by omega
    rcases hj3 with rfl | rfl | rfl
    · simp [h0]
    · simp [h1]
    · simp [h2]

section

variable {c : CoreId} {ga : Reg} {s s1 : State} (ho : opnd s c ga = opnd s1 c ga)
include ho

theorem writesBit_opnd (j : Nat) : writesBit s c ga j = (opnd s1 c ga).payload.getLsbD j := by
  rw [← ho]
  rfl

theorem exec_wdset_mtcOp (h : (opnd s1 c ga).payload.getLsbD 5 = true) :
    exec (.wdset c ga) s = issue c (.wdset c ga) (mtcOp c (.wdset c ga) 0x010 ga) s := by
  rw [exec_wdset, execWdset, writesBit_opnd ho, if_pos h, bodyWdset]

theorem exec_wdclr_mtcOp (h : (opnd s1 c ga).payload.getLsbD 6 = true) :
    exec (.wdclr c ga) s = issue c (.wdclr c ga) (mtcOp c (.wdclr c ga) 0x010 ga) s := by
  rw [exec_wdclr, execWdclr, writesBit_opnd ho, if_pos h, bodyWdclr]

theorem exec_irouteWr_mtcOp (h : (opnd s1 c ga).payload.getLsbD 15 = true) :
    exec (.irouteWr c ga) s = issue c (.irouteWr c ga) (mtcOp c (.irouteWr c ga) 0x012 ga) s := by
  rw [exec_irouteWr, execIrouteWr, writesBit_opnd ho, if_pos h, bodyIrouteWr]

theorem exec_swi_mtcOp (h : (opnd s1 c ga).payload.extractLsb' 16 3 ≠ 0) :
    exec (.swi c ga) s = issue c (.swi c ga) (mtcOp c (.swi c ga) 0x011 ga) s := by
  rw [exec_swi, execSwi]
  simp only [writesBit_opnd ho]
  rw [if_pos (bit_of_extract_ne_zero h), bodySwi]

theorem exec_swclr_mtcOp (h : (opnd s1 c ga).payload.extractLsb' 20 3 ≠ 0) :
    exec (.swclr c ga) s = issue c (.swclr c ga) (mtcOp c (.swclr c ga) 0x011 ga) s := by
  rw [exec_swclr, execSwclr]
  simp only [writesBit_opnd ho]
  rw [if_pos (bit_of_extract_ne_zero h), bodySwclr]

end

/-- Settles O23: whichever row it comes by, a write of one of the three registers is the operation that `MTC` has, and makes of the
core what the register's equation says. -/
theorem bankWindowAndInterrupts : Obligations.BankWindowAndInterrupts := by
  refine ⟨fun c gd r ga s s1 => ?_, fun c ga s s1 => ?_⟩
  · intro k b v Puts
    have puts {i : Instr} (hs : isSys k = true) (hw : plainWord (opnd s1 c ga) = true)
        (hi : exec i s = issue c i (mtcOp c i 0x010 ga) s) : Puts i := fun h =>
      hi.trans (issue_mtcOp h hs (by decide) (.inr hw) (bankwinWrite_eq k v))
    refine ⟨fun hs => ⟨fun h => mfb_sys h hs, fun h => mtb_sys h hs rfl, fun hw => ⟨puts hs hw rfl, fun ho => ?_⟩⟩,
      fun hu h => mfb_user h hu, fun hu h => mtb_user h hu⟩
    exact ⟨fun h5 => puts hs hw (exec_wdset_mtcOp ho h5), fun h6 => puts hs hw (exec_wdclr_mtcOp ho h6)⟩
  · intro k v src Routes Pends hs hw hm
    have routes {i : Instr} (hi : exec i s = issue c i (mtcOp c i 0x012 ga) s) : Routes i := fun h =>
      ⟨routed k.irq.level v, hi.trans (issue_mtcOp h hs (by decide) (.inr hw) (irouteWrite_eq k v)),
        smGet_routed_self hm, fun _ => smGet_routed_other hm⟩
    have pends {i : Instr} (hi : exec i s = issue c i (mtcOp c i 0x011 ga) s) : Pends i := fun h =>
      hi.trans (issue_mtcOp h hs (by decide) (.inr hw) (ipendWrite_eq k v))
    exact ⟨routes rfl, pends rfl, fun ho => ⟨fun h15 => routes (exec_irouteWr_mtcOp ho h15),
      fun h16 => pends (exec_swi_mtcOp ho h16), fun h20 => pends (exec_swclr_mtcOp ho h20)⟩⟩

end Sys2Proof.Machine
end

section
/-! PROOFS. The cores' side of memory (06 R159, R161, R173, 10 R273, 12 R309): answers that reach a waiting core, line misses and the
store queue. -/

namespace Sys2Proof.Machine

/-! ## The end of a wait (06 R161) -/

section

variable {c : CoreId} {i : Instr} {w : WaitFor} {s : State}

theorem waitOf_of_wait (h : (getCore s c).wait = some { what := w, resume := .instr i }) : waitOf s c = some w := by
  rw [waitOf, h]
  rfl

theorem waitOf_of_idle (h : (getCore s c).wait = none) : waitOf s c = none := by
  rw [waitOf, h]
  rfl

theorem runAgain_instr (h : (getCore s c).wait = some { what := w, resume := .instr i }) :
    runAgain c s = finish c i (bodyOf i) (modCore s c fun k =>
      { k with wait := none, replay := { k.replay with seen := 0 } }) := by
  simp only [runAgain, h]

/-- A wait that may not be abandoned is ended by no cause. -/
theorem takeDue_of_kept (h : (getCore s c).wait = some { what := w, resume := .instr i }) (ha : abandonable (getCore s c) = false) :
    takeDue c s = none := by
  simp [takeDue, h, ha]

/-- What comes of the end of a wait: the cause that is due and may end it, else the instruction runs again. -/
theorem resumeCore_instr (h : (getCore s c).wait = some { what := w, resume := .instr i }) :
    resumeCore c s = (takeDue c s).getD (finish c i (bodyOf i) (modCore s c fun k =>
      { k with wait := none, replay := { k.replay with seen := 0 } })) := by
  rw [resumeCore, runAgain_instr h]
  cases ha : abandonable (getCore s c) with
  | true => rfl
  | false => rw [takeDue_of_kept h ha]; rfl

end

/-- The instruction `i` of core `c`, which waits, goes on by the event `ev` in state `v`, which holds the answer. -/
theorem exec_of_resumeCore {c : CoreId} {i ev : Instr} {w : WaitFor} {s v : State} (hev : exec ev s = .next (resumeCore c v))
    (hv : (getCore v c).wait = some { what := w, resume := .instr i }) :
    (takeDue c v = none → exec ev s = .next (finish c i (bodyOf i) (modCore v c fun k =>
        { k with wait := none, replay := { k.replay with seen := 0 } })))
    ∧ (∀ t, takeDue c v = some t → exec ev s = .next t) := by
  rw [resumeCore_instr hv] at hev
  exact ⟨fun hn => by rw [hev, hn]; rfl, fun t ht => by rw [hev, ht]; rfl⟩

/-! ## Answers (06 R159, R173) -/

@[simp] theorem withAnswers_wait (c : CoreId) (r : Replay) (s : State) : (getCore (withAnswers c r s) c).wait = (getCore s c).wait := by
  simp [withAnswers]

theorem withAnswers_id (c : CoreId) (s : State) : withAnswers c (getCore s c).replay s = s := modCore_id s c _ rfl

/-- The only answer, of the kind that is looked for. -/
theorem takeAnswer_sole {s : State} {c : CoreId} {a : Answer} {p : Answer → Bool} (h : s.answers = [(c, a)]) (hp : p a = true) :
    takeAnswer s c p = some (a, { s with answers := [] }) := by
  simp [takeAnswer, h, hp]

section

variable {c : CoreId} {i : Instr} {s : State}

theorem markBufferRoom_resumes (hw : waitOf s c = some .markRoom) (hm : (getCore s c).mark.length < 16) :
    exec (.markBufferRoom c) s = .next (resumeCore c s) := by
  rw [exec_markBufferRoom, execMarkBufferRoom, if_pos ⟨hw, hm⟩]

theorem microAsked_idle (t : W64) (h : (getCore s c).micro.run = none) : microAsked s c t = false := by
  rw [microAsked, h]

theorem microCard_idle (pa : BitVec 44) (h : (getCore s c).micro.run = none) : microCard s c pa = false := by
  rw [microCard, h]

/-- What comes of an answer to a `Forward`, by who waits for it. -/
theorem forwardReply_sole {t : W64} {n : Option W64} (h : s.answers = [(c, .fwd t n)]) :
    exec (.forwardReply c) s =
      let u := { s with answers := [] }
      let v := withAnswers c { (getCore s c).replay with fwd := (getCore s c).replay.fwd ++ [(t, n)] } u
      if waitOf s c = some (.forward t) then .next (resumeCore c v) else if microAsked u c t then .next v else .next u := by
  rw [exec_forwardReply, execForwardReply, takeAnswer_sole h rfl]
  rfl

/-- What comes of an answer to a card request, by who waits for it. -/
theorem cardCheckReply_sole {pa : BitVec 44} {ok : Bool} (h : s.answers = [(c, .card pa ok)]) :
    exec (.cardCheckReply c) s =
      let u := { s with answers := [] }
      let v := withAnswers c { (getCore s c).replay with cards := (getCore s c).replay.cards ++ [(pa.toNat / 512, ok)] } u
      if waitOf s c = some (.card pa) then .next (resumeCore c v) else if microCard u c pa then .next v else .next u := by
  rw [exec_cardCheckReply, execCardCheckReply, takeAnswer_sole h rfl]
  rfl

end

/-! ## Line misses and the store queue (12 R309, 10 R273) -/

section

variable {c : CoreId} {s : State}

theorem drainOne_nil (h : (getCore s c).sq = []) : drainOne s c = s := by
  rw [drainOne, h]

theorem drainOne_cons {e : SqEntry} {r : List SqEntry} (h : (getCore s c).sq = e :: r) :
    drainOne s c = performWrites (modCore s c fun k => { k with sq := r }) c e.mt e.user e.writes := by
  rw [drainOne, h]

/-- Whether an access is performed does not depend on what a core holds. -/
theorem localOk_modCore (d : CoreId) (f : Core → Core) (comp : BitVec 4) (pa : BitVec 44) :
    localOk (modCore s d f) comp pa = localOk s comp pa := rfl

/-- Writes to uncached memory that the fence lets through are performed as they stand. -/
theorem performWrites_uncached {user : Bool} {ws : List WordWrite}
    (h : ws.all (fun w => localOk s (getCore s c).compart w.pa) = true) :
    performWrites s c .uncached user ws = dramApply s ws := by
  rw [performWrites, List.filter_eq_self.mpr (List.all_eq_true.mp h)]

end

/-- Settles O33: an answer by what its event does with the core's wait, the rest by the miss or the store that is the oldest. -/
theorem coreAnswers : Obligations.CoreAnswers := by
  intro c i s t n pa ok m rest e r k u Goes Waits
  refine ⟨fun hw hm => ?_, fun ha => ⟨fun hw => ?_, fun hw hr => ?_⟩, fun ha => ⟨fun hw => ?_, fun hw hr => ?_⟩,
    fun hm => ?_, fun hm => ?_, fun hq hu hl => ?_, fun hq => ?_⟩
  · have hv : withAnswers c (id k.replay) s = s := withAnswers_id c s
    simp only [Goes, hv]
    exact exec_of_resumeCore (markBufferRoom_resumes (waitOf_of_wait hw) hm) hw
  · refine exec_of_resumeCore ?_ ((withAnswers_wait c _ u).trans hw)
    rw [forwardReply_sole ha]
    exact if_pos (waitOf_of_wait hw)
  · have hno : microAsked u c t = false := microAsked_idle t hr
    simp [forwardReply_sole ha, waitOf_of_idle hw, u, hno]
  · refine exec_of_resumeCore ?_ ((withAnswers_wait c _ u).trans hw)
    rw [cardCheckReply_sole ha]
    exact if_pos (waitOf_of_wait hw)
  · have hno : microCard u c pa = false := microCard_idle pa hr
    simp [cardCheckReply_sole ha, waitOf_of_idle hw, u, hno]
  · rw [exec_lineFill, execLineFill_clean, fillOldest_cons s c m rest hm]
  · rw [exec_lineFill, execLineFill_clean, fillOldest_nil s c hm]
  · rw [exec_storeQueueDrain, execStoreQueueDrain, drainOne_cons hq, hu, performWrites_uncached]
    simpa [localOk_modCore] using hl
  · rw [exec_storeQueueDrain, execStoreQueueDrain, drainOne_nil hq]

end Sys2Proof.Machine
end

section
/-! PROOFS. What cached memory leaves alone of the cores (12 R309, R313, R317): an access of it writes nothing of a core but its L1s and a
machine check that becomes pending. -/

namespace Sys2Proof.Machine

/-- A core but for what the memory system writes: its L1s, and a pending machine check. -/
def besideMemory (k : Core) : Core := { k with l1 := L1.reset, pend := { k.pend with mc := none } }

/-- The cores of a state, each but for what the memory system writes. -/
def coresBeside (s : State) (c : CoreId) : Core := besideMemory (getCore s c)

/-- What is no L1 and no machine check is the same in two cores that differ in nothing else. -/
theorem eq_of_besideMemory {a b : Core} (h : besideMemory a = besideMemory b) : a.run = b.run ∧ a.banks = b.banks ∧ a.pc = b.pc := by
  have field {α : Type} (f : Core → α) : f (besideMemory a) = f (besideMemory b) := congrArg f h
  exact ⟨field Core.run, field Core.banks, field Core.pc⟩

theorem coresBeside_of_cores {s t : State} (h : t.cores = s.cores) : coresBeside t = coresBeside s := by
  funext c
  rw [coresBeside, getCore, h]
  rfl

/-- What a step of a fold leaves alone of the cores, the fold does. -/
theorem coresBeside_foldl {ι : Type} {f : State → ι → State} (hf : ∀ s i, coresBeside (f s i) = coresBeside s) (l : List ι) (s : State) :
    coresBeside (l.foldl f s) = coresBeside s :=
  foldl_keeps (Q := fun t => coresBeside t = coresBeside s) (fun t i h => (hf t i).trans h) l s rfl

/-- An update of a core within what the memory system writes. -/
theorem coresBeside_modCore (s : State) (c : CoreId) (f : Core → Core) (hf : ∀ k, besideMemory (f k) = besideMemory k) :
    coresBeside (modCore s c f) = coresBeside s := by
  funext d
  by_cases h : d = c
  · subst h
    rw [coresBeside, getCore_modCore, hf]
    rfl
  · rw [coresBeside, getCore_modCore_of_ne s c d f h]
    rfl

section

variable (s : State) (c : CoreId) (k : ClusterId)

@[simp] theorem coresBeside_modL1 (f : L1 → L1) : coresBeside (modL1 s c f) = coresBeside s := coresBeside_modCore s c _ fun _ => rfl

@[simp] theorem coresBeside_modL2 (f : L2 → L2) : coresBeside (modL2 s k f) = coresBeside s :=
  coresBeside_of_cores (modCl_cores s k _)

@[simp] theorem coresBeside_dramWrite (off : Nat) (w : Word) : coresBeside (dramWrite s off w) = coresBeside s :=
  coresBeside_of_cores (dramWrite_cores s off w)

/-! ## Events, the error log and machine checks (15 R373, 18 R424, R430) -/

@[simp] theorem mbxIrq_cores (i : Nat) : (mbxIrq s i).cores = s.cores := by
  simp only [mbxIrq]
  split
  · exact (signal_frame _ _ _).1
  · rfl

@[simp] theorem postEvent_cores (code comp : Nat) (seq : BitVec 32) (data : W64) : (postEvent s code comp seq data).cores = s.cores := by
  unfold postEvent
  split
  · rfl
  · simp only [ringEvent]
    split
    · rfl
    · exact mbxIrq_cores _ 1

@[simp] theorem logErr_cores (cls sev comp unit : Nat) (addr info : W64) : (logErr s cls sev comp unit addr info).cores = s.cores :=
  postEvent_cores _ _ _ _ _

@[simp] theorem logCorrected_cores (src cls comp unit : Nat) (addr info : W64) :
    (logCorrected s src cls comp unit addr info).cores = s.cores := by
  simp only [logCorrected]
  split
  · exact logErr_cores _ _ _ _ _ _ _
  · rfl

@[simp] theorem logParity_cores (comp : BitVec 4) (addr : W64) : (logParity s k comp addr).cores = s.cores :=
  logCorrected_cores s _ _ _ _ _ _

@[simp] theorem coresBeside_pendMc (r : McReport) : coresBeside (pendMc s c r) = coresBeside s := by
  simp only [pendMc]
  split
  · rfl
  · exact coresBeside_modCore s c _ fun _ => rfl

@[simp] theorem coresBeside_pendMcAll (p : CompId) (r : McReport) : coresBeside (pendMcAll s p r) = coresBeside s := by
  unfold pendMcAll
  split
  · rfl
  · exact coresBeside_foldl (fun t c => coresBeside_pendMc t c r) _ s

@[simp] theorem coresBeside_loseComp (cls unit : Nat) (p : CompId) (addr : W64) (r : McReport) :
    coresBeside (loseComp s cls unit p addr r) = coresBeside s := by
  have hall : coresBeside (pendMcAll (logErr s cls 2 p.val unit addr (mcInfo r.sub.toNat r.einfo.toNat)) p r) = coresBeside s := by
    rw [coresBeside_pendMcAll, coresBeside_of_cores (logErr_cores _ _ _ _ _ _ _)]
  simp only [loseComp]
  split
  · exact hall
  · exact hall

/-! ## DRAM (02 R57, 17 R418) -/

@[simp] theorem dramCorrect_cores (patrol : Bool) (off syn bitNo : Nat) (w : Word) :
    (dramCorrect patrol off syn bitNo w s).cores = s.cores := by
  rw [dramCorrect, logCorrected_cores]
  rfl

@[simp] theorem dramPoison_cores (patrol : Bool) (off syn : Nat) : (dramPoison patrol off syn s).cores = s.cores := by
  rw [dramPoison, logErr_cores, dramWrite_cores]

@[simp] theorem dramDeliver_cores (patrol : Bool) (off : Nat) (d : DramWord) (y : Syndrome) :
    (dramDeliver patrol off d y s).2.cores = s.cores := by
  cases y with
  | clean => rfl
  | data i => exact dramCorrect_cores s patrol off _ _ _
  | check j => exact dramCorrect_cores s patrol off _ _ _
  | bad => exact dramPoison_cores s patrol off _

@[simp] theorem dramRead_cores (patrol : Bool) (off : Nat) : (dramRead patrol off s).2.cores = s.cores := by
  unfold dramRead
  exact dramDeliver_cores s patrol off _ _

@[simp] theorem coresBeside_dramRead (patrol : Bool) (off : Nat) : coresBeside (dramRead patrol off s).2 = coresBeside s :=
  coresBeside_of_cores (dramRead_cores s patrol off)

@[simp] theorem coresBeside_lineToDram (line : Nat) (ws : List Word) : coresBeside (lineToDram s line ws) = coresBeside s := by
  unfold lineToDram
  exact coresBeside_foldl (fun t _ => coresBeside_dramWrite t _ _) _ s

@[simp] theorem coresBeside_dramApply (ws : List WordWrite) : coresBeside (dramApply s ws) = coresBeside s := by
  unfold dramApply
  refine coresBeside_foldl (fun t w => ?_) ws s
  simp only [dramApply1, apply_ite coresBeside, coresBeside_dramWrite, coresBeside_dramRead, ite_self]

@[simp] theorem coresBeside_dramLine (line : Nat) : coresBeside (dramLine line s).2 = coresBeside s := by
  unfold dramLine
  refine foldl_keeps (Q := fun r : List Word × State => coresBeside r.2 = coresBeside s) (fun r _ h => ?_) _ ([], s) rfl
  rw [dramNext, dramPush_snd, coresBeside_dramRead, h]

/-! ## The lines of an L2 (12 R313 to R317) -/

@[simp] theorem coresBeside_l2Put (line : Nat) (f : L2Line → L2Line) : coresBeside (l2Put s k line f) = coresBeside s := by
  unfold l2Put
  split
  · rfl
  · rfl

@[simp] theorem coresBeside_backInval (x : L2Line) : coresBeside (backInval s k x) = coresBeside s := by
  refine coresBeside_foldl (fun t j => ?_) _ s
  simp only [apply_ite coresBeside, coresBeside_modL1, ite_self]

@[simp] theorem coresBeside_l1dSync (own : Option CoreId) (line : Nat) : coresBeside (l1dSync s k own line) = coresBeside s := by
  unfold l1dSync
  split
  · rfl
  · refine coresBeside_foldl (fun t j => ?_) _ s
    simp only [apply_ite coresBeside, coresBeside_l2Put, coresBeside_modL1, ite_self]

@[simp] theorem coresBeside_l2Drop (line : Nat) : coresBeside (l2Drop s k line) = coresBeside s := by
  unfold l2Drop
  split
  · rw [coresBeside_modL2, coresBeside_backInval]
  · rfl

@[simp] theorem coresBeside_dirtyLine (line : Nat) (stateBits : Bool) : coresBeside (dirtyLine s k line stateBits) = coresBeside s := by
  simp only [dirtyLine, loseLine, coresBeside_loseComp, coresBeside_lineToDram]
  exact coresBeside_foldl (fun t j => coresBeside_l2Drop t j line) _ s

@[simp] theorem coresBeside_l2Check (line : Nat) : coresBeside (l2Check s k line) = coresBeside s := by
  unfold l2Check
  split
  · rfl
  · simp only [apply_ite coresBeside, coresBeside_dirtyLine, coresBeside_of_cores (logParity_cores _ _ _ _), coresBeside_l2Drop, ite_self]

@[simp] theorem coresBeside_l2Clean (line : Nat) : coresBeside (l2Clean s k line) = coresBeside s := by
  simp only [l2Clean]
  split
  · simp only [apply_ite coresBeside, coresBeside_l2Put, coresBeside_lineToDram, coresBeside_l2Check, ite_self]
  · exact coresBeside_l2Check s k line

@[simp] theorem coresBeside_l2Evict (line : Nat) : coresBeside (l2Evict s k line) = coresBeside s := by
  rw [l2Evict, coresBeside_l2Drop, coresBeside_l2Clean]

@[simp] theorem coresBeside_othersDrop (j : Option ClusterId) (line : Nat) : coresBeside (othersDrop s j line) = coresBeside s := by
  refine coresBeside_foldl (fun t i => ?_) _ s
  simp only [apply_ite coresBeside, coresBeside_l2Evict, ite_self]

@[simp] theorem coresBeside_checkHeld (line : Nat) : coresBeside (checkHeld s line) = coresBeside s := by
  refine coresBeside_foldl (fun t i => ?_) _ s
  simp only [apply_ite coresBeside, coresBeside_l2Check, ite_self]

@[simp] theorem coresBeside_lineFrom (line : Nat) (o : Option ClusterId) : coresBeside (lineFrom line o s).2 = coresBeside s := by
  cases o with
  | none => exact coresBeside_dramLine s line
  | some k => rfl

@[simp] theorem coresBeside_lineRead (line : Nat) : coresBeside (lineRead line s).2 = coresBeside s := by
  simp only [lineRead, coresBeside_lineFrom, coresBeside_checkHeld]

/-! ## Stores to cached memory (12 R311, R314, R320) -/

@[simp] theorem coresBeside_l2Insert (mask : BitVec 16) (x : L2Line) : coresBeside (l2Insert s k mask x) = coresBeside s := by
  simp only [l2Insert]
  split
  · rfl
  · split
    · rfl
    · rw [coresBeside_modL2]
      split
      · exact coresBeside_l2Evict s k _
      · rfl

@[simp] theorem coresBeside_l2Allocate (mask : BitVec 16) (line : Nat) (ws : List WordWrite) (old : List Word) :
    coresBeside (l2Allocate k mask line ws old s) = coresBeside s := by
  simp only [l2Allocate, apply_ite coresBeside, coresBeside_l2Insert, coresBeside_dramApply, ite_self]

@[simp] theorem coresBeside_l2StoreMiss (mask : BitVec 16) (line : Nat) (ws : List WordWrite) :
    coresBeside (l2StoreMiss s k mask line ws) = coresBeside s := by
  simp only [l2StoreMiss, apply_ite coresBeside, coresBeside_l2Allocate, coresBeside_lineRead, ite_self]

@[simp] theorem coresBeside_l2StoreLine (mask : BitVec 16) (line : Nat) (ws : List WordWrite) (x : Option L2Line) (st : L2State) :
    coresBeside (l2StoreLine s k mask line ws x st) = coresBeside s := by
  unfold l2StoreLine
  split
  · rw [coresBeside_l2Put, coresBeside_lineToDram]
  · exact coresBeside_l2Put s k line _
  · exact coresBeside_l2StoreMiss s k mask line ws
  · exact coresBeside_dramApply s ws

@[simp] theorem coresBeside_l2StoreBy (own : Option CoreId) (mask : BitVec 16) (ws : List WordWrite) :
    coresBeside (l2StoreBy own s k mask ws) = coresBeside s := by
  cases ws with
  | nil => rfl
  | cons w r => simp only [l2StoreBy, l2StoreAlone, coresBeside_l1dSync, coresBeside_l2StoreLine, coresBeside_l2Check, coresBeside_othersDrop]

/-- Cached stores that a core performs at once. -/
@[simp] theorem coresBeside_performNow_cached (ws : List WordWrite) : coresBeside (performNow s c .cached ws) = coresBeside s := by
  rw [performNow, if_pos rfl, performWrites]
  exact (coresBeside_foldl (fun t g => coresBeside_l2StoreBy t _ _ _ g) _ _).trans (coresBeside_modL1 s c _)

end

end Sys2Proof.Machine
end

section
/-! PROOFS. The stops of a core (06 R166, 07 R200, R201): the phase flip, the snapshot stop with its dump, and the report. -/

namespace Sys2Proof.Machine

section

variable {c : CoreId} {s : State}

/-! ## Issue stops at a boundary (06 R166 steps 2 and 3, 07 R200 steps 2 and 3) -/

/-- A core that runs, waits for nothing and has a stop due takes it. -/
theorem takeDue_stop (hr : (getCore s c).run = .running) (hw : (getCore s c).wait = none) (hs : (getCore s c).pend.stop = false)
    (hd : stopDue (getCore s c) = true) : takeDue c s = some (stopCore c s) := by
  simp [takeDue, boundaryEvent, hr, hw, hs, hd]

theorem drainMark_empty (h : (getCore s c).mark = []) : drainMark s c = s := by
  simp only [drainMark, h]

theorem drainMarks_empty (n : Nat) (h : (getCore s c).mark = []) : drainMarks n s c = s := by
  induction n with
  | zero => rfl
  | succ n ih => rw [drainMarks, drainMark_empty h, ih]

/-- The stop leaves the mark buffer as it is. -/
theorem stopIssue_stop {r : RunState} (hr : (getCore s c).run = .running) (hw : (getCore s c).wait = none)
    (hs : (getCore s c).pend.stop = false) (hd : stopDue (getCore s c) = true) (hm : (getCore (stopCore c s) c).mark = []) :
    stopIssue s c r = stopCore c s := by
  simp only [stopIssue, hr, if_true, takeDue_stop hr hw hs hd, Option.getD_some, drainMarks_empty 16 hm, ite_self]

theorem completeAll_idle (k : Core) (h : k.longs = []) : completeAll k = k := completeWhere_nil _ k h

/-- The stop for a flip. -/
theorem stopCore_flip {col : BitVec 2} (hf : (getCore s c).pend.flip = some col) (hw : (getCore s c).wait = none) :
    stopCore c s = modCore s c fun k => { k with replay := Replay.reset, run := .flipStop } := by
  rw [stopCore]
  refine modCore_congr s c _ _ ?_
  simp [hf, hw]

/-- The stop for a snapshot, with no long operation in progress: the `TICK` is noted. -/
theorem stopCore_snap (hf : (getCore s c).pend.flip = none) (hw : (getCore s c).wait = none) (hl : (getCore s c).longs = []) :
    stopCore c s = modCore s c fun k => { k with
      replay := Replay.reset, run := .snapStop, pend := { k.pend with snapTick := some (tickOf s (clusterOf c)) } } := by
  rw [stopCore]
  refine modCore_congr s c _ _ ?_
  simp only [hf, hw, Option.isSome_none, Bool.false_eq_true, if_false]
  exact completeAll_idle _ hl

/-! ## A stop ends (06 R166 steps 4 and 5, 07 R200 steps 4 to 6) -/

theorem redirected_no_microcode {k : Core} (h : k.micro.table = []) (a key : Nat) : redirected k a key = false := by
  simp [redirected, h]

/-- With no microcode loaded a routine's words are the ROM's own. -/
theorem enterRom_no_microcode (h : (getCore s c).micro.table = []) (a key : Nat) (set : MicroRun → MicroRun) :
    enterRom c a key set s = .ok () s := by
  simp only [enterRom, cm_bind, cm_cget, redirected_no_microcode h]
  rfl

theorem stopRun_native (ht : (getCore s c).micro.table = []) (hr : (getCore s c).micro.run = none) (rom : Nat) (r : Resume)
    (native fin : State → State) : stopRun c rom r native fin s = native s := by
  simp only [stopRun, hr, Option.isSome_none, Bool.false_eq_true, if_false, cm_run, enterRom_no_microcode ht]

/-- The end of a flip stop: the new colour, and issue resumes. -/
theorem endFlip_flipColour {col : BitVec 2} (hf : (getCore s c).pend.flip = some col) (hr : (getCore s c).run = .flipStop) :
    endFlip c (flipColour c s) = modCore s c fun k => { k with
      heap := { k.heap with goodcol := col }, pend := { k.pend with flip := none }, run := .running } := by
  rw [endFlip, flipColour, modCore_modCore]
  refine modCore_congr s c _ _ ?_
  simp [hf, hr]

/-- The dump's stores write nothing of a core but its L1s and a pending machine check. -/
theorem coresBeside_storeDump (s : State) (c : CoreId) (base : BitVec 44) (ws : List Word) :
    coresBeside (storeDump s c base ws) = coresBeside s := by
  refine coresBeside_foldl (fun t i => ?_) _ s
  simp only [apply_ite coresBeside, coresBeside_performNow_cached, ite_self]

/-- The dump of a core and its end (07 R201): issue resumes, the copied-card filter is empty, and the registers and the PC are kept. -/
theorem endDump_dump {tk : W64} {x : Snapshot} (ht : (getCore s c).pend.snapTick = some tk)
    (hx : (getComp s (compId (getCore s c).compart)).snap = some x) (hr : (getCore s c).run = .snapStop) :
    let k := getCore (endDump c (dump c s)) c
    k.run = .running ∧ k.pend.snap = false ∧ k.cards = [] ∧ k.banks = (getCore s c).banks ∧ k.pc = (getCore s c).pc := by
  have hk : besideMemory (getCore (storeDump s c (x.base + BitVec.ofNat 44 (4096 * c.val)) (dumpWords s c tk)) c)
      = besideMemory (getCore s c) := congrFun (coresBeside_storeDump s c _ _) c
  simp only [dump, ht, hx, endDump, getCore_modCore]
  generalize getCore (storeDump s c (x.base + BitVec.ofNat 44 (4096 * c.val)) (dumpWords s c tk)) c = j at hk
  obtain ⟨hrun, hbanks, hpc⟩ := eq_of_besideMemory hk
  exact ⟨if_pos (hrun.trans hr), trivial, trivial, hbanks, hpc⟩

/-! ## The events -/

theorem phaseFlipStop_due {col : BitVec 2} (hf : (getCore s c).pend.flip = some col) (hm : (getCore s c).mark = [])
    (hr : (getCore s c).run = .running) (hw : (getCore s c).wait = none) (hs : (getCore s c).pend.stop = false) :
    exec (.phaseFlipStop c) s = .next (modCore s c fun k => { k with replay := Replay.reset, run := .flipStop }) := by
  have hd : stopDue (getCore s c) = true := by simp [stopDue, hf]
  have hstop := stopCore_flip hf hw
  rw [exec_phaseFlipStop, execPhaseFlipStop, hf, stopIssue_stop hr hw hs hd, hstop]
  · rfl
  · rw [hstop, getCore_modCore, hm]

theorem phaseFlipResume_ready {col : BitVec 2} (hf : (getCore s c).pend.flip = some col) (hm : (getCore s c).mark = [])
    (hr : (getCore s c).run = .flipStop) (hw : (getCore s c).wait = none) (hh : healing s c = false)
    (ht : (getCore s c).micro.table = []) (hu : (getCore s c).micro.run = none) :
    exec (.phaseFlipResume c) s = .next (modCore s c fun k => { k with
      heap := { k.heap with goodcol := col }, pend := { k.pend with flip := none }, run := .running }) := by
  rw [exec_phaseFlipResume, execPhaseFlipResume, if_pos, flipRun, stopRun_native ht hu, endFlip_flipColour hf hr]
  simp [hf, hm, hr, hw, hh, standsStill]

theorem snapshotCoreStop_due (hp : (getCore s c).pend.snap = true) (hm : (getCore s c).mark = [])
    (hn : (getCore s c).pend.snapTick = none) (hf : (getCore s c).pend.flip = none) (hr : (getCore s c).run = .running)
    (hw : (getCore s c).wait = none) (hs : (getCore s c).pend.stop = false) (hl : (getCore s c).longs = []) :
    exec (.snapshotCoreStop c) s = .next (modCore s c fun k => { k with
      replay := Replay.reset, run := .snapStop, pend := { k.pend with snapTick := some (tickOf s (clusterOf c)) } }) := by
  have hd : stopDue (getCore s c) = true := by simp [stopDue, hp, hn]
  have hstop := stopCore_snap hf hw hl
  have hissue : stopIssue s c .snapStop = stopCore c s :=
    stopIssue_stop hr hw hs hd (by rw [hstop, getCore_modCore, hm])
  rw [exec_snapshotCoreStop, execSnapshotCoreStop, hissue, hstop]
  simp [hp, hn]

theorem snapshotDump_ready {tk : W64} (hp : (getCore s c).pend.snap = true) (hm : (getCore s c).mark = [])
    (ht : (getCore s c).pend.snapTick = some tk) (hr : (getCore s c).run = .snapStop) (hw : (getCore s c).wait = none)
    (hh : healing s c = false) (htab : (getCore s c).micro.table = []) (hu : (getCore s c).micro.run = none) :
    exec (.snapshotDump c) s = .next (endDump c (dump c s)) := by
  rw [exec_snapshotDump, execSnapshotDump, if_pos, dumpRun, stopRun_native htab hu]
  simp [hp, hm, ht, hr, hw, hh, standsStill]

end

/-- The report of a snapshot stop that no core has left to make. -/
theorem snapshotStopReport_done {p : CompId} {x : Snapshot} {s : State} (hx : (getComp s p).snap = some x) (hd : x.due = true)
    (hr : x.reported = false) (hc : ∀ c, (getCore s c).pend.snap = false) :
    exec (.snapshotStopReport p) s =
      .next (postEvent (modComp s p fun y => { y with snap := some { x with reported := true } }) 0x0004 p.val x.seq x.t) := by
  have hall : (allCores.all fun c => !((getCore s c).compart == compNo p && isLive (getCore s c) && (getCore s c).pend.snap)) = true :=
    List.all_eq_true.mpr fun c _ => by simp [hc c]
  rw [exec_snapshotStopReport, execSnapshotStopReport, hx]
  exact if_pos ⟨hd, by simp [hr], hall⟩

/-- Settles O37: each event of a stop by the lemma that says what it does in its own case. -/
theorem flipsAndSnapshots : Obligations.FlipsAndSnapshots := by
  intro c col p x tk s k ready
  refine ⟨fun hf hm => ⟨phaseFlipStop_due hf hm, ?_⟩, fun hp hm => ⟨snapshotCoreStop_due hp hm, ?_⟩, snapshotStopReport_done⟩
  · rintro hr ⟨hw, hh, ht, hu⟩
    exact phaseFlipResume_ready hf hm hr hw hh ht hu
  · rintro ht hx hr ⟨hw, hh, htab, hu⟩
    exact ⟨_, snapshotDump_ready hp hm ht hr hw hh htab hu, endDump_dump ht hx hr⟩

end Sys2Proof.Machine
end

section
/-! PROOFS. What memory leaves alone (12 R309 to R317): a view of the state that shows no cache, no DRAM, no log, no pending machine check
and no abort that is due is the same after a coherent store as before it. -/

namespace Sys2Proof.Machine

/-- A view that shows nothing of what an access of memory may write. -/
structure LeftByMemory {α : Type} (view : State → α) : Prop where
  l1 : ∀ s c f, view (modL1 s c f) = view s
  l2 : ∀ s k f, view (modL2 s k f) = view s
  dram : ∀ (s : State) d, view { s with dram := d } = view s
  log : ∀ (s : State) l, view { s with log := l } = view s
  entry : ∀ s cls sev comp unit addr info, view (logErr s cls sev comp unit addr info) = view s
  check : ∀ s c r, view (pendMc s c r) = view s
  due : ∀ s p, view (modComp s p fun x => { x with abortDue := true }) = view s

namespace LeftByMemory

section

variable {α : Type} {view : State → α} (h : LeftByMemory view) (s : State) (k : ClusterId)

/-- What a step of a fold leaves alone, the fold does. -/
theorem foldl {ι : Type} {f : State → ι → State} (hf : ∀ s i, view (f s i) = view s) (l : List ι) (s : State) :
    view (l.foldl f s) = view s :=
  foldl_keeps (Q := fun t => view t = view s) (fun t i ht => (hf t i).trans ht) l s rfl

include h

/-! ## The error log, machine checks and DRAM -/

theorem logCorrected (src cls comp unit : Nat) (addr info : W64) : view (logCorrected s src cls comp unit addr info) = view s := by
  simp only [Machine.logCorrected]
  split
  · rw [h.entry, h.log]
  · exact h.log s _

theorem logParity (comp : BitVec 4) (addr : W64) : view (logParity s k comp addr) = view s := h.logCorrected s _ _ _ _ _ _

theorem loseComp (cls unit : Nat) (p : CompId) (addr : W64) (r : McReport) : view (loseComp s cls unit p addr r) = view s := by
  have hall (t : State) : view (pendMcAll t p r) = view t := by
    simp only [pendMcAll, apply_ite view, foldl (fun t c => h.check t c r), ite_self]
  simp only [Machine.loseComp, apply_ite view, h.due, hall, h.entry, ite_self]

theorem dramWrite (off : Nat) (w : Word) : view (dramWrite s off w) = view s := h.dram s _

theorem dramCorrect (patrol : Bool) (off syn bitNo : Nat) (w : Word) : view (dramCorrect patrol off syn bitNo w s) = view s := by
  rw [Machine.dramCorrect, h.logCorrected, stampCorrected, h.dram, h.dramWrite]

theorem dramDeliver (patrol : Bool) (off : Nat) (d : DramWord) (y : Syndrome) : view (dramDeliver patrol off d y s).2 = view s := by
  cases y with
  | clean => rfl
  | data i => exact h.dramCorrect s patrol off _ _ _
  | check j => exact h.dramCorrect s patrol off _ _ _
  | bad => exact (h.entry _ _ _ _ _ _ _).trans (h.dramWrite s _ _)

theorem dramRead (patrol : Bool) (off : Nat) : view (dramRead patrol off s).2 = view s := by
  unfold Machine.dramRead
  exact h.dramDeliver s patrol off _ _

theorem lineToDram (line : Nat) (ws : List Word) : view (lineToDram s line ws) = view s := by
  unfold Machine.lineToDram
  exact foldl (fun t _ => h.dramWrite t _ _) _ s

theorem dramApply (ws : List WordWrite) : view (dramApply s ws) = view s := by
  unfold Machine.dramApply
  refine foldl (fun t w => ?_) ws s
  simp only [dramApply1, apply_ite view, h.dramWrite, h.dramRead, ite_self]

theorem dramLine (line : Nat) : view (dramLine line s).2 = view s := by
  unfold Machine.dramLine
  refine foldl_keeps (Q := fun r : List Word × State => view r.2 = view s) (fun r _ hr => ?_) _ ([], s) rfl
  rw [dramNext, dramPush_snd, h.dramRead, hr]

/-! ## The lines of an L2 (12 R313 to R317) -/

theorem l2Put (line : Nat) (f : L2Line → L2Line) : view (l2Put s k line f) = view s := by
  unfold Machine.l2Put
  split
  · exact h.l2 s k _
  · rfl

theorem backInval (x : L2Line) : view (backInval s k x) = view s :=
  foldl (fun t j => by simp only [apply_ite view, h.l1, ite_self]) _ s

theorem l1dSync (own : Option CoreId) (line : Nat) : view (l1dSync s k own line) = view s := by
  unfold Machine.l1dSync
  split
  · rfl
  · exact foldl (fun t j => by simp only [apply_ite view, h.l2Put, h.l1, ite_self]) _ s

theorem l2Drop (line : Nat) : view (l2Drop s k line) = view s := by
  unfold Machine.l2Drop
  split
  · rw [h.l2, h.backInval]
  · rfl

theorem dirtyLine (line : Nat) (stateBits : Bool) : view (dirtyLine s k line stateBits) = view s := by
  simp only [Machine.dirtyLine, loseLine, h.loseComp, h.lineToDram]
  exact foldl (fun t j => h.l2Drop t j line) _ s

theorem l2Check (line : Nat) : view (l2Check s k line) = view s := by
  unfold Machine.l2Check
  split
  · rfl
  · simp only [apply_ite view, h.dirtyLine, h.logParity, h.l2Drop, ite_self]

theorem l2Evict (line : Nat) : view (l2Evict s k line) = view s := by
  have clean : view (l2Clean s k line) = view s := by
    simp only [l2Clean]
    split
    · simp only [apply_ite view, h.l2Put, h.lineToDram, h.l2Check, ite_self]
    · exact h.l2Check s k line
  rw [Machine.l2Evict, h.l2Drop, clean]

theorem othersDrop (j : Option ClusterId) (line : Nat) : view (othersDrop s j line) = view s :=
  foldl (fun t i => by simp only [apply_ite view, h.l2Evict, ite_self]) _ s

theorem lineFrom (line : Nat) (o : Option ClusterId) : view (lineFrom line o s).2 = view s := by
  cases o with
  | none => exact h.dramLine s line
  | some j => rfl

theorem checkHeld (line : Nat) : view (checkHeld s line) = view s :=
  foldl (fun t i => by simp only [apply_ite view, h.l2Check, ite_self]) _ s

theorem lineRead (line : Nat) : view (lineRead line s).2 = view s := by
  simp only [Machine.lineRead, h.lineFrom, h.checkHeld]

/-! ## Coherent stores (12 R311, R314, R320) -/

theorem l2Insert (mask : BitVec 16) (x : L2Line) : view (l2Insert s k mask x) = view s := by
  simp only [Machine.l2Insert]
  split
  · rfl
  · split
    · rfl
    · rw [h.l2]
      split
      · exact h.l2Evict s k _
      · rfl

theorem l2Allocate (mask : BitVec 16) (line : Nat) (ws : List WordWrite) (old : List Word) :
    view (l2Allocate k mask line ws old s) = view s := by
  simp only [Machine.l2Allocate, apply_ite view, h.l2Insert, h.dramApply, ite_self]

theorem l2StoreLine (mask : BitVec 16) (line : Nat) (ws : List WordWrite) (x : Option L2Line) (st : L2State) :
    view (l2StoreLine s k mask line ws x st) = view s := by
  unfold Machine.l2StoreLine
  split
  · rw [h.l2Put, h.lineToDram]
  · exact h.l2Put s k line _
  · simp only [l2StoreMiss, apply_ite view, h.l2Allocate, h.lineRead, ite_self]
  · exact h.dramApply s ws

theorem l2Store (mask : BitVec 16) (ws : List WordWrite) : view (l2Store s k mask ws) = view s := by
  cases ws with
  | nil => rfl
  | cons w r => simp only [Machine.l2Store, l2StoreBy, l2StoreAlone, h.l1dSync, h.l2StoreLine, h.l2Check, h.othersDrop]

end

end LeftByMemory

/-! ## What an engine's schedule rests on (07 R203): the engines, and each compartment's resources -/

/-- A signal to the host writes neither an engine nor what a compartment has been given. -/
theorem signal_scheduling (s : State) (p q : CompId) (n : Nat) :
    (signal s p n).engines = s.engines ∧ (getComp (signal s p n) q).res = (getComp s q).res := by
  unfold signal
  split
  · refine ⟨rfl, ?_⟩
    by_cases hq : q = p
    · rw [hq, getComp_modComp]
    · rw [getComp_modComp_of_ne s p q _ hq]
  · exact ⟨rfl, rfl⟩

theorem postEvent_scheduling (s : State) (q : CompId) (code comp : Nat) (seq : BitVec 32) (data : W64) :
    (postEvent s code comp seq data).engines = s.engines ∧ (getComp (postEvent s code comp seq data) q).res = (getComp s q).res := by
  unfold postEvent
  split
  · exact ⟨rfl, rfl⟩
  · simp only [ringEvent]
    split
    · exact ⟨rfl, rfl⟩
    · simp only [mbxIrq]
      split
      · exact signal_scheduling _ _ _ _
      · exact ⟨rfl, rfl⟩

/-- An entry of the error log writes neither. -/
theorem logErr_scheduling (s : State) (q : CompId) (cls sev comp unit : Nat) (addr info : W64) :
    (logErr s cls sev comp unit addr info).engines = s.engines ∧ (getComp (logErr s cls sev comp unit addr info) q).res = (getComp s q).res :=
  postEvent_scheduling _ _ _ _ _ _

theorem enginesLeft : LeftByMemory State.engines where
  l1 _ _ _ := rfl
  l2 _ _ _ := rfl
  dram _ _ := rfl
  log _ _ := rfl
  entry s cls sev comp unit addr info := (logErr_scheduling s 0 cls sev comp unit addr info).1
  check s c r := by simp only [pendMc, apply_ite State.engines, modCore_engines, ite_self]
  due _ _ := rfl

theorem resourcesLeft (q : CompId) : LeftByMemory fun s => (getComp s q).res where
  l1 _ _ _ := rfl
  l2 _ _ _ := rfl
  dram _ _ := rfl
  log _ _ := rfl
  entry s cls sev comp unit addr info := (logErr_scheduling s q cls sev comp unit addr info).2
  check s c r := by
    simp only [pendMc, apply_ite (fun s : State => (getComp s q).res)]
    exact ite_self _
  due s p := by
    by_cases hq : q = p
    · rw [hq, getComp_modComp]
    · rw [getComp_modComp_of_ne s p q _ hq]

end Sys2Proof.Machine
end

section
/-! PROOFS. The registers and the services of a Percolator (07 R189 to R195, R202, R203, 06 R173): what an update of an engine leaves in it,
what a piece of its work leaves behind, and what each service does with its request. -/

namespace Sys2Proof.Machine

/-! ## An engine's registers for a compartment -/

section

variable (s : State) (k j : ClusterId) (p q : CompId)

@[simp] theorem getPerc_modPerc (f : Perc → Perc) : getPerc (modPerc s k p f) k p = f (getPerc s k p) := by
  simp [getPerc, modPerc]

theorem getPerc_modPerc_of_ne (f : Perc → Perc) (h : j ≠ k) : getPerc (modPerc s k p f) j q = getPerc s j q := by
  rw [getPerc, modPerc, getEng_modEng_of_ne s k j _ h, getPerc]

theorem modPerc_modPerc (f g : Perc → Perc) : modPerc (modPerc s k p f) k p g = modPerc s k p fun e => g (f e) := by
  simp [modPerc, modEng]

/-- What an engine keeps for no compartment is not part of its registers. -/
theorem getPerc_modEng (f : Engine → Engine) (h : (f (getEng s k)).comp = (getEng s k).comp) : getPerc (modEng s k f) j q = getPerc s j q := by
  by_cases hj : j = k
  · rw [hj, getPerc, getEng_modEng, h, getPerc]
  · rw [getPerc, getEng_modEng_of_ne s k j _ hj, getPerc]

/-- An update of a compartment's registers leaves the queues of every engine. -/
theorem getEng_modPerc_marks (f : Perc → Perc) : (getEng (modPerc s k p f) j).marks = (getEng s j).marks := by
  by_cases hj : j = k
  · rw [hj, modPerc, getEng_modEng]
  · rw [modPerc, getEng_modEng_of_ne s k j _ hj]

/-! ## What a unit drops of its answers -/

variable (w : EngCtx) (f : EngAsk → Bool)

/-- What is the same whatever an engine drops of its answers is the same after a drop. -/
theorem dropGot_leaves {α : Type} {view : State → α} (h : ∀ g, view (modEng s w.eng fun e => { e with got := e.got.filter g }) = view s) :
    view (dropGot s w p f) = view s := by
  simp only [dropGot, apply_ite view, h, ite_self]

@[simp] theorem getPerc_dropGot : getPerc (dropGot s w p f) j q = getPerc s j q :=
  dropGot_leaves s p w f (view := fun t => getPerc t j q) fun _ => getPerc_modEng s w.eng j q _ rfl

@[simp] theorem getPerc_forget : getPerc (forget s w p) j q = getPerc s j q := getPerc_dropGot s j p q w _

@[simp] theorem forget_comps : (forget s w p).comps = s.comps := dropGot_leaves s p w _ fun _ => rfl

@[simp] theorem forget_dram : (forget s w p).dram = s.dram := dropGot_leaves s p w _ fun _ => rfl

@[simp] theorem forget_clusters : (forget s w p).clusters = s.clusters := dropGot_leaves s p w _ fun _ => rfl

end

/-! ## What comes of work that ends (R182, R194) -/

section

variable {α : Type} {m : EM α} {w : EngCtx} {p : CompId} {s t : State}

theorem engRun_ok {x : α} (h : m w s = .ok x t) : engRun m w p s = .done x (forget t w p) := by
  rw [engRun, h]

theorem engRun_code {n : Byte} (h : m w s = .error (.code n) t) : engRun m w p s = .stop n (forget t w p) := by
  rw [engRun, h]

end

/-! ## Requests for a `Forward` (R194, R195) -/

/-- The only request of a queue is the next one, whatever its priority, if it may be served. -/
theorem nextRequest_singleton {α : Type} (prio : α → Nat) (ok : α → Bool) (x : α) (h : ok x = true) : nextRequest prio ok [x] = some 0 := by
  simp [nextRequest, h]

section

variable {s t : State} {k : ClusterId} {f : FwdReq} {n : Option W64}

theorem answerFwd_core (h : f.origin = none) : answerFwd s k 0 f n
    = { modEng s k fun e => { e with fwd := e.fwd.eraseIdx 0 } with answers := s.answers ++ [(f.core, .fwd f.va n)] } := by
  simp only [answerFwd, h, modEng_answers]

/-- A request whose work ends is answered. -/
theorem serveForward_done (h : answerForward k (compId f.comp) (va48 f.va) f.pa f.ptype.toNat (fwdUnit k f) (serviceCycle s k (compId f.comp))
    = .ok n t) : serveForward s k 0 f = answerFwd (forget t (fwdUnit k f) (compId f.comp)) k 0 f n := by
  simp only [serveForward, engRun_ok h]

theorem forward_next (hq : (getEng s k).fwd = [f]) (hw : f.waiting = false) : exec (.forward k) s = .next (serveForward s k 0 f) := by
  have next := nextRequest_singleton (fwdPriority s) (fun r => !r.waiting) f (by simp [hw])
  simp only [exec_forward, execForward, hq, next, List.getElem?_cons_zero]

theorem forwardCompletionNotice_waiting (hq : (getEng s k).fwd = [f]) (hw : f.waiting = true) (hd : paDev f.pa = s.devid) :
    exec (.forwardCompletionNotice k) s = .next (serveForward s k 0 f) := by
  simp [exec_forwardCompletionNotice, execForwardCompletionNotice, hq, hw, hd]

theorem forwardPoll_waiting (hq : (getEng s k).fwd = [f]) (hw : f.waiting = true) (hd : paDev f.pa = s.devid) :
    exec (.forwardPoll k) s = .next (serveForward (pollForward s k f) k 0 f) := by
  simp [exec_forwardPoll, execForwardPoll, hq, hw, hd]

end

/-! ## Mark requests and mark buffers (R188, R189) -/

theorem markRequest_served {s t : State} {k : ClusterId} {m : MarkReq} {rest : List MarkReq} (hq : (getEng s k).marks = m :: rest)
    (h : markServed k m { eng := k, part := .mark } s = .ok () t) :
    exec (.markRequest k) s = .next (ackMark (forget t { eng := k, part := .mark } (compId m.comp)) k m) := by
  simp only [exec_markRequest, execMarkRequest, hq, engRun_ok h]

theorem markBufferDrain_pushed {s t : State} {c : CoreId} {e : MarkEntry} {l : List MarkEntry} (hq : (getCore s c).mark = e :: l)
    (h : markPushed (clusterOf c) (compId (getCore s c).compart) e.va e.pa e.ptype.toNat { eng := clusterOf c, part := .drain c } s = .ok () t) :
    exec (.markBufferDrain c) s = .next (serviceCycle (modCore (forget t { eng := clusterOf c, part := .drain c } (compId (getCore s c).compart)) c
      fun x => { x with mark := x.mark.drop 1 }) (clusterOf c) (compId (getCore s c).compart)) := by
  simp only [exec_markBufferDrain, execMarkBufferDrain, drainMark, hq, engRun_ok h]

/-! ## Cards (06 R173, R202) -/

section

variable {s t : State} {k : ClusterId} {q : CardReq} {b : Bool}

theorem answerCards_only (hq : (getEng s k).cards = [q]) : answerCards s k (cardOf q.pa) b
    = { modEng s k fun e => { e with cards := [] } with answers := s.answers ++ [(q.core, .card q.pa b)] } := by
  simp [answerCards, hq, modEng, show (s.engines.get k).cards = [q] from hq]

/-- A card of a region that no 2 MiB leaf maps is served by no engine. -/
theorem cardAsked_unmapped (w : EngCtx) (hl : q.leaf = false) : cardAsked k q w s = .error (.code 0x0C) s := by
  simp only [cardAsked, hl, Bool.false_eq_true, if_false, em_stopE]

theorem cardAsked_mapped (hl : q.leaf = true) : cardAsked k q = cardCopied k (compId q.comp) q.pa := by
  rw [cardAsked, if_pos hl]

/-- The only request of the queue is the next one, and fails where its work does. -/
theorem cardRequest_failed {n : Byte} (hq : (getEng s k).cards = [q]) (hc : q.copying = false)
    (h : engRun (cardAsked k q) (cardUnit k) (compId q.comp) (serviceCycle s k (compId q.comp)) = .stop n t) :
    exec (.cardRequest k) s = .next (answerCards t k (cardOf q.pa) false) := by
  have next := nextRequest_singleton (fun r => corePriority s r.core) (fun r => !r.copying) q (by simp [hc])
  simp only [exec_cardRequest, execCardRequest, hq, next, List.getElem?_cons_zero, h]

/-- A card that has been copied is answered, and the copy of another begins. -/
theorem cardRequest_looked (hq : (getEng s k).cards = [q]) (hc : q.copying = false)
    (h : engRun (cardAsked k q) (cardUnit k) (compId q.comp) (serviceCycle s k (compId q.comp)) = .done b t) :
    exec (.cardRequest k) s = .next (if b then answerCards t k (cardOf q.pa) true
      else modEng t k fun e => { e with cards := e.cards.set 0 { q with copying := true } }) := by
  have next := nextRequest_singleton (fun r => corePriority s r.core) (fun r => !r.copying) q (by simp [hc])
  cases b with
  | true => simp only [exec_cardRequest, execCardRequest, hq, next, List.getElem?_cons_zero, h, if_true]
  | false => simp only [exec_cardRequest, execCardRequest, hq, next, List.getElem?_cons_zero, h, Bool.false_eq_true, if_false]

/-- A copy that ends has its writers answered; the copy of a card not copied before has used the engine for its 512 bytes (R203). -/
theorem cardCopyComplete_copied (hq : (getEng s k).cards = [q]) (hc : q.copying = true)
    (h : copyCard k (compId q.comp) q.pa (cardUnit k) s = .ok b t) :
    exec (.cardCopyComplete k) s = .next (answerCards (forget (if b then modPerc t k (compId q.comp) fun e => { e with used := e.used + 26 } else t)
      (cardUnit k) (compId q.comp)) k (cardOf q.pa) true) := by
  have first : [q].find? (·.copying) = some q := List.find?_cons_of_pos hc
  have work : (do if ← copyCard k (compId q.comp) q.pa then charge k (compId q.comp) 512 : EM Unit) (cardUnit k) s
      = .ok () (if b then modPerc t k (compId q.comp) fun e => { e with used := e.used + 26 } else t) := by
    rw [em_bind, h]
    cases b with
    | true => rfl
    | false => rfl
  simp only [exec_cardCopyComplete, execCardCopyComplete, hq, first, engRun_ok work]

end

/-! ## Stealing (R190) -/

/-- An idle engine has the later half of the entries, and the busiest keeps the rest. -/
theorem markStackSteal_halves {s : State} {k j : ClusterId} {p : CompId} (hb : busiest s p = j) (hj : j ≠ k) (hs : (getPerc s k p).stack = [])
    (hm : (getPerc s k p).memCount = 0) :
    ∃ u, exec (.markStackSteal k p) s = .next u ∧ (getPerc u k p).stack ++ (getPerc u j p).stack = (getPerc s j p).stack
      ∧ (getPerc u k p).stack.length = (getPerc s j p).stack.length / 2 := by
  have idle : stackEmpty (getPerc s k p) = true := by simp [stackEmpty, hs, hm]
  refine ⟨_, by rw [exec_markStackSteal, execMarkStackSteal, hb]; exact if_neg (by simp [idle, hj]), ?_, ?_⟩
  · rw [getPerc_modPerc, getPerc_modPerc_of_ne _ _ _ _ _ _ hj, getPerc_modPerc, List.take_append_drop]
  · rw [getPerc_modPerc, List.length_take, Nat.min_eq_left (Nat.div_le_self _ _)]

/-! ## Termination rounds (R191, 08 R221) -/

/-- What is listed elsewhere stays, in a map of any order. -/
theorem smGet?_smSet_other {α : Type} (m : SMap α) {k l : Nat} (v : α) (h : l ≠ k) : smGet? (smSet m k v) l = smGet? m l := by
  induction m with
  | nil => simp [smSet, smGet?, Ne.symm h]
  | cons e m ih =>
    obtain ⟨j, w⟩ := e
    rw [smSet]
    split
    · -- The entry goes in front: a lookup passes it by, or ends before it where it would have ended at the next.
      rename_i hkj
      rw [smGet?, if_neg (Ne.symm h)]
      split
      · rw [smGet?, if_neg (by omega), if_pos (by omega)]
      · rfl
    · split
      · rename_i hjk
        rw [smGet?, smGet?, hjk, if_neg (Ne.symm h), if_neg (Ne.symm h)]
      · rw [smGet?, smGet?, ih]

section

variable (s : State) (g : GroupId) (key : Nat)

/-- A member that has arrived stands as it was put. -/
theorem memberOf_setMember {m : Member} (h : m.st = .arrived) : memberOf (setMember s g key m) g key = m :=
  smGet_smPut_same_of_ne _ _ fun hm => by rw [hm] at h; cases h

/-- The arrival of one member leaves another as it is. -/
theorem memberOf_setMember_other {m : Member} {l : Nat} (h : m.st = .arrived) (hl : l ≠ key) :
    memberOf (setMember s g key m) g l = memberOf s g l := by
  have hm : m ≠ Member.none := fun hm => by rw [hm] at h; cases h
  simp only [memberOf, setMember, smPut, if_neg hm, smGet]
  rw [smGet?_smSet_other _ _ (by omega)]

/-- Messages are the ports': cores, engines and groups are as before. -/
theorem sendMsgs_frame (l : List (BitVec 4)) (comp : BitVec 4) (body : List W64) : let t := l.foldl (fun s d => sendMsg s d comp body) s
    t.cores = s.cores ∧ t.engines = s.engines ∧ t.devid = s.devid ∧ t.weir = s.weir := by
  refine foldl_keeps (Q := fun t : State => t.cores = s.cores ∧ t.engines = s.engines ∧ t.devid = s.devid ∧ t.weir = s.weir) (fun t d h => ?_) l s
    ⟨rfl, rfl, rfl, rfl⟩
  unfold sendMsg
  split
  · exact h
  · exact h

/-- What the announcement of this device's arrival leaves alone. -/
theorem announce_frame : (announce s g).cores = s.cores ∧ (announce s g).engines = s.engines ∧ (announce s g).devid = s.devid
    ∧ ∀ l, l ≠ deviceKey s.devid → memberOf (announce s g) g l = memberOf s g l := by
  simp only [announce]
  split
  · exact ⟨rfl, rfl, rfl, fun _ _ => rfl⟩
  · obtain ⟨hc, he, hd, hw⟩ := sendMsgs_frame (setMember s g (deviceKey s.devid) _) (otherDevs s (groupOf s g)) (groupOf s g).compart _
    refine ⟨hc, he, hd, fun l hl => ?_⟩
    rw [memberOf, hw]
    exact memberOf_setMember_other s g _ rfl hl

end

section

variable {s t : State} {k : ClusterId} {p : CompId}

/-- An engine has the number of no device among the members of a group. -/
theorem engineKey_ne_deviceKey (k : ClusterId) (d : BitVec 4) : engineKey k ≠ deviceKey d := by
  simp only [engineKey, deviceKey]
  omega

/-- An engine that joins has arrived with its contribution; cores and engines are as before. -/
theorem joinGroup_engine (s : State) (g : GroupId) (k : ClusterId) (a : GroupArrival) : let u := joinGroup s g (engineKey k) a
    u.cores = s.cores ∧ u.engines = s.engines ∧ u.devid = s.devid
      ∧ (memberOf u g (engineKey k)).st = .arrived ∧ (memberOf u g (engineKey k)).contrib = a.word := by
  obtain ⟨hc, he, hd, hm⟩ := announce_frame (setMember s g (engineKey k)
    { memberOf s g (engineKey k) with st := .arrived, kind := a.kind, senders := a.senders, contrib := a.word }) g
  have member := (hm _ (engineKey_ne_deviceKey k _)).trans (memberOf_setMember s g (engineKey k) rfl)
  exact ⟨hc, he, hd, by rw [joinGroup, member], by rw [joinGroup, member]⟩

/-- What decides whether an engine is ready for a round: its registers, the cores, and the mark requests in the engines' queues. -/
theorem roundReady_congr (hp : getPerc t k p = getPerc s k p) (hc : t.cores = s.cores) (hm : ∀ j, (getEng t j).marks = (getEng s j).marks)
    (hd : t.devid = s.devid) : roundReady t k p = roundReady s k p := by
  simp only [roundReady, hp, getCore, hc, hm, hd]

theorem joinRound_unready (h : roundReady s k p = false) : joinRound s p k = s := by
  simp only [joinRound, h, Bool.not_false, if_true]

/-- Engines that are not ready take no part in the round. -/
theorem joinRounds_unready (l : List ClusterId) (h : ∀ x ∈ l, roundReady s x p = false) : l.foldl (fun s k => joinRound s p k) s = s := by
  induction l with
  | nil => rfl
  | cons x l ih => rw [List.foldl_cons, joinRound_unready (h x (by simp)), ih fun y hy => h y (List.mem_cons_of_mem x hy)]

/-- A round that one engine alone is ready for: it joins, and nobody else does. -/
theorem joinRounds_only {u : State} (hs : ∀ x, x ≠ k → roundReady s x p = false) (hj : joinRound s p k = u)
    (hu : ∀ x, x ≠ k → roundReady u x p = false) : allClusters.foldl (fun s k => joinRound s p k) s = u := by
  obtain ⟨before, after, hl⟩ := List.append_of_mem (List.mem_finRange k)
  have once : (before ++ k :: after).Nodup := hl ▸ List.nodup_finRange 16
  obtain ⟨-, hk, hb⟩ := List.nodup_append.mp once
  rw [allClusters, hl, List.foldl_append, joinRounds_unready before fun x hx => hs x (hb x hx k (by simp)), List.foldl_cons, hj,
    joinRounds_unready after fun x hx => hu x fun h => (List.nodup_cons.mp hk).1 (h ▸ hx)]

/-- What an engine that joins a round brings: whether it has marked anything since its last. -/
def roundWord (s : State) (k : ClusterId) (p : CompId) : GroupArrival :=
  { kind := some (.reduce 3), senders := 0, word := fix (BitVec.ofNat 64 (getPerc s k p).markedSince.toNat) }

/-- `s` with engine `k` in the round. -/
def joined (s : State) (k : ClusterId) (p : CompId) : State :=
  joinGroup (modPerc s k p fun e => { e with markedSince := false }) (roundGroup s k p) (engineKey k) (roundWord s k p)

/-- A ready engine that its group holds joins the round. -/
theorem joinRound_ready (h : roundReady s k p = true) (hv : (groupOf s (roundGroup s k p)).valid = true)
    (hc : (groupOf s (roundGroup s k p)).compart = compNo p) (he : bit (groupOf s (roundGroup s k p)).engmask k.val = true)
    (hf : (groupOf s (roundGroup s k p)).failed = false) (hi : (memberOf s (roundGroup s k p) (engineKey k)).st = .idle) :
    joinRound s p k = joined s k p := by
  simp [joinRound, h, hv, hc, he, hf, hi, joined, roundWord]

theorem getEng_joined (x : ClusterId) : getEng (joined s k p) x = getEng (modPerc s k p fun e => { e with markedSince := false }) x :=
  congrArg (fun v => v.get x) (joinGroup_engine _ (roundGroup s k p) k (roundWord s k p)).2.1

/-- What an engine has marked since its last round goes with its arrival. -/
theorem joined_markedSince : (getPerc (joined s k p) k p).markedSince = false := by
  rw [getPerc, getEng_joined, ← getPerc, getPerc_modPerc]

/-- No other engine becomes ready for a round by the arrival. -/
theorem roundReady_joined {x : ClusterId} (hx : x ≠ k) : roundReady (joined s k p) x p = roundReady s x p := by
  obtain ⟨cores, -, devid, -, -⟩ := joinGroup_engine (modPerc s k p fun e => { e with markedSince := false }) (roundGroup s k p) k (roundWord s k p)
  refine roundReady_congr ?_ cores (fun j => ?_) devid
  · rw [getPerc, getEng_joined, ← getPerc, getPerc_modPerc_of_ne s k x p p _ hx]
  · rw [getEng_joined, getEng_modPerc_marks]

theorem terminationRound_joined (h : roundReady s k p = true) (hs : ∀ x, x ≠ k → roundReady s x p = false)
    (hv : (groupOf s (roundGroup s k p)).valid = true) (hc : (groupOf s (roundGroup s k p)).compart = compNo p)
    (he : bit (groupOf s (roundGroup s k p)).engmask k.val = true) (hf : (groupOf s (roundGroup s k p)).failed = false)
    (hi : (memberOf s (roundGroup s k p) (engineKey k)).st = .idle) : exec (.terminationRound p) s = .next (joined s k p) := by
  rw [exec_terminationRound, execTerminationRound,
    joinRounds_only hs (joinRound_ready h hv hc he hf hi) fun x hx => (roundReady_joined hx).trans (hs x hx)]

end

/-! ## Scheduling windows (R203) -/

theorem schedulingWindow_begun (s : State) (k : ClusterId) : ∃ u, exec (.schedulingWindow k) s = .next u ∧ (∀ q, (getPerc u k q).used = 0)
    ∧ (∀ x, x ≠ k → getEng u x = getEng s x) ∧ u.cores = s.cores := by
  refine ⟨_, rfl, fun q => ?_, fun x hx => getEng_modEng_of_ne s k x _ hx, rfl⟩
  rw [getPerc, getEng_modEng, vget_eq, Vector.getElem_map]

/-! ## The services -/

/-- Settles O42: each service by the lemma that says what it does with its request. -/
theorem percolatorServices : Obligations.PercolatorServices := by
  intro k j p c f q m rest n e l s t b g fp qp cp work served drain
  refine ⟨answerFwd_core, fun hq hw h => ?_, fun hq hw hd => ⟨fun h => ?_, fun h => ?_⟩, markRequest_served, markBufferDrain_pushed, answerCards_only,
    fun hq hc => ⟨fun hl => ?_, fun hl h => ?_⟩, cardCopyComplete_copied, markStackSteal_halves, fun hr hs hv hc he hf hi => ?_,
    schedulingWindow_begun s k⟩
  · rw [forward_next hq hw, serveForward_done h]
  · rw [forwardCompletionNotice_waiting hq hw hd, serveForward_done h]
  · rw [forwardPoll_waiting hq hw hd, serveForward_done h]
  · exact cardRequest_failed hq hc (engRun_code (cardAsked_unmapped _ hl))
  · exact cardRequest_looked hq hc (by rw [cardAsked_mapped hl]; exact engRun_ok h)
  · obtain ⟨-, -, -, st, contrib⟩ := joinGroup_engine (modPerc s k p fun e => { e with markedSince := false }) (roundGroup s k p) k (roundWord s k p)
    refine ⟨_, terminationRound_joined hr hs hv hc he hf hi, joined_markedSince, st, contrib.trans ?_⟩
    simp only [roundWord]
    cases (getPerc s k p).markedSince with
    | true => rfl
    | false => rfl

end Sys2Proof.Machine
end

section
/-! PROOFS. The commands of a Percolator's ring (07 R180 to R184, R188, R196 to R199, R202): a write of `TAIL`, how a command that is taken up
runs to its result, the six operations where they have little to do, and the completion. -/

namespace Sys2Proof.Machine

/-! ## What a piece of work does to the command in progress -/

section

variable (s : State) (w : EngCtx) (k : ClusterId) (p : CompId)

@[simp] theorem em_modRun (f : PercRun → PercRun) :
    modRun k p f w s = .ok () (modPerc s k p fun e => { e with run := e.run.map f }) := rfl

/-- `s` with the command in progress at another place of its work. -/
def atPlace (stage pos : Nat) (s : State) : State :=
  modPerc s k p fun e => { e with run := e.run.map fun r => { r with stage := stage, pos := pos } }

@[simp] theorem em_setPlace (stage pos : Nat) : setPlace k p stage pos w s = .ok () (atPlace k p stage pos s) := rfl

theorem atPlace_run (stage pos : Nat) :
    (getPerc (atPlace k p stage pos s) k p).run = (getPerc s k p).run.map fun r => { r with stage := stage, pos := pos } := by
  rw [atPlace, getPerc_modPerc]

theorem atPlace_stack (stage pos : Nat) : (getPerc (atPlace k p stage pos s) k p).stack = (getPerc s k p).stack
    ∧ (getPerc (atPlace k p stage pos s) k p).memCount = (getPerc s k p).memCount := by
  rw [atPlace, getPerc_modPerc]
  exact ⟨rfl, rfl⟩

@[simp] theorem em_charge (n : Nat) :
    charge k p n w s = .ok () (modPerc s k p fun e => { e with used := e.used + (n + 19) / 20 }) := rfl

end

/-! ## How a command runs (R180, R203, R206) -/

section

variable {k : ClusterId} {p : CompId} {s t u : State} {r y : PercRun} {ws : List Word} {op n : Nat} {work : PercRun → EM Progress}

/-- The command unit carries command `r` on at once: it has no result yet, nothing is asked of another device, the compartment is within its
share, and no quiesce stops it. -/
def Carries (k : ClusterId) (p : CompId) (r : PercRun) (s : State) : Prop :=
  (getPerc s k p).run = some r ∧ r.result = none ∧ cmdAsks s k p = false ∧ withinShare s k p = true ∧ (getPerc s k p).stopped = false

theorem mayGo_of_withinShare (h : withinShare s k p = true) : mayGo s k p = true := by
  rw [mayGo, h, Bool.true_or]

/-- The command in progress makes a piece of its work and goes on. -/
theorem goOn_more (hb : Carries k p r s) (h : work r (cmdUnit k) s = .ok .more t) :
    goOn k p work (n + 1) s = goOn k p work n (forget t (cmdUnit k) p) := by
  obtain ⟨run, result, asks, share, stopped⟩ := hb
  simp [goOn, run, result, asks, mayGo_of_withinShare share, mayStop, stopped, takeTurn, share, engRun_ok h]

/-- The command in progress comes to its end. -/
theorem goOn_ended (hb : Carries k p r s) (h : work r (cmdUnit k) s = .ok .ended t) (hr : (getPerc t k p).run = some y) :
    goOn k p work (n + 1) s = setResult (forget t (cmdUnit k) p) k p (endCode y) := by
  obtain ⟨run, result, asks, share, stopped⟩ := hb
  simp [goOn, run, result, asks, mayGo_of_withinShare share, mayStop, stopped, takeTurn, share, engRun_ok h, hr]

/-- What an engine drops is none of what its command unit waits for. -/
theorem cmdAsks_forget (w : EngCtx) (h : cmdAsks s k p = false) : cmdAsks (forget s w p) k p = false := by
  rw [forget, dropGot]
  split
  · by_cases hk : k = w.eng
    · subst hk
      simp only [cmdAsks, getEng_modEng, List.any_eq_false] at h ⊢
      exact fun g hg => h g (List.mem_filter.mp hg).1
    · rw [cmdAsks, getEng_modEng_of_ne _ _ _ _ hk]
      exact h
  · exact h

/-- The words of a well-formed command are `BYTES`, so none of them is `POISON`. -/
theorem commandOk_clean (h : commandOk ws = true) : (ws.any fun w => w.tag == 0x08) = false := by
  have bytes : (ws.all fun w => w.tag == 0x06) = true := by
    simp only [commandOk, Bool.and_eq_true] at h
    simp only [h]
  rw [List.any_eq_false]
  intro w hw
  simp [eq_of_beq (List.all_eq_true.mp bytes w hw)]

/-- The row of its operation takes the ring's next command up. -/
theorem command_starts (hs : Starts k p s u ws) (ho : fld (ws.headD uninit).payload 0 8 = op) :
    command k p op work s = goOn k p work manyPieces u := by
  obtain ⟨t, ⟨may, low, high, fetch, ok⟩, hu, -⟩ := hs
  have idle : (getPerc s k p).run = none := by
    simp only [mayStart, Bool.and_eq_true, Option.isNone_iff_eq_none] at may
    exact may.1.1
  have size : ¬ ((getPerc s k p).log2n.toNat < 4 ∨ 12 < (getPerc s k p).log2n.toNat) := by omega
  simp only [command, idle, runCommand, may, Bool.not_true, Bool.false_eq_true, if_false, size, engRun_ok fetch, commandOk_clean ok, ho, ne_eq,
    not_true_eq_false, ok, if_true, hu, withRun]

theorem starts_carries (hs : Starts k p s u ws) : Carries k p (newRun ws) u := by
  obtain ⟨t, -, hu, share, asks, stopped⟩ := hs
  exact ⟨by rw [hu, withRun, getPerc_modPerc], rfl, asks, share, stopped⟩

/-- More pieces than any command has are more than two. -/
theorem manyPieces_eq : manyPieces = 2 ^ 62 - 2 + 1 + 1 := rfl

/-- A command whose first piece of work is its last has its result. -/
theorem command_ends (hs : Starts k p s u ws) (ho : fld (ws.headD uninit).payload 0 8 = op)
    (h : work (newRun ws) (cmdUnit k) u = .ok .ended t) (hr : (getPerc t k p).run = some y) :
    command k p op work s = setResult (forget t (cmdUnit k) p) k p (endCode y) := by
  rw [command_starts hs ho, manyPieces_eq, goOn_ended (starts_carries hs) h hr]

theorem setResult_run (code : Byte) (h : (getPerc s k p).run = some r) :
    (getPerc (setResult s k p code) k p).run = some { r with result := some (code, word3 r code) } := by
  rw [setResult, getPerc_modPerc, h, Option.map_some]

/-- The command in progress has ended with `OK` and this word 3. -/
def EndedOk (k : ClusterId) (p : CompId) (w3 : W64) (s : State) : Prop := ∃ y, (getPerc s k p).run = some y ∧ y.result = some (0x00, w3)

/-- A command that has met no error, no overflow and no word that it left unhealed has the result `OK`. -/
theorem setResult_endedOk (w : EngCtx) (h : (getPerc s k p).run = some r) (he : endCode r = 0) :
    EndedOk k p (word3 r 0) (setResult (forget s w p) k p (endCode r)) := by
  rw [he]
  exact ⟨_, setResult_run 0 ((congrArg Perc.run (getPerc_forget s k p p w)).trans h), rfl⟩

/-- Word 3 of a command that has counted nothing. -/
theorem word3_nothing (h0 : r.count0 = 0) (h1 : r.count1 = 0) (hb : r.bytes = 0) : word3 r 0 = 0 := by
  have none : counts r = 0 := by simp [counts, h0, h1]
  unfold word3
  split
  · rw [none, if_pos (.inl rfl)]
  · exact congrArg _ hb
  · exact congrArg _ h0
  · exact none

/-- A command that is over with its first piece of work, and has met and counted nothing. -/
theorem command_over (hs : Starts k p s u ws) (ho : fld (ws.headD uninit).payload 0 8 = op)
    (h : work (newRun ws) (cmdUnit k) u = .ok .ended t) (hr : (getPerc t k p).run = some y) (he : endCode y = 0) (h0 : y.count0 = 0)
    (h1 : y.count1 = 0) (hb : y.bytes = 0) : EndedOk k p 0 (command k p op work s) := by
  rw [command_ends hs ho h hr, ← word3_nothing h0 h1 hb]
  exact setResult_endedOk _ hr he

/-- Word 3 of a `SCRUB` counts the bytes that it has written. -/
theorem word3_scrub (code : Byte) (ho : fld (r.words.headD 0) 0 8 = 4) : word3 r code = BitVec.ofNat 64 r.bytes := by
  simp only [word3, ho]

end

/-! ## The words of a command -/

/-- The command that four payloads spell. -/
def commandOf (h a b w3 : W64) : List Word := [⟨0x06, h⟩, ⟨0x06, a⟩, ⟨0x06, b⟩, ⟨0x06, w3⟩]

section

variable (h a b w3 : W64)

/-- Bit `i` of the options. -/
theorem newRun_opt {i : Nat} (hi : i < 8) : cmdOpt (newRun (commandOf h a b w3)) i = (h.toNat / 2 ^ 16 % 256).testBit i := by
  have word : cmdOpt (newRun (commandOf h a b w3)) i = h.toNat.testBit (16 + i) := rfl
  rw [word, show (256 : Nat) = 2 ^ 8 from rfl, Nat.testBit_mod_two_pow, Nat.testBit_div_two_pow, Nat.add_comm i 16, decide_eq_true hi, Bool.true_and]

/-- Without options every option is off. -/
theorem newRun_noOpt (ho : h.toNat / 2 ^ 16 % 256 = 0) {i : Nat} (hi : i < 8) : cmdOpt (newRun (commandOf h a b w3)) i = false := by
  rw [newRun_opt h a b w3 hi, ho, Nat.zero_testBit]

end

/-! ## `MARK` without roots (R188 to R191) -/

section

variable {k : ClusterId} {p : CompId} {s : State} {r : PercRun}

theorem traceOne_empty (w : EngCtx) (hs : (getPerc s k p).stack = []) (hm : (getPerc s k p).memCount = 0) : traceOne k p w s = .ok false s := by
  have pop : stackPop k p w s = .ok none s := by
    simp only [stackPop, em_bind, em_eget, hs, hm, if_true, em_pure]
  simp only [traceOne, em_bind, pop, em_pure]

/-- With nothing on the stack and no termination asked for, the tracing is over. -/
theorem markTrace_empty (w : EngCtx) (ht : cmdOpt r 0 = false) (hs : (getPerc s k p).stack = []) (hm : (getPerc s k p).memCount = 0) :
    markTrace k p r w s = .ok .ended s := by
  simp only [markTrace, em_bind, traceOne_empty w hs hm, ht, Bool.false_eq_true, if_false, Bool.not_false, if_true, em_pure]

/-- Without a root range the tracing comes at once. -/
theorem markRoots_none (w : EngCtx) (ht : cmdOpt r 0 = false) (ha : cmdWord r 1 = 0) (hs : (getPerc s k p).stack = [])
    (hm : (getPerc s k p).memCount = 0) : markRoots k p r 0 w s = .ok .ended (atPlace k p 3 0 s) := by
  obtain ⟨stack, mem⟩ := atPlace_stack s k p 3 0
  rw [markRoots, if_neg fun h => h.1 ha, em_bind, em_setPlace]
  exact markTrace_empty w ht (stack.trans hs) (mem.trans hm)

theorem markRescan_off (hr : cmdOpt r 1 = false) : markRescan k p r = markRoots k p r 0 := by
  simp [markRescan, hr]

/-- The first piece of a `MARK` ends what an earlier one has completed (R187), and looks for regions to scan again. -/
theorem workMark_begins (w : EngCtx) (h0 : r.stage = 0) : workMark k p r w s
    = markRescan k p { r with pos := 0 } w (atPlace k p 1 0 (modPerc s k p fun e => { e with termDone := false })) := by
  cases r
  cases h0
  rfl

/-- A `MARK` with no region to scan again and no root is over with its first piece. -/
theorem workMark_nothing (w : EngCtx) (h0 : r.stage = 0) (ht : cmdOpt r 0 = false) (hr : cmdOpt r 1 = false) (ha : cmdWord r 1 = 0)
    (hs : (getPerc s k p).stack = []) (hm : (getPerc s k p).memCount = 0) :
    workMark k p r w s = .ok .ended (atPlace k p 3 0 (atPlace k p 1 0 (modPerc s k p fun e => { e with termDone := false }))) := by
  obtain ⟨stack, mem⟩ := atPlace_stack (modPerc s k p fun e => { e with termDone := false }) k p 1 0
  rw [getPerc_modPerc] at stack mem
  rw [workMark_begins w h0, markRescan_off (r := { r with pos := 0 }) hr]
  exact markRoots_none w ht ha (stack.trans hs) (mem.trans hm)

end

/-! ## Empty ranges (R197, R199) -/

section

variable {k : ClusterId} {p : CompId} {s : State} (r : PercRun)

theorem workRemap_empty (w : EngCtx) (hp : r.put = none) (hb : cmdWord r 2 = 0) : workRemap k p r w s = .ok .ended s := by
  simp [workRemap, hp, hb]

theorem workCleanLog_empty (w : EngCtx) (hab : cmdWord r 1 = cmdWord r 2) : workCleanLog k p r w s = .ok .ended s := by
  simp [workCleanLog, hab]

end

/-! ## `SCRUB` of a line of this device (R198) -/

section

variable {k : ClusterId} {p : CompId} {s : State} {r : PercRun} {pa : BitVec 44} {o : Nat}

/-- The writes of a line of one word throughout. -/
def lineWrites (pa : BitVec 44) (x : Word) : List WordWrite := (List.range 8).map fun i => wholeWrite (pa + BitVec.ofNat 44 (8 * i)) x

/-- A line of this device that an engine writes whole. -/
theorem engWriteBlock_line (w : EngCtx) (x : Word) (hd : paDev pa = s.devid) (ho : engOff p pa w s = .ok o s) :
    engWriteBlock k p pa (List.replicate 8 x) w s = .ok () (l2Store s k (compWays s k (compNo p)) (lineWrites pa x)) := by
  have line : engWriteLine k p (lineWrites pa x) w s = .ok () (l2Store s k (compWays s k (compNo p)) (lineWrites pa x)) := by
    have first : pa + BitVec.ofNat 44 (8 * 0) = pa := by simp
    have head : lineWrites pa x = wholeWrite pa x :: (lineWrites pa x).tail := by
      rw [lineWrites, List.range_succ_eq_map, List.map_cons, first]
      rfl
    rw [head, engWriteLine]
    simp [hd, ho, wholeWrite]
  have writes : ((List.range 8).map fun i => wholeWrite (pa + BitVec.ofNat 44 (64 * 0 + 8 * i)) ((List.replicate 8 x).getD (8 * 0 + i) uninit))
      = lineWrites pa x := List.map_congr_left fun i hi => by
    rw [List.getD_eq_getElem?_getD, List.getElem?_replicate_of_lt (by simpa using hi), Nat.mul_zero, Nat.zero_add]
    rfl
  simp only [engWriteBlock, em_bind, em_eget, hd, ne_eq, not_true_eq_false, false_and, if_false, List.length_replicate, Nat.reduceDiv, List.range_one,
    List.forM_eq_forM, List.forM_cons, List.forM_nil, writes, line]
  rfl

/-- `s` with a line scrubbed by the command in progress, which has used the engine for its 64 bytes (R203). -/
def scrubbed (k : ClusterId) (p : CompId) (pa : BitVec 44) (s : State) : State :=
  modPerc (modPerc (l2Store s k (compWays s k (compNo p)) (lineWrites pa uninit)) k p fun e =>
    { e with run := e.run.map fun r => { r with pos := r.pos + 1, bytes := r.bytes + 64 } }) k p fun e => { e with used := e.used + 4 }

/-- The first piece of a `SCRUB` by physical address, of one line and with `UNINIT`. -/
theorem workScrub_line (w : EngCtx) (hp : r.pos = 0) (hb : cmdWord r 2 = 64) (h0 : cmdOpt r 0 = false) (h1 : cmdOpt r 1 = true)
    (ha : (cmdWord r 1).toNat < 2 ^ 44) (hpa : (cmdWord r 1).setWidth 44 = pa) (hd : paDev pa = s.devid) (ho : engOff p pa w s = .ok o s) :
    workScrub k p r w s = .ok .more (scrubbed k p pa s) := by
  have top : fld (cmdWord r 1) 44 20 = 0 := by
    rw [fld, Nat.shiftRight_eq_div_pow, Nat.div_eq_of_lt ha, Nat.zero_mod]
  have place : cmdWord r 1 + BitVec.ofNat 64 (64 * r.pos) = cmdWord r 1 := by simp [hp]
  have here : scrubPa k p true (cmdWord r 1) w s = .ok pa s := by
    simp only [scrubPa, if_true, top, ne_eq, not_true_eq_false, if_false, em_pure, hpa]
  have one : scrubLines s pa 1 = 1 := by rw [scrubLines, if_pos hd]
  have left : (cmdWord r 2).toNat / 64 - r.pos = 1 := by rw [hb, hp]; rfl
  simp only [workScrub, left, Nat.one_ne_zero, if_false, place, h0, h1, em_bind, here, em_eget, one, Nat.mul_one, Bool.false_eq_true,
    engWriteBlock_line w uninit hd ho, em_modRun, em_charge, em_pure, Nat.reduceAdd, Nat.reduceDiv, scrubbed]

theorem workScrub_over (w : EngCtx) (hb : cmdWord r 2 = 64) (hp : r.pos = 1) : workScrub k p r w s = .ok .ended s := by
  have left : (cmdWord r 2).toNat / 64 - r.pos = 0 := by rw [hb, hp]; rfl
  simp only [workScrub, left, if_true, em_pure]

/-- An update of a compartment's registers asks nothing of another device. -/
theorem cmdAsks_modPerc (f : Perc → Perc) : cmdAsks (modPerc s k p f) k p = cmdAsks s k p := by
  simp only [cmdAsks, modPerc, getEng_modEng]

theorem cmdAsks_of_engines {t : State} (h : t.engines = s.engines) : cmdAsks t k p = cmdAsks s k p := by
  simp only [cmdAsks, getEng, h]

theorem getPerc_scrubbed : getPerc (scrubbed k p pa s) k p = { getPerc s k p with
    run := (getPerc s k p).run.map fun r => { r with pos := r.pos + 1, bytes := r.bytes + 64 }, used := (getPerc s k p).used + 4 } := by
  have stored (l : List WordWrite) : getPerc (l2Store s k (compWays s k (compNo p)) l) k p = getPerc s k p := by
    rw [getPerc, getEng, enginesLeft.l2Store]
    rfl
  simp only [scrubbed, getPerc_modPerc, stored]

/-- With four cycles of its share left, the command goes on behind the line. -/
theorem carries_scrubbed (hb : Carries k p r s) (hu : (getPerc s k p).used + 4 < 256 * percShare s k p) :
    Carries k p { r with pos := r.pos + 1, bytes := r.bytes + 64 } (forget (scrubbed k p pa s) (cmdUnit k) p) := by
  obtain ⟨run, result, asks, -, stopped⟩ := hb
  refine ⟨?_, result, cmdAsks_forget _ ?_, ?_, ?_⟩
  · rw [getPerc_forget, getPerc_scrubbed, run, Option.map_some]
  · rw [scrubbed, cmdAsks_modPerc, cmdAsks_modPerc, cmdAsks_of_engines (enginesLeft.l2Store s k _ _), asks]
  · have share : percShare (forget (scrubbed k p pa s) (cmdUnit k) p) k p = percShare s k p := by
      have res : (getComp (forget (scrubbed k p pa s) (cmdUnit k) p) p).res = (getComp s p).res := by
        rw [getComp, forget_comps, scrubbed, modPerc_comps, modPerc_comps, ← getComp, (resourcesLeft p).l2Store s k]
      rw [percShare, res, percShare]
    rw [withinShare, getPerc_forget, getPerc_scrubbed, share]
    exact decide_eq_true hu
  · rw [getPerc_forget, getPerc_scrubbed]
    exact stopped

/-- A `SCRUB` of one line writes it and ends. -/
theorem command_scrub_eq {u : State} {ws : List Word} (hs : Starts k p s u ws) (hop : fld (ws.headD uninit).payload 0 8 = 4)
    (hu : (getPerc u k p).used + 4 < 256 * percShare u k p) (hw : workScrub k p (newRun ws) (cmdUnit k) u = .ok .more (scrubbed k p pa u))
    (hb : cmdWord (newRun ws) 2 = 64) : command k p 4 (workScrub k p) s
      = setResult (forget (forget (scrubbed k p pa u) (cmdUnit k) p) (cmdUnit k) p) k p (endCode { newRun ws with pos := 1, bytes := 64 }) := by
  have behind := carries_scrubbed (pa := pa) (starts_carries hs) hu
  rw [command_starts hs hop, manyPieces_eq, goOn_more (starts_carries hs) hw, goOn_ended behind (workScrub_over _ hb rfl) behind.1]
  rfl

end

/-! ## `RELOCATE` of a region without marked objects (R196) -/

section

variable {k : ClusterId} {p : CompId} {s t : State} {c : PercRun} {r : Region} {ra : Byte}

/-- No word of the bitmap from word `i` on has a bit set. -/
theorem nextMarked_none (w : EngCtx) (h : ∀ i < 4096, tabRead k p (r.bitmap + BitVec.ofNat 44 (8 * i)) w s = .ok 0 s) (n i : Nat)
    (hn : i + n ≤ 4096) : nextMarked k p r n (64 * i) w s = .ok none s := by
  induction n generalizing i with
  | zero => rfl
  | succ n ih =>
    have word : 64 * i / 64 = i := Nat.mul_div_cancel_left i (by decide)
    have clear : (bitsSet (0 : W64)).find? (fun b => 64 * i % 64 ≤ b) = none := by
      rw [show bitsSet (0 : W64) = [] by decide, List.find?_nil]
    simp only [nextMarked, em_bind, word, h i (by omega), clear]
    rw [Nat.mul_comm]
    exact ih (i + 1) (by omega)

theorem workRelocate_unmarked (w : EngCtx) (hp : c.pos = 0) (ho : cmdOpt c 0 = false)
    (hr : commandRegion k p (va48 (cmdWord c 1)) w s = .ok (r, ra) t) (hs : raState ra = 3) (hk : r.kind ≠ 3)
    (hm : ∀ i < 4096, tabRead k p (r.bitmap + BitVec.ofNat 44 (8 * i)) w t = .ok 0 t) : workRelocate k p c w s = .ok .ended t := by
  have none := nextMarked_none w hm 4096 0 (by omega)
  simp [workRelocate, hr, hp, hs, hk, none, ho]

end

/-! ## `SNAPSHOT_COPY` of a region whose cards are copied (R202) -/

section

variable {k : ClusterId} {p : CompId} {s t : State} {c : PercRun} {r : Region} {ra : Byte}

/-- No card from card `i` on is left to copy. -/
theorem nextCard_none (w : EngCtx) (h : ∀ i < 4096, copyCard k p (r.base + BitVec.ofNat 44 (512 * i)) w s = .ok false s) (n i : Nat)
    (hn : i + n ≤ 4096) : nextCard k p r n i w s = .ok none s := by
  induction n generalizing i with
  | zero => rfl
  | succ n ih =>
    simp only [nextCard, em_bind, h i (by omega), Bool.false_eq_true, if_false]
    exact ih (i + 1) (by omega)

theorem workSnapshotCopy_copied (w : EngCtx) (hp : c.pos = 0) (ho : cmdOpt c 0 = false)
    (hr : commandRegion k p (va48 (cmdWord c 1)) w s = .ok (r, ra) t)
    (hc : ∀ i < 4096, copyCard k p (r.base + BitVec.ofNat 44 (512 * i)) w t = .ok false t) :
    workSnapshotCopy k p c w s = .ok .ended (regionCopied t p r.base) := by
  have none := nextCard_none w hc 4096 0 (by omega)
  simp only [workSnapshotCopy, em_bind, hr, hp, Nat.sub_zero, none, ho, Bool.false_eq_true, if_false, em_emod, em_pure]

theorem regionCopied_snap (s : State) (p : CompId) (pa : BitVec 44) : (getComp (regionCopied s p pa) p).snap
    = (getComp s p).snap.map fun y => { y with copied := y.copied ++ [physRegion pa] } := by
  rw [regionCopied, getComp_modComp]

end

/-! ## `TAIL` and completion (R180, R182) -/

section

variable {k : ClusterId} {p : CompId} {s t : State}

theorem writeTail_eq (v : W64) : writeTail s k p v = if 2 ^ (getPerc s k p).log2n.toNat ≤ v.toNat % 4096
    then modPerc s k p fun e => { e with tail := v.setWidth 12, rerr := true, en := false }
    else modPerc s k p fun e => { e with tail := v.setWidth 12 } := by
  have number : fld v 0 12 = v.toNat % 4096 := rfl
  have tail : BitVec.ofNat 12 (v.toNat % 4096) = v.setWidth 12 := by rw [← number, ofNat_fld, BitVec.ushiftRight_zero]
  simp only [writeTail, number, tail, getPerc_modPerc, ringError, modPerc_modPerc]

/-- What a completed command leaves of the engine's registers: the ring goes on, and `LASTERR` and `PRC_IRQ` follow the result. -/
def retired (hdr : W64) (code : Byte) (e : Perc) : Perc :=
  { e with run := none, head := BitVec.ofNat 12 ((e.head.toNat + 1) % 2 ^ e.log2n.toNat), lasterr := if code = 0 then e.lasterr else code
           irq := bvSet (bvSet e.irq 0 (bit e.irq 0 || bit hdr 8)) 2 (bit e.irq 2 || code != 0) }

theorem retireCommand_perc (hdr : W64) (code : Byte) : getPerc (retireCommand s k p hdr code) k p = retired hdr code (getPerc s k p) := by
  have dropped : getPerc (dropCmdGot s k p) k p = getPerc s k p := getPerc_dropGot s k p p _ _
  have logged (t : State) : getPerc (logErr t 0x0A 1 p.val k.val 0 (code.setWidth 64)) k p = getPerc t k p := by
    rw [getPerc, getEng, enginesLeft.entry]
    rfl
  simp only [retireCommand, apply_ite (fun t => getPerc t k p), logged, ite_self, getPerc_modPerc, dropped]
  rfl

theorem commandComplete_written {run : PercRun} {code : Byte} {w3 : W64} (hr : (getPerc s k p).run = some run) (hc : run.result = some (code, w3))
    (hw : completionWrites k p (slotPa (getPerc s k p)) (cmdWord run 0) code w3 (cmdUnit k) s = .ok () t) :
    exec (.percolatorCommandComplete k p) s = .next (retireCommand (forget t (cmdUnit k) p) k p (cmdWord run 0) code) := by
  simp only [exec_percolatorCommandComplete, execPercolatorCommandComplete, hr, hc, completeCommand, engRun_ok hw]

end

/-! ## The commands -/

section

variable {k : ClusterId} {p : CompId} {s t u : State} {h a b w3 : W64} {r : Region} {ra : Byte} {o : Nat}

theorem command_mark (hs : Starts k p s u (commandOf h a b w3)) (hop : h.toNat % 256 = 1) (ho : h.toNat / 2 ^ 16 % 256 = 0) (ha : a = 0)
    (hstack : (getPerc u k p).stack = []) (hmem : (getPerc u k p).memCount = 0) : EndedOk k p 0 (command k p 1 (workMark k p) s) := by
  have work := workMark_nothing (r := newRun (commandOf h a b w3)) (cmdUnit k) rfl (newRun_noOpt h a b w3 ho (by decide))
    (newRun_noOpt h a b w3 ho (by decide)) ha hstack hmem
  exact command_over hs hop work (by
    rw [atPlace_run, atPlace_run, getPerc_modPerc, (starts_carries hs).1, Option.map_some, Option.map_some]) rfl rfl rfl rfl

/-- What a `SCRUB` of one line by its physical address leaves: its result, and memory as the store of the line leaves it. -/
theorem command_scrub (hs : Starts k p s u (commandOf h a b w3)) (hop : h.toNat % 256 = 4) (ho : h.toNat / 2 ^ 16 % 256 = 2) (ha : a.toNat < 2 ^ 44)
    (hb : b = 64) (hd : paDev (a.setWidth 44) = u.devid) (hoff : engOff p (a.setWidth 44) (cmdUnit k) u = .ok o u)
    (hu : (getPerc u k p).used + 4 < 256 * percShare u k p) :
    let x := command k p 4 (workScrub k p) s
    let y := l2Store u k (compWays u k (compNo p)) (lineWrites (a.setWidth 44) uninit)
    EndedOk k p 64 x ∧ x.dram = y.dram ∧ x.clusters = y.clusters := by
  have opt {i : Nat} (hi : i < 8) : cmdOpt (newRun (commandOf h a b w3)) i = (2 : Nat).testBit i := by rw [newRun_opt h a b w3 hi, ho]
  have work := workScrub_line (r := newRun (commandOf h a b w3)) (pa := a.setWidth 44) (k := k) (cmdUnit k) rfl hb (opt (by decide)) (opt (by decide)) ha
    rfl hd hoff
  have behind := carries_scrubbed (pa := a.setWidth 44) (starts_carries hs) hu
  have bytes : word3 { newRun (commandOf h a b w3) with pos := 1, bytes := 64 } 0 = 64 := word3_scrub 0 hop
  intro x y
  rw [show x = _ from command_scrub_eq hs hop hu work hb]
  refine ⟨bytes ▸ setResult_endedOk _ behind.1 rfl, ?_, ?_⟩
  · rw [setResult, modPerc_dram, forget_dram, forget_dram, scrubbed, modPerc_dram, modPerc_dram]
  · rw [setResult, modPerc_clusters, forget_clusters, forget_clusters, scrubbed, modPerc_clusters, modPerc_clusters]

/-- A `SNAPSHOT_COPY` that finds nothing to copy notes that its region is copied. -/
theorem command_snapshotCopy (hs : Starts k p s u (commandOf h a b w3)) (hop : h.toNat % 256 = 6) (ho : h.toNat / 2 ^ 16 % 256 = 0)
    (hr : commandRegion k p (va48 a) (cmdUnit k) u = .ok (r, ra) t) (hrun : (getPerc t k p).run = some (newRun (commandOf h a b w3)))
    (hc : ∀ i < 4096, copyCard k p (r.base + BitVec.ofNat 44 (512 * i)) (cmdUnit k) t = .ok false t) :
    let x := command k p 6 (workSnapshotCopy k p) s
    EndedOk k p 0 x ∧ (getComp x p).snap = (getComp t p).snap.map fun z => { z with copied := z.copied ++ [physRegion r.base] } := by
  have work := workSnapshotCopy_copied (c := newRun (commandOf h a b w3)) (cmdUnit k) rfl (newRun_noOpt h a b w3 ho (by decide)) hr hc
  refine ⟨command_over hs hop work hrun rfl rfl rfl rfl, ?_⟩
  rw [command_ends hs hop work hrun, ← regionCopied_snap t p r.base, getComp, setResult, modPerc_comps, forget_comps, getComp]

end

/-- Settles O41: each operation by the lemma that says what its pieces of work do, the others by `writeTail_eq` and `retireCommand_perc`. -/
theorem percolatorCommands : Obligations.PercolatorCommands := by
  intro k p s u t t1 h a b w3 v r ra o run code e unit ws op opts Ends line
  have ends {i : Instr} {x : State} {w : W64} (hi : exec i s = .next x) : EndedOk k p w x → Ends i w := fun ⟨y, hy, hr⟩ => ⟨x, y, hi, hy, hr⟩
  refine ⟨congrArg Host.Outcome.next (writeTail_eq v), fun hs => ⟨fun hop ho ha hstack hmem => ?_, fun hop hb => ?_, fun hop hab => ?_,
    fun hop ho ha hb hd hoff hu => ?_, fun hop ho hr hrun hst hk hm => ?_, fun hop ho hr hrun hc => ?_⟩, fun hr hc hw => ?_⟩
  · exact ends (exec_mark s k p) (command_mark hs hop ho ha hstack hmem)
  · exact ends (exec_remap s k p) (command_over hs hop (workRemap_empty (newRun ws) (cmdUnit k) rfl hb) (starts_carries hs).1 rfl rfl rfl rfl)
  · exact ends (exec_cleanLog s k p) (command_over hs hop (workCleanLog_empty (newRun ws) (cmdUnit k) hab) (starts_carries hs).1 rfl rfl rfl rfl)
  · obtain ⟨⟨y, hy, hr⟩, dram, clusters⟩ := command_scrub hs hop ho ha hb hd hoff hu
    exact ⟨_, y, exec_scrub s k p, hy, hr, dram, clusters⟩
  · have work := workRelocate_unmarked (c := newRun ws) (cmdUnit k) rfl (newRun_noOpt h a b w3 ho (by decide)) hr hst hk hm
    exact ends (exec_relocate s k p) (command_over hs hop work hrun rfl rfl rfl rfl)
  · obtain ⟨⟨y, hy, hr'⟩, snap⟩ := command_snapshotCopy hs hop ho hr hrun hc
    exact ⟨_, y, exec_snapshotCopy s k p, hy, hr', snap⟩
  · exact ⟨_, commandComplete_written hr hc hw, (retireCommand_perc _ code).trans (congrArg _ (getPerc_forget t k p p _))⟩

end Sys2Proof.Machine
end

section
/-! PROOFS. `SYSCALL` and `BRK` (09 R260) and `HALT` (04 R92, R111). -/

namespace Sys2Proof.Machine

section

variable {c : CoreId} {s s1 : State}

theorem syscall_raises {n : BitVec 5} (h : Takes c (.syscall c n) s s1) : exec (.syscall c n) s = .next (raiseAt c
    { vec := 0x20 + n.setWidth 8, sub := 0, epc := va48 ((getCore s1 c).pc + 4), eaddr := 0, einfo := va48 (getCore s1 c).pc
      impr := false, inrep := false } s1) :=
  issue_exc h rfl

theorem brk_raises {m : BitVec 12} (h : Takes c (.brk c m) s s1) : exec (.brk c m) s = .next (raiseAt c
    { vec := 0x17, sub := 0, epc := (getCore s1 c).pc, eaddr := 0, einfo := m.setWidth 64, impr := false, inrep := false } s1) :=
  issue_exc h (by simp only [bodyBrk, cm_raise])

theorem halt_sys (h : Takes c (.halt c) s s1) (hs : isSys (getCore s1 c) = true) :
    exec (.halt c) s = .next (advanced c (.halt c) {} (modCore s1 c fun k => { k with run := .halted })) := by
  refine issue_plain h ?_ (by rw [getCore_modCore])
  simp only [bodyHalt, cm_thenNext, cm_bind, sysOnly_sys hs, cm_cmod]

theorem halt_user (h : Takes c (.halt c) s s1) (hu : isSys (getCore s1 c) = false) :
    exec (.halt c) s = .next (raiseAt c (privilegeExc (getCore s1 c) (.halt c)) s1) :=
  issue_exc h (by simp only [bodyHalt, cm_thenNext, cm_bind, sysOnly_user hu])

end

/-- Settles O24: each instruction by what its operation raises or leaves. -/
theorem systemCallsAndHalt : Obligations.SystemCallsAndHalt :=
  ⟨fun _ _ _ _ _ => ⟨syscall_raises, brk_raises⟩, fun _ _ _ h => ⟨halt_sys h, halt_user h⟩⟩

end Sys2Proof.Machine
end

section
/-! PROOFS. Entry into an exception (09 R244, R245) and return from one (09 R250). -/

namespace Sys2Proof.Machine

/-! ## What entry makes of a core (09 R244) -/

section

variable (k : Core) (v : W64) (n : Nat)

/-- `STATUS` reaches neither the registers nor the store queue. -/
theorem setStatus_frame : (setStatus k v).banks = k.banks ∧ (setStatus k v).exc = k.exc ∧ (setStatus k v).sq = k.sq
    ∧ (setStatus k v).instret = k.instret := by
  simp only [setStatus, putForce]
  split <;> exact ⟨rfl, rfl, rfl, rfl⟩

@[simp] theorem setStatus_banks : (setStatus k v).banks = k.banks := (setStatus_frame k v).1

/-- What entry clears of an edge source stands among the interrupt registers. -/
theorem clearEdge_frame : ∃ q, clearEdge k n = { k with irq := q } := by
  unfold clearEdge
  split
  · exact ⟨_, rfl⟩
  · split
    · exact ⟨_, rfl⟩
    · split
      · exact ⟨_, rfl⟩
      · exact ⟨k.irq, rfl⟩

/-- Registers are those of the banks. -/
theorem regOf_congr {a b : Core} (h : a.banks = b.banks) (l : Fin 8) (r : Reg) : regOf a l r = regOf b l r := by
  simp only [regOf, bankOf, h]

/-- A write of a register leaves every other register of every bank alone. -/
theorem regOf_setRegOf_other {l b : Fin 8} {r q : Reg} (w : Word) (h : l ≠ b ∨ q ≠ r) : regOf (setRegOf k b r w) l q = regOf k l q := by
  by_cases hb : l = b
  · subst hb
    exact regOf_setRegOf_of_ne k l r w q (h.resolve_left fun hne => hne rfl)
  · unfold setRegOf
    split
    · rfl
    · rw [regOf, regOf, bankOf_modBank_of_ne k b _ l hb]

end

/-! ## Taking an exception (09 R244, R245) -/

/-- The level at which the handler of vector `v` runs. -/
def entryLevel (k : Core) (v : Byte) (d0 : W64) : Nat :=
  if 0x40 ≤ v.toNat then (smGet 0 k.irq.level v.toNat).toNat else max (fld d0 1 3) (ipl k).val

/-- The bank in which the handler runs. -/
def entryBank (k : Core) (v : Byte) (d0 : W64) : Fin 8 := Fin.ofNat 8 (entryLevel k v d0)

/-- The word that names the handler's stack. -/
def entryStack (k : Core) (v : Byte) (d0 : W64) : Word :=
  let here := regOf k (ipl k) 31
  if fld d0 5 2 = 0 then here
  else if fld d0 5 2 = 1 then (if entryBank k v d0 = ipl k then here else k.mmu.lsp.get (entryBank k v d0))
  else (if isSys k then here else k.mmu.ssp)

/-- `ECAUSE` of an entry that no return chains into. -/
def entryCause (k : Core) (e : ExcArgs) : W64 := causeWord e.vec e.sub e.impr e.inrep (!k.st.shadow.isEmpty) false

/-- Where the frame of an entry lies. -/
def entryFrame (k : Core) (v : Byte) (d0 : W64) : W64 := ((entryStack k v d0).payload - 48) &&& ~~~15

/-- The words of the frame, the empty marker of a numeric save area among them. -/
def entryWords (k : Core) (e : ExcArgs) (d0 : W64) : List (W64 × Word) :=
  let f := entryFrame k e.vec d0
  let old := regOf k (entryBank k e.vec d0) 31
  [(f, bytesW (va48 e.epc)), (f + 8, bytesW (statusShown k)), (f + 16, bytesW (setFld (entryCause k e) 56 8 old.tag.toNat)),
    (f + 24, bytesW e.eaddr), (f + 32, bytesW e.einfo), (f + 40, bytesW old.payload)] ++ if bit d0 7 then [(f - 8, bytesW 0)] else []

/-- What an entry that `k` decides makes of the core `t` that its frame's stores leave. -/
def handlerCore (k : Core) (e : ExcArgs) (d0 d1 : W64) (t : Core) : Core :=
  let f := entryFrame k e.vec d0
  let t := setRegOf t (entryBank k e.vec d0) 31 ⟨(entryStack k e.vec d0).tag, if bit d0 7 then f - 1040 else f⟩
  let t := clearEdge (setStatus t (handlerStatus t.st.newest d0 (entryLevel k e.vec d0))) e.vec.toNat
  { t with exc := { epc := va48 e.epc &&& ~~~3, ecause := entryCause k e, eaddr := e.eaddr, einfo := e.einfo }, pc := d1, run := .running }

section

variable (k t : Core) (e : ExcArgs) (d0 d1 : W64)

theorem handlerCore_frame : (handlerCore k e d0 d1 t).banks = (setRegOf t (entryBank k e.vec d0) 31
      ⟨(entryStack k e.vec d0).tag, if bit d0 7 then entryFrame k e.vec d0 - 1040 else entryFrame k e.vec d0⟩).banks
    ∧ (handlerCore k e d0 d1 t).sq = t.sq
    ∧ (handlerCore k e d0 d1 t).st = (setStatus t (handlerStatus t.st.newest d0 (entryLevel k e.vec d0))).st := by
  simp only [handlerCore]
  obtain ⟨q, hq⟩ := clearEdge_frame (setStatus _ _) e.vec.toNat
  obtain ⟨hbanks, -, hsq, -⟩ := setStatus_frame (setRegOf t _ _ _) _
  rw [hq]
  refine ⟨hbanks, hsq.trans (setRegOf_sq t _ _ _), ?_⟩
  simp only [setRegOf_st]
  rfl

end

section

variable {c : CoreId} {e : ExcArgs} {s s1 s2 : State} {d0 d1 : Word}

theorem orLockup_ok {α : Type} {m : CM α} {x : α} (cause : Byte) (h : m s = .ok x s1) : orLockup c e cause m s = .ok x s1 := by
  simp only [orLockup, tryCatch, tryCatchThe, MonadExceptOf.tryCatch, EStateM.tryCatch, h]

/-- Entry from the point where the descriptor `d0`, `d1` has been found good. -/
def enterDescribed (c : CoreId) (e : ExcArgs) (d0 d1 : W64) : CM Unit := do
  let k ← cget c
  if (entryStack k e.vec d0).tag = 0x07 ∨ (entryStack k e.vec d0).tag = 0x08 ∨ isReserved (entryStack k e.vec d0).tag then lockup c e 0x04
  orLockup c e 0x03 (writeFrame c (!bit d0 4) (entryWords k e d0))
  cmod c (handlerCore k e d0 d1)

theorem enterBody_described (hbase : bit (getCore s c).mmu.dtbase 0 = true) (hrom : (getCore s c).micro.table = [])
    (hread : readDescriptor c e.vec s = .ok (d0, d1) s1) (hd : descriptorOk d0 d1 = true) :
    enterBody c e s = enterDescribed c e d0.payload d1.payload s1 := by
  simp only [enterBody, cm_bind, cm_cget, hbase, Bool.not_true, Bool.false_eq_true, if_false, enterRom_no_microcode hrom,
    orLockup_ok _ hread, hd]
  rfl

/-- A stack word that may be consumed, and a frame that can be written. -/
theorem enterDescribed_ok {d0 d1 : W64} (hstack : plainWord (entryStack (getCore s c) e.vec d0) = true)
    (hwrite : writeFrame c (!bit d0 4) (entryWords (getCore s c) e d0) s = .ok () s2) :
    enterDescribed c e d0 d1 s = .ok () (modCore s2 c (handlerCore (getCore s c) e d0 d1)) := by
  have plain : ¬ ((entryStack (getCore s c) e.vec d0).tag = 0x07 ∨ (entryStack (getCore s c) e.vec d0).tag = 0x08
      ∨ isReserved (entryStack (getCore s c) e.vec d0).tag = true) := by
    simpa [plainWord, and_assoc] using hstack
  simp only [enterDescribed, cm_bind, cm_cget, if_neg plain, orLockup_ok _ hwrite, cm_cmod]

/-- An entry that its native routine carries out. -/
theorem takeException_native {t : State} (h : enterBody c e (entered c (clearMicro s c)) = .ok () t) :
    takeException c e s = entered c t := by
  have idle : (getCore (entered c (clearMicro s c)) c).micro.run = none := by simp [entered, clearMicro, endMicro]
  change entryRun c e 32 (entered c (clearMicro s c)) = _
  rw [entryRun]
  simp only [idle, Option.isSome_none, Bool.false_eq_true, if_false, cm_run, h]

end

/-! ## What entry decides rests on no cache and no translation -/

section

variable (k : Core) (e : ExcArgs) (v : Byte) (d0 d1 : W64)

theorem entryStack_archCore : entryStack (archCore k) v d0 = entryStack k v d0 := rfl

theorem entryWords_archCore : entryWords (archCore k) e d0 = entryWords k e d0 := rfl

theorem handlerCore_archCore : handlerCore (archCore k) e d0 d1 = handlerCore k e d0 d1 := rfl

end

/-- An exception whose descriptor is good and whose frame can be written: its native routine ends in `handlerCore`. -/
theorem takeException_handler {c : CoreId} {e : ExcArgs} {k : Core} {s s0 s1 s2 : State} {d0 d1 : Word} (h0 : entered c (clearMicro s c) = s0)
    (hk : getCore s0 c = k) (hbase : bit k.mmu.dtbase 0 = true) (hrom : k.micro.table = []) (hread : readDescriptor c e.vec s0 = .ok (d0, d1) s1)
    (harch : archCore (getCore s1 c) = archCore k) (hd : descriptorOk d0 d1 = true) (hstack : plainWord (entryStack k e.vec d0.payload) = true)
    (hwrite : writeFrame c (!bit d0.payload 4) (entryWords k e d0.payload) s1 = .ok () s2) :
    takeException c e s = entered c (modCore s2 c (handlerCore k e d0.payload d1.payload)) := by
  subst h0 hk
  rw [← entryStack_archCore, ← harch, entryStack_archCore] at hstack
  rw [← entryWords_archCore, ← harch, entryWords_archCore] at hwrite
  rw [takeException_native ((enterBody_described hbase hrom hread hd).trans (enterDescribed_ok hstack hwrite)), ← handlerCore_archCore, harch,
    handlerCore_archCore]

/-! ## Return (09 R250) -/

theorem va48_va48 (w m : W64) : va48 (va48 w &&& m) = va48 w &&& m := by
  rw [va48, va48, BitVec.and_assoc, BitVec.and_comm m, ← BitVec.and_assoc, BitVec.and_assoc w, BitVec.and_self]

/-- What a return from a frame of these words makes of a core. -/
def returnedCore (w0 w1 w2 w5 : W64) (k : Core) : Core :=
  { setStatus (setRegOf k (ipl k) 31 ⟨BitVec.ofNat 8 (fld w2 56 8), w5⟩) (w1 &&& 0x3FFFF) with pc := va48 w0 &&& ~~~3 }

theorem ageShadow_idle (k : Core) (h : k.st.shadow = []) : ageShadow k = k := by
  simp only [ageShadow, h, List.map_nil, List.filter_nil, List.foldl_nil]
  rw [← h]

section

variable {c : CoreId} {s s1 s2 : State} {w0 w1 w2 w3 w4 w5 : W64}

theorem retxBody_plain (hrom : (getCore s c).micro.table = []) (hnul : stNUL (getCore s c) = false)
    (hread : readFrameWords c (gread (getCore s c) 31).payload 6 s = .ok [w0, w1, w2, w3, w4, w5] s2) (hie : bit w1 4 = false) :
    retxBody c s = .ok () (modCore s2 c (returnedCore w0 w1 w2 w5)) := by
  have off : bit (w1 &&& 0x3FFFF) 4 = false := by
    rw [bit, BitVec.getLsbD_and, ← bit, hie, Bool.false_and]
  simp only [retxBody, cm_bind, cm_cget, enterRom_no_microcode hrom, hnul, Bool.false_eq_true, if_false, hread, cm_pure, Bool.false_and,
    cm_sget, List.getD_cons_succ, List.getD_cons_zero, off, List.isEmpty_nil, if_true, cm_cmod]
  rfl

/-- An instruction that no single step counts ends alike whatever `SSTEP` holds by then. -/
theorem retire_unstepped {i : Instr} {f : Flow} (hf : f.stepped = false) (hh : (getCore s c).st.shadow = []) :
    retire c i f s = advanced c i f s := by
  have off (k : Core) : (f.stepped && stSSTEP k) = false := by rw [hf, Bool.false_and]
  simp only [retire, advanced, off, Bool.false_eq_true, false_and, if_false]
  have unshadowed : (endMicro (getCore s c)).st.shadow = [] := hh
  rw [modCore_congr]
  simp only [ageShadow_idle, unshadowed]
  cases f.status <;> simp [statusSet, unshadowed]

theorem retx_plain (h : Takes c (.retx c) s s1) (hs : isSys (getCore s1 c) = true) (hnul : stNUL (getCore s1 c) = false)
    (hrom : (getCore s1 c).micro.table = [])
    (hread : readFrameWords c (gread (getCore s1 c) 31).payload 6 s1 = .ok [w0, w1, w2, w3, w4, w5] s2) (hie : bit w1 4 = false) :
    exec (.retx c) s = .next (advanced c (.retx c) { next := some (va48 w0 &&& ~~~3) }
      (modCore s2 c (returnedCore w0 w1 w2 w5))) := by
  have hb : bodyRetx c s1 = .ok { next := some (va48 w0 &&& ~~~3), stepped := false }
      (modCore s2 c (returnedCore w0 w1 w2 w5)) := by
    simp only [bodyRetx, cm_bind, sysOnly_sys hs, retxBody_plain hrom hnul hread hie, cm_cget, getCore_modCore, cm_pure, returnedCore,
      va48_va48]
  rw [exec_retx, execRetx, issue_retire h hb, retire_unstepped rfl (by rw [getCore_modCore]; rfl)]
  rfl

theorem retx_user (h : Takes c (.retx c) s s1) (hu : isSys (getCore s1 c) = false) :
    exec (.retx c) s = .next (raiseAt c (privilegeExc (getCore s1 c) (.retx c)) s1) :=
  issue_exc h (by simp only [bodyRetx, cm_bind, sysOnly_user hu])

end

/-- Settles O25: entry by its good path, whose end is `handlerCore`; return by `retx_plain`, whose end is `returnedCore`. -/
theorem exceptionsEnterAndReturn : Obligations.ExceptionsEnterAndReturn := by
  refine ⟨?_, ?_⟩
  · intro c e s s1 s2 d0 d1 s0 k level lv here stk b f nul cause frame hbase hrom hread harch hd hplain hwrite hbanks hst hirq t
    have htaken := takeException_handler (s0 := s0) (k := k) rfl rfl hbase hrom hread harch hd hplain hwrite
    have ht : t = { handlerCore k e d0.payload d1.payload (getCore s2 c) with wait := none, replay := Replay.reset } := by
      rw [show t = getCore (takeException c e s) c from rfl, htaken, entered, getCore_modCore, getCore_modCore]
    obtain ⟨tbanks, tsq, tst⟩ := handlerCore_frame k (getCore s2 c) e d0.payload d1.payload
    have hreg (l : Fin 8) (r : Reg) : regOf t l r = regOf (setRegOf (getCore s2 c) lv 31 ⟨b.tag, if nul then f - 1040 else f⟩) l r :=
      regOf_congr (by rw [ht]; exact tbanks) l r
    refine ⟨by rw [ht]; rfl, by rw [ht]; rfl, by rw [ht], by rw [ht]; rfl, ?_, ?_, fun l r h => ?_, ?_, by rw [htaken]; rfl⟩
    · rw [ht, ← hst]
      exact tst
    · rw [hreg, regOf_setRegOf _ _ _ _ (by decide)]
    · rw [hreg, regOf_setRegOf_other _ _ h]
      exact regOf_congr hbanks l r
    · rw [ht]
      exact tsq
  · intro c s s1 s2 w0 w1 w2 w3 w4 w5 k h
    refine ⟨fun hs hnul hrom hread harch hie => ⟨_, retx_plain h hs hnul hrom hread hie, ?_⟩, retx_user h⟩
    have kept {α : Type} (g : Core → α) : g (archCore (getCore s2 c)) = g (archCore k) := congrArg g harch
    have hipl : ipl (getCore s2 c) = ipl k := kept ipl
    have hreg (l : Fin 8) (r : Reg) : regOf (returnedCore w0 w1 w2 w5 (getCore s2 c)) l r
        = regOf (setRegOf (getCore s2 c) (ipl k) 31 ⟨BitVec.ofNat 8 (fld w2 56 8), w5⟩) l r :=
      regOf_congr (by rw [← hipl]; exact setStatus_banks _ _) l r
    have htag : BitVec.ofNat 8 (fld w2 56 8) = BitVec.ofNat 8 (w2.toNat / 2 ^ 56) := by
      apply BitVec.eq_of_toNat_eq
      simp [fld, Nat.shiftRight_eq_div_pow]
    obtain ⟨-, hexc, hsq, hret⟩ := setStatus_frame (setRegOf (getCore s2 c) _ 31 _) (w1 &&& 0x3FFFF)
    rw [getCore_modCore]
    refine ⟨rfl, ?_, fun l r h => ?_, rfl, ?_, ?_, ?_⟩
    · rw [hreg, regOf_setRegOf _ _ _ _ (by decide), htag]
    · rw [hreg, regOf_setRegOf_other _ _ h]
      exact regOf_congr (kept Core.banks) l r
    · exact hexc.trans ((setRegOf_exc _ _ _ _).trans (kept Core.exc))
    · exact hsq.trans (setRegOf_sq _ _ _ _)
    · exact hret.trans ((setRegOf_instret _ _ _ _).trans (kept Core.instret))

end Sys2Proof.Machine
end

section
/-! PROOFS. The boundary of a running core (09 R261, Table 9.10, 18 R424) and the interrupt that it admits (09 R249). -/

namespace Sys2Proof.Machine

/-! ## What is taken at a boundary -/

section

variable {c : CoreId} {s : State}

theorem interruptEntry_running (hr : (getCore s c).run = .running) : exec (.interruptEntry c) s = .next ((takeDue c s).getD s) := by
  have awake : haltWake c s = s := by simp [haltWake, hr]
  rw [exec_interruptEntry, execInterruptEntry, awake]

theorem pendingCheck_running (hr : (getCore s c).run = .running) (hm : (getCore s c).pend.mc.isSome = true) :
    exec (.machineCheck c .pending) s = .next ((takeDue c s).getD s) := by
  have hm' : (getCore s c).pend.mc.isNone = false := by rw [← Option.not_isSome, hm]; rfl
  simp only [exec_machineCheck, execMachineCheck, hm', hr, Bool.false_eq_true, if_false, reduceCtorEq]

/-- A core that runs and waits for nothing takes what its boundary finds. -/
theorem takeDue_boundary (hr : (getCore s c).run = .running) (hw : (getCore s c).wait = none) (hs : (getCore s c).pend.stop = false) :
    takeDue c s = boundaryEvent c false s := by
  simp [takeDue, hr, hw, hs]

theorem modCore_completeAll_idle (hl : (getCore s c).longs = []) : modCore s c completeAll = s :=
  modCore_id s c completeAll (completeAll_idle _ hl)

/-- Row 2 of Table 9.10: a machine check that is pending. -/
theorem boundaryEvent_check {m : McReport} (hd : stopDue (getCore s c) = false) (hl : (getCore s c).longs = [])
    (hm : (getCore s c).pend.mc = some m) : boundaryEvent c false s = some (takeException c
      (boundaryArgs (getCore s c) 0x00 m.sub m.eaddr m.einfo false) (modCore s c fun k => { k with pend := { k.pend with mc := none } })) := by
  simp only [boundaryEvent, hd, modCore_completeAll_idle hl, hm, Option.isSome_some, Bool.true_or, Bool.not_true, Bool.false_eq_true,
    and_false, if_false]
  rfl

/-- Row 5: an interrupt that is admitted, where no row before it applies. -/
theorem boundaryEvent_interrupt {v l : Nat} (hd : stopDue (getCore s c) = false) (hl : (getCore s c).longs = [])
    (hm : (getCore s c).pend.mc = none) (hr : (getCore s c).pend.reports = []) (hp : (getCore s c).pend.step = none)
    (ha : admitted s c = some (v, l)) :
    boundaryEvent c false s = some (takeException c (boundaryArgs (getCore s c) (BitVec.ofNat 8 v) 0 0 0 false) s) := by
  simp only [boundaryEvent, hd, modCore_completeAll_idle hl, hm, hr, hp, ha, Option.isSome_some, Bool.or_true, Bool.not_true,
    Bool.false_eq_true, and_false, if_false]
  rfl

theorem boundaryEvent_nothing (hd : stopDue (getCore s c) = false) (hm : (getCore s c).pend.mc = none)
    (hr : (getCore s c).pend.reports = []) (hp : (getCore s c).pend.step = none) (ha : admitted s c = none) :
    boundaryEvent c false s = none := by
  simp [boundaryEvent, hd, hm, hr, hp, ha]

end

/-! ## The interrupt that R249 chooses -/

section

variable (floor : Nat) (pends : Nat → Bool)

/-- Whether a source is routed above the floor and pending. -/
def Contends (e : Nat × BitVec 3) : Prop := floor < e.2.toNat ∧ pends e.1 = true

/-- `topIrq`'s choice among the best so far and one source more. -/
def better (s : State) (c : CoreId) (best : Option (Nat × Nat)) (e : Nat × BitVec 3) : Option (Nat × Nat) :=
  if floor < e.2.toNat ∧ srcPending s c e.1 then
    match best with
    | some (_, bl) => if bl < e.2.toNat then some (e.1, e.2.toNat) else best
    | none => some (e.1, e.2.toNat)
  else best

theorem topIrq_eq (s : State) (c : CoreId) : topIrq s c floor = (getCore s c).irq.level.foldl (better floor s c) none := rfl

/-- `best` is the choice of R249 among the sources of `m`: one that contends, and none that contends is routed higher, or as high with a
lower vector; none where none contends. -/
def Chosen (m : SMap (BitVec 3)) : Option (Nat × Nat) → Prop
  | none => ∀ e ∈ m, ¬ Contends floor pends e
  | some (v, l) => (∃ e ∈ m, Contends floor pends e ∧ e.1 = v ∧ e.2.toNat = l)
      ∧ ∀ e ∈ m, Contends floor pends e → e.2.toNat < l ∨ (e.2.toNat = l ∧ v ≤ e.1)

theorem smSorted_pairwise {α : Type} {m : SMap α} (h : smSorted m = true) : m.Pairwise fun a b => a.1 < b.1 := by
  induction m with
  | nil => exact List.Pairwise.nil
  | cons e m ih => exact List.Pairwise.cons (smSorted_head h) (ih (smSorted_tail h))

section

variable {s : State} {c : CoreId} {e : Nat × BitVec 3} {floor : Nat}

theorem better_kept (best : Option (Nat × Nat)) (h : ¬ Contends floor (srcPending s c) e) : better floor s c best e = best := if_neg h

theorem better_first (h : Contends floor (srcPending s c) e) : better floor s c none e = some (e.1, e.2.toNat) := if_pos h

theorem better_higher (b : Nat × Nat) (h : Contends floor (srcPending s c) e) :
    better floor s c (some b) e = if b.2 < e.2.toNat then some (e.1, e.2.toNat) else some b := if_pos h

end

/-- One source more, whose vector is above those before it. -/
theorem chosen_better {s : State} {c : CoreId} {m : SMap (BitVec 3)} {best : Option (Nat × Nat)} {e : Nat × BitVec 3}
    (h : Chosen floor (srcPending s c) m best) (hm : ∀ x ∈ m, x.1 < e.1) :
    Chosen floor (srcPending s c) (m ++ [e]) (better floor s c best e) := by
  by_cases he : Contends floor (srcPending s c) e
  · have self : ∀ l, e.2.toNat = l → (∃ x ∈ m ++ [e], Contends floor (srcPending s c) x ∧ x.1 = e.1 ∧ x.2.toNat = l) :=
      fun l hl => ⟨e, by simp, he, rfl, hl⟩
    cases best with
    | none =>
      rw [better_first he]
      refine ⟨self _ rfl, fun x hx hc => ?_⟩
      rcases List.mem_append.mp hx with hx | hx
      · exact absurd hc (h x hx)
      · rw [List.mem_singleton.mp hx]
        exact .inr ⟨rfl, Nat.le_refl _⟩
    | some b =>
      obtain ⟨⟨y, hy, hcy, hv, hl⟩, hall⟩ := h
      rw [better_higher b he]
      split
      · next hlt =>
        refine ⟨self _ rfl, fun x hx hc => ?_⟩
        rcases List.mem_append.mp hx with hx | hx
        · have := hall x hx hc
          omega
        · rw [List.mem_singleton.mp hx]
          exact .inr ⟨rfl, Nat.le_refl _⟩
      · next hle =>
        refine ⟨⟨y, List.mem_append_left _ hy, hcy, hv, hl⟩, fun x hx hc => ?_⟩
        rcases List.mem_append.mp hx with hx | hx
        · exact hall x hx hc
        · have := hm y hy
          rw [List.mem_singleton.mp hx]
          omega
  · rw [better_kept best he]
    have last {x : Nat × BitVec 3} (hx : x ∈ m ++ [e]) (hc : Contends floor (srcPending s c) x) : x ∈ m := by
      rcases List.mem_append.mp hx with hx | hx
      · exact hx
      · rw [List.mem_singleton.mp hx] at hc
        exact absurd hc he
    cases best with
    | none => exact fun x hx hc => h x (last hx hc) hc
    | some b =>
      obtain ⟨⟨y, hy, hy'⟩, hall⟩ := h
      exact ⟨⟨y, List.mem_append_left _ hy, hy'⟩, fun x hx hc => hall x (last hx hc) hc⟩

/-- The fold goes on from what it has chosen among the sources `seen` so far. -/
theorem chosen_foldl {s : State} {c : CoreId} {seen : SMap (BitVec 3)} {best : Option (Nat × Nat)} (m : SMap (BitVec 3))
    (h : Chosen floor (srcPending s c) seen best) (hp : (seen ++ m).Pairwise fun a b => a.1 < b.1) :
    Chosen floor (srcPending s c) (seen ++ m) (m.foldl (better floor s c) best) := by
  induction m generalizing seen best with
  | nil =>
    rw [List.append_nil]
    exact h
  | cons e m ih =>
    obtain ⟨-, -, hlt⟩ := List.pairwise_append.mp hp
    rw [List.append_cons] at hp ⊢
    exact ih (chosen_better floor h fun x hx => hlt x hx e List.mem_cons_self) hp

end

theorem smGet?_of_mem {α : Type} {m : SMap α} (h : smSorted m = true) {e : Nat × α} (he : e ∈ m) : smGet? m e.1 = some e.2 := by
  induction m with
  | nil => cases he
  | cons a m ih =>
    rcases List.mem_cons.mp he with rfl | he
    · simp [smGet?]
    · have := smSorted_head h e he
      rw [smGet?, if_neg (by omega), if_neg (by omega), ih (smSorted_tail h) he]

theorem mem_of_smGet? {α : Type} {m : SMap α} {k : Nat} {v : α} (h : smGet? m k = some v) : (k, v) ∈ m := by
  induction m with
  | nil => cases h
  | cons a m ih =>
    rw [smGet?] at h
    split at h
    · next ha =>
      obtain rfl := Option.some.inj h
      rw [← ha]
      exact List.mem_cons_self
    · split at h
      · cases h
      · exact List.mem_cons_of_mem _ (ih h)

theorem admitted_chosen {c : CoreId} {s : State} {v l : Nat} (hw : smSorted (getCore s c).irq.level = true)
    (h : admitted s c = some (v, l)) : stIE (getCore s c) = true
      ∧ Chosen (ipl (getCore s c)).val (srcPending s c) (getCore s c).irq.level (some (v, l)) := by
  unfold admitted at h
  split at h
  · next hie =>
    rw [topIrq_eq] at h
    have nothing : Chosen (ipl (getCore s c)).val (srcPending s c) [] none := fun e he => absurd he List.not_mem_nil
    exact ⟨hie, h ▸ chosen_foldl _ _ nothing (smSorted_pairwise hw)⟩
  · cases h

/-- A source that no route names has level 0. -/
theorem level_le_of_chosen {floor v l : Nat} {pends : Nat → Bool} {m : SMap (BitVec 3)} (h : Chosen floor pends m (some (v, l)))
    {u : Nat} (hu : pends u = true) : (smGet 0 m u).toNat < l ∨ ((smGet 0 m u).toNat = l ∧ v ≤ u) := by
  obtain ⟨⟨e, -, ⟨hfloor, -⟩, -, hl⟩, hall⟩ := h
  cases hg : smGet? m u with
  | none =>
    have : (smGet 0 m u).toNat = 0 := by rw [smGet, hg]; rfl
    omega
  | some w =>
    have hw : smGet 0 m u = w := by rw [smGet, hg]; rfl
    rw [hw]
    by_cases hc : floor < w.toNat
    · exact hall (u, w) (mem_of_smGet? hg) ⟨hc, hu⟩
    · omega

/-- Settles O26: the boundary row by row, and the choice of `topIrq` by its fold over the routed sources. -/
theorem boundaryEvents : Obligations.BoundaryEvents := by
  refine ⟨?_, ?_⟩
  · intro c s k e hr hw hs hl
    have entry := interruptEntry_running hr
    refine ⟨fun hd => ?_, fun hd => ⟨fun m hm => ?_, fun m hm => ?_, fun v l hm hrep hstep ha => ?_, fun hm hrep hstep ha => ?_⟩⟩
    · rw [entry, takeDue_stop hr hw hs hd]
      rfl
    · rw [pendingCheck_running hr (Option.isSome_iff_exists.mpr ⟨m, hm⟩), takeDue_boundary hr hw hs, boundaryEvent_check hd hl hm]
      rfl
    · rw [entry, takeDue_boundary hr hw hs, boundaryEvent_check hd hl hm]
      rfl
    · rw [entry, takeDue_boundary hr hw hs, boundaryEvent_interrupt hd hl hm hrep hstep ha]
      rfl
    · rw [entry, takeDue_boundary hr hw hs, boundaryEvent_nothing hd hm hrep hstep ha]
      rfl
  · intro c s v l k hwf ha
    have hsorted : smSorted k.irq.level = true := (Bool.and_eq_true_iff.mp hwf).1
    obtain ⟨hie, hchosen⟩ := admitted_chosen hsorted ha
    have hlevels {u : Nat} (hu : srcPending s c u = true) := level_le_of_chosen hchosen hu
    obtain ⟨⟨e, he, ⟨hfloor, hpend⟩, rfl, rfl⟩, -⟩ := hchosen
    have hlevel : smGet 0 k.irq.level e.1 = e.2 := by rw [smGet, smGet?_of_mem hsorted he]; rfl
    exact ⟨hie, hfloor, congrArg BitVec.toNat hlevel, hpend, fun u hu => hlevels hu⟩

end Sys2Proof.Machine
end

section
/-! PROOFS. The Lockkeeper's events (09 R264, R265; 15 R363, R378; 18 Table 18.1): lockup reports, the heartbeat, and its restart. -/

namespace Sys2Proof.Machine

/-! ## What an event that is posted leaves alone (15 R373) -/

/-- What posting events leaves of `s` in `t`; an event of a restarting Lockkeeper is owed (15 R363), any other leaves all of `lk` alone. -/
structure Posts (s t : State) : Prop where
  cores : t.cores = s.cores
  comps : t.comps = s.comps
  log : t.log = s.log
  busy : t.mbx.busy = s.mbx.busy
  restarting : t.lk.restarting = s.lk.restarting
  stage : t.lk.stage = s.lk.stage
  settled : s.lk.restarting = false → t.lk = s.lk

namespace Posts

variable {s t u : State}

theorem refl (s : State) : Posts s s := ⟨rfl, rfl, rfl, rfl, rfl, rfl, fun _ => rfl⟩

theorem getComp (h : Posts s t) (p : CompId) : getComp t p = Machine.getComp s p := by rw [Machine.getComp, h.comps]; rfl

theorem trans (h : Posts s t) (k : Posts t u) : Posts s u where
  cores := k.cores.trans h.cores
  comps := k.comps.trans h.comps
  log := k.log.trans h.log
  busy := k.busy.trans h.busy
  restarting := k.restarting.trans h.restarting
  stage := k.stage.trans h.stage
  settled hs := (k.settled (h.restarting.trans hs)).trans (h.settled hs)

end Posts

section

variable (s : State)

theorem mbxIrq_pcie (i : Nat) : ∃ q, mbxIrq s i = { s with mbx := { s.mbx with irq := bvSet s.mbx.irq i true }, pcie := q } := by
  simp only [mbxIrq]
  split
  · exact ⟨_, signal_posted _ 0 i (.inl rfl)⟩
  · exact ⟨s.pcie, rfl⟩

theorem ringEvent_posts (code comp : Nat) (seq : BitVec 32) (data : W64) :
    ∃ m q, ringEvent s code comp seq data = { s with mbx := m, pcie := q } ∧ m.busy = s.mbx.busy := by
  simp only [ringEvent]
  split
  · exact ⟨_, s.pcie, rfl, rfl⟩
  · obtain ⟨q, hq⟩ := mbxIrq_pcie _ 1
    exact ⟨_, q, hq, rfl⟩

theorem postEvent_posts (code comp : Nat) (seq : BitVec 32) (data : W64) : Posts s (postEvent s code comp seq data) := by
  unfold postEvent
  split
  · next h => exact ⟨rfl, rfl, rfl, rfl, rfl, rfl, fun hs => absurd h (by rw [hs]; decide)⟩
  · obtain ⟨m, q, hm, hb⟩ := ringEvent_posts s code comp seq data
    rw [hm]
    exact ⟨rfl, rfl, rfl, hb, rfl, rfl, fun _ => rfl⟩

theorem logErr_comps (cls sev comp unit : Nat) (addr info : W64) : (logErr s cls sev comp unit addr info).comps = s.comps :=
  (postEvent_posts _ _ _ _ _).comps

theorem logErr_restarting (cls sev comp unit : Nat) (addr info : W64) :
    (logErr s cls sev comp unit addr info).lk.restarting = s.lk.restarting :=
  (postEvent_posts _ _ _ _ _).restarting

theorem logErr_stage (cls sev comp unit : Nat) (addr info : W64) : (logErr s cls sev comp unit addr info).lk.stage = s.lk.stage :=
  (postEvent_posts _ _ _ _ _).stage

end

/-! ## Lockup reports (09 R264, R265) -/

/-- `s` once the lockup of core `c` is logged, noticed and posted, before the core is reset. -/
def lockPosted (s : State) (c : CoreId) (r : LockRecord) : State :=
  let k := getCore s c
  let t := logErr s 0x07 1 k.compart.toNat c.val r.epc (BitVec.ofNat 64 (r.cause.toNat + 256 * r.vec.toNat))
  postEvent (if k.compart = 0 then t else notify t (compId k.compart) 0) 0x0006 k.compart.toNat 0
    (BitVec.ofNat 64 (c.val + 256 * r.cause.toNat))

section

variable (s : State) (c d : CoreId) (r : LockRecord)

theorem lockPosted_cores : (lockPosted s c r).cores = s.cores := by
  rw [lockPosted, postEvent_cores, apply_ite State.cores, notify, modComp_cores, ite_self, logErr_cores]

theorem lockPosted_seq : (lockPosted s c r).log.seq = s.log.seq + 1 := by
  rw [lockPosted, (postEvent_posts _ _ _ _ _).log, apply_ite State.log, notify, modComp_log, ite_self, logErr_seq]

theorem lockPosted_notice (h : (getCore s c).compart ≠ 0) :
    bit (getComp (lockPosted s c r) (compId (getCore s c).compart)).notice.bits 0 = true := by
  rw [lockPosted, (postEvent_posts _ _ _ _ _).getComp, if_neg h, notify, getComp_modComp]
  simp [bit, bvSet]

theorem drainAll_empty (h : (getCore s c).sq = []) : drainAll s c = s := by
  rw [drainAll, h]
  rfl

theorem getCore_resetCore : getCore (resetCore s c) c = coreReset (getCore s c) := getCore_modCore s c coreReset

theorem getCore_resetCore_of_ne (h : d ≠ c) : getCore (resetCore s c) d = getCore s d := getCore_modCore_of_ne s c d coreReset h

/-- With its stores drained, a core that is reported is reset and held. -/
theorem reportLock_drained (h : (getCore s c).sq = []) :
    reportLock s c r = resetCore (modCore (lockPosted s c r) c fun k => { k with lockHeld := true }) c := by
  have same : getCore (lockPosted s c r) c = getCore s c := by rw [getCore, lockPosted_cores]; rfl
  change resetCore (modCore (drainAll (lockPosted s c r) c) c _) c = _
  rw [drainAll_empty _ c (by rw [same, h])]

theorem reportLock_core (h : (getCore s c).sq = []) :
    getCore (reportLock s c r) c = coreReset { getCore s c with lockHeld := true } := by
  rw [reportLock_drained s c r h, getCore_resetCore, getCore_modCore, getCore, lockPosted_cores]
  rfl

theorem reportLock_other (h : (getCore s c).sq = []) (hd : d ≠ c) : getCore (reportLock s c r) d = getCore s d := by
  rw [reportLock_drained s c r h, getCore_resetCore_of_ne _ _ _ hd, getCore_modCore_of_ne _ _ _ _ hd, getCore, lockPosted_cores]
  rfl

end

section

variable {s : State} {c : CoreId} {r : LockRecord}

theorem lockupReport_reports (hl : (getCore s c).lock = some r) (hr : (getCore s c).run = .locked) (hlk : lkRuns s = true) :
    exec (.lockupReport c) s = .next (reportLock s c r) := by
  rw [exec_lockupReport, execLockupReport]
  simp only [hl]
  exact if_pos ⟨hr, hlk⟩

theorem recoveryStopReport_reports (hl : (getCore s c).lock = some r) (hr : (getCore s c).run = .stub) (hlk : lkRuns s = true) :
    exec (.recoveryStopReport c) s = .next (reportLock s c r) := by
  rw [exec_recoveryStopReport, execRecoveryStopReport]
  simp only [hl]
  exact if_pos ⟨hr, hlk⟩

end

/-! ## Restarts (15 R363, R378) -/

/-- The response to the command that executes frees the mailbox and ends the command. -/
theorem answer_executing {s : State} {cur : CurCmd} (st : Nat) (hc : s.lk.cur = some cur) (hl : cur.lost = false) :
    (answer s st).lk = { s.lk with cur := none } ∧ (answer s st).mbx.busy = false ∧ (answer s st).comps = s.comps
      ∧ (answer s st).cores = s.cores := by
  simp only [answer, respond, hc, hl, Bool.false_eq_true, if_false]
  obtain ⟨q, hq⟩ := mbxIrq_pcie _ 0
  rw [hq]
  exact ⟨rfl, rfl, rfl, rfl⟩

/-- The events that waited are posted. -/
theorem flushOwed_posts (s : State) : Posts { s with lk := { s.lk with owed := [] } } (flushOwed s) :=
  foldl_keeps (Q := Posts _) (fun _ _ h => h.trans (postEvent_posts _ _ _ _ _)) _ _ (Posts.refl _)

theorem pendingReleases_none {s : State} (h : ∀ p, (getComp s p).notice.reqBusy = false) : pendingReleases s = s :=
  foldl_keeps (Q := fun t => t = s) (fun t p ht => by simp only [ht, h p, Bool.false_eq_true, if_false]) _ s rfl

/-- What a restart makes of a compartment: an abort that runs is left to its timer. -/
def abortLost (x : Comp) : Comp := { x with abort := x.abort.map fun a => { a with lost := true, byCmd := false, joined := false } }

/-- An abort of compartment `p` that runs has been left to its timer. -/
def LostAt (p : CompId) (s : State) : Prop := ∀ a, (getComp s p).abort = some a → a.lost = true

theorem lostAt_modComp (s : State) (p : CompId) : LostAt p (modComp s p abortLost) := by
  intro a h
  rw [getComp_modComp] at h
  obtain ⟨b, -, rfl⟩ := Option.map_eq_some_iff.mp h
  rfl

theorem lostAt_kept {s : State} {p : CompId} (q : CompId) (h : LostAt p s) : LostAt p (modComp s q abortLost) := by
  by_cases hq : p = q
  · subst hq
    exact lostAt_modComp s p
  · rw [LostAt, getComp_modComp_of_ne s q p _ hq]
    exact h

theorem lostAt_foldl {p : CompId} {l : List CompId} (hp : p ∈ l) (s : State) : LostAt p (l.foldl (fun s q => modComp s q abortLost) s) := by
  induction l generalizing s with
  | nil => cases hp
  | cons q l ih =>
    rcases List.mem_cons.mp hp with rfl | hp
    · exact foldl_keeps (fun _ q h => lostAt_kept q h) l _ (lostAt_modComp s p)
    · exact ih hp _

/-- What a restarting Lockkeeper forgets, before the restart is logged. -/
def forgetting (s : State) : State := allComps.foldl (fun s p => modComp s p abortLost)
  { s with lk := { s.lk with restarting := true, stage := none }, weir := { s.weir with sched := none } }

theorem lkRestart_eq (s : State) : lkRestart s = logErr (forgetting s) 0x0E 1 0 0 0 0 := rfl

theorem forgetting_frame (s : State) : (forgetting s).cores = s.cores ∧ (forgetting s).log = s.log
    ∧ (forgetting s).lk = { s.lk with restarting := true, stage := none } := by
  refine foldl_keeps (Q := fun t : State => t.cores = s.cores ∧ t.log = s.log ∧ t.lk = { s.lk with restarting := true, stage := none })
    (fun t p h => ?_) _ _ ⟨rfl, rfl, rfl⟩
  rwa [modComp_cores, modComp_log, modComp_lk]

section

variable (s : State)

theorem lkRestart_restarting : (lkRestart s).lk.restarting = true ∧ (lkRestart s).lk.stage = none := by
  obtain ⟨-, -, hlk⟩ := forgetting_frame s
  rw [lkRestart_eq, logErr_restarting, logErr_stage, hlk]
  exact ⟨rfl, rfl⟩

theorem lkRestart_seq : (lkRestart s).log.seq = s.log.seq + 1 := by
  obtain ⟨-, hlog, -⟩ := forgetting_frame s
  rw [lkRestart_eq, logErr_seq, hlog]

theorem lkRestart_cores : (lkRestart s).cores = s.cores := by
  obtain ⟨hcores, -, -⟩ := forgetting_frame s
  rw [lkRestart_eq, logErr_cores, hcores]

theorem lkRestart_lost (p : CompId) : LostAt p (lkRestart s) := by
  rw [lkRestart_eq, LostAt, getComp, logErr_comps]
  exact lostAt_foldl (List.mem_finRange p) _

end

/-- `s` where the Lockkeeper runs again. -/
def runsAgain (s : State) : State := { s with lk := { s.lk with restarting := false, lastBeat := s.now } }

theorem restartDone_executed {s : State} (hr : s.lk.restarting = true) (hh : s.lk.held = false) : exec .lockkeeperRestartDone s
    = .next (lkTurn (pendingReleases (flushOwed (postEvent (answer (runsAgain s) stHwError) 0x000B 0 0 0)))) := by
  have executed : (!s.lk.held || s.lk.cur.any (·.lost)) = true := by rw [hh]; rfl
  have restarts : ¬ (!s.lk.restarting) = true := by rw [hr]; decide
  simp only [exec_lockkeeperRestartDone, execLockkeeperRestartDone, if_neg restarts, if_pos executed]
  rfl

/-- With nothing held, due or asked for, the restarted Lockkeeper answers the command that executed and posts what it owes. -/
theorem restartDone_quiet {s : State} {cur : CurCmd} (hr : s.lk.restarting = true) (hh : s.lk.held = false) (hc : s.lk.cur = some cur)
    (hl : cur.lost = false) (hreq : ∀ q, (getComp s q).notice.reqBusy = false) (hdue : ∀ q, (getComp s q).abortDue = false) :
    ∃ t, exec .lockkeeperRestartDone s = .next t ∧ t.lk = { s.lk with restarting := false, lastBeat := s.now, cur := none, owed := [] }
      ∧ t.mbx.busy = false ∧ t.cores = s.cores := by
  obtain ⟨alk, abusy, acomps, acores⟩ := answer_executing (s := runsAgain s) stHwError hc hl
  have posted := postEvent_posts (answer (runsAgain s) stHwError) 0x000B 0 0 0
  have settled : (answer (runsAgain s) stHwError).lk.restarting = false := by rw [alk]; rfl
  rw [restartDone_executed hr hh]
  generalize postEvent _ _ _ _ _ = u at posted
  have flushed := flushOwed_posts u
  have hlk : (flushOwed u).lk = { s.lk with restarting := false, lastBeat := s.now, cur := none, owed := [] } := by
    rw [flushed.settled (posted.restarting.trans settled), posted.settled settled, alk]
    rfl
  have hcomp (p : CompId) : getComp (flushOwed u) p = getComp s p := by
    rw [flushed.getComp, getComp, posted.comps, acomps]
    rfl
  refine ⟨flushOwed u, ?_, hlk, flushed.busy.trans (posted.busy.trans abusy), flushed.cores.trans (posted.cores.trans acores)⟩
  rw [pendingReleases_none fun p => by rw [hcomp, hreq], lkTurn_none _ (fun p => by rw [hcomp, hdue]) (by rw [hlk]; exact hh)]

theorem restarting_of_lkRuns {s : State} (h : lkRuns s = true) : s.lk.restarting = false := by
  simp only [lkRuns, Bool.and_eq_true, Bool.not_eq_true'] at h
  obtain ⟨⟨off, -⟩, -⟩ := h
  exact off

theorem sramError_runs {s : State} (correctable : Bool) (h : lkRuns s = true) : exec (.lockkeeperSramError correctable) s
    = .next (if correctable then logErr s 0x0E 0 0 0 0 0 else lkRestart (logErr s 0x0E 1 0 0 0 0)) := by
  cases correctable <;> simp [exec_lockkeeperSramError, execLockkeeperSramError, h]

/-- Settles O50, event by event. -/
theorem lockkeeperEvents : Obligations.LockkeeperEvents := by
  intro c r p cur s k Reported
  refine ⟨fun hlock hsq hlk => ?_, fun hf hb => ⟨?_, fun hh hd => lkTurn_none _ hd hh⟩, fun hf hb => ?_, fun hb => ?_,
    fun hr hh hc hl hq => ?_, fun hlk => ?_⟩
  · have reported : Reported (reportLock s c r) := by
      have hcore := reportLock_core s c r hsq
      refine ⟨by rw [hcore]; rfl, by rw [hcore]; rfl, by rw [hcore]; exact hlock, ?_, fun h => ?_, fun d hd => reportLock_other s c d r hsq hd⟩
      · rw [reportLock_drained s c r hsq]
        exact lockPosted_seq s c r
      · rw [reportLock_drained s c r hsq]
        exact lockPosted_notice s c r h
    exact ⟨fun hrun => ⟨_, lockupReport_reports hlock hrun hlk, reported⟩,
      fun hrun => ⟨_, recoveryStopReport_reports hlock hrun hlk, reported⟩⟩
  · rw [exec_heartbeat, execHeartbeat, if_pos ⟨hf, hb⟩]
  · obtain ⟨hrestarting, hstage⟩ := lkRestart_restarting s
    refine ⟨lkRestart s, ?_, hrestarting, hstage, lkRestart_seq s, lkRestart_cores s, lkRestart_lost s p⟩
    rw [exec_lockkeeperRestart, execLockkeeperRestart, if_pos ⟨hf, hb⟩]
  · rw [exec_lockkeeperRestart, execLockkeeperRestart, if_neg fun h => by omega]
  · obtain ⟨t, ht, hlk, hbusy, hcores⟩ := restartDone_quiet hr hh hc hl (fun q => (hq q).1) fun q => (hq q).2
    exact ⟨t, ht, by rw [hlk], by rw [hlk], hbusy, by rw [hlk], by rw [hlk], hcores⟩
  · have off := restarting_of_lkRuns hlk
    refine ⟨⟨logErr s 0x0E 0 0 0 0 0, ?_, logErr_seq s _ _ _ _ _ _, (logErr_restarting s _ _ _ _ _ _).trans off⟩,
      ⟨lkRestart (logErr s 0x0E 1 0 0 0 0), ?_, lkRestart_restarting _⟩⟩
    · exact sramError_runs true hlk
    · exact sramError_runs false hlk

end Sys2Proof.Machine
end

section
/-! PROOFS. What a core's stores leave of `STATUS` as they are performed (10 R273): of all that a store writes only a release of a core
(15 R374) reaches it, and one sets no `SSTEP` and leaves no mode shadow. -/

namespace Sys2Proof.Machine

/-! ## The registers of the device (11 Table 11.1) -/

section

variable (s : State)

theorem throughTick_cores (n : TimerId) (t : W64) : (throughTick s n t).cores = s.cores := by
  unfold throughTick
  split
  · rfl
  · rfl

theorem beforeTick_cores (n : TimerId) : (beforeTick s n).cores = s.cores := throughTick_cores s n _

/-- What brings each of a list of channels to the hub's tick and changes it there writes no core. -/
theorem timers_foldl_cores {ι : Type} (n : ι → TimerId) (f : ι → Timer → Timer) (l : List ι) :
    (l.foldl (fun s i => modTimer (beforeTick s (n i)) (n i) (f i)) s).cores = s.cores :=
  foldl_keeps (Q := fun t : State => t.cores = s.cores)
    (fun t i h => by rw [modTimer_cores, beforeTick_cores, h]) l s rfl

theorem startTimers_cores (p : CompId) (mask : BitVec 16) : (startTimers s p mask).cores = s.cores :=
  timers_foldl_cores s id _ _

theorem stopTimers_cores (p : CompId) (mask : BitVec 16) : (stopTimers s p mask).cores = s.cores :=
  timers_foldl_cores s id _ _

theorem staggerTimers_cores (p : CompId) (mask : BitVec 16) : (staggerTimers s p mask).cores = s.cores := by
  simp only [staggerTimers]
  split
  · rfl
  · exact timers_foldl_cores s Prod.fst _ _

theorem writeCtl_cores (n : TimerId) (be : Byte) (v : W64) : (writeCtl s n be v).cores = s.cores := by
  simp only [writeCtl, modTimer_cores, apply_ite State.cores, beforeTick_cores, ite_self]

theorem timerWrite_cores (n : TimerId) (p : CompId) (off : Nat) (be : Byte) (v : W64) : (timerWrite s n p off be v).cores = s.cores := by
  simp only [timerWrite]
  split
  case h_1 => rw [writeCtl_cores, beforeTick_cores]
  case h_8 =>
    split
    · rw [startTimers_cores, beforeTick_cores]
    · rw [stopTimers_cores, beforeTick_cores]
    · rw [staggerTimers_cores, beforeTick_cores]
    · exact beforeTick_cores s n
  all_goals exact beforeTick_cores s n

theorem percWrite_cores (k : ClusterId) (p : CompId) (off : Nat) (be : Byte) (v : W64) : (percWrite s k p off be v).cores = s.cores := by
  simp only [percWrite]
  split
  case h_1 => simp only [apply_ite State.cores, ringError, modPerc_cores, ite_self]
  case h_2 => simp only [writeTail, apply_ite State.cores, ringError, modPerc_cores, ite_self]
  all_goals rfl

theorem postRun_cores (p : CompId) (bad : Bool) (a : ActPort) : (postRun s p bad a).1.cores = s.cores := by
  simp only [postRun]
  split
  · rfl
  · split
    · rfl
    · split
      · rfl
      · split
        · split <;> rfl
        · rfl

theorem cancelRun_cores (p : CompId) (bad : Bool) (i : Fin 32) (a : ActPort) : (cancelRun s p bad i a).1.cores = s.cores := by
  have dropped : (dropAction s i.val).cores = s.cores := rfl
  simp only [cancelRun]
  split
  · rfl
  · split
    · rfl
    · simp only [apply_ite Prod.fst, apply_ite State.cores, dropped, ite_self]

theorem actPortWrite_cores (p : CompId) (off : Nat) (be : Byte) (v : W64) : (actPortWrite s p off be v).cores = s.cores := by
  simp only [actPortWrite]
  split
  case h_3 =>
    split
    · simp only [postGo, putPort, apply_ite State.cores, modActPort_cores, postRun_cores, ite_self]
    · simp only [postCancel, putPort, apply_ite State.cores, modActPort_cores, cancelRun_cores, ite_self]
    · rfl
  all_goals rfl

theorem mntWrite_cores (k : ClusterId) (p : CompId) (off : Nat) (be : Byte) (v : W64) : (mntWrite s k p off be v).cores = s.cores := by
  simp only [mntWrite]
  split
  all_goals simp only [mntStart, apply_ite State.cores, modMnt_cores, modMntEng_cores, ite_self]

theorem sliceWrite_cores (p : CompId) (user : Bool) (off : Nat) (be : Byte) (v : W64) :
    (sliceWrite s p user off be v).cores = s.cores := by
  simp only [sliceWrite, apply_ite State.cores, modComp_cores, ite_self]

theorem cvRegWrite_cores (n : ChanId) (sys : Bool) (off : Nat) (be : Byte) (v : W64) : (cvRegWrite s n sys off be v).cores = s.cores := by
  simp only [cvRegWrite]
  split
  case h_1 => simp only [apply_ite State.cores, cvRingError, modChan_cores, ite_self]
  case h_2 => simp only [cvWriteTail, apply_ite State.cores, cvRingError, modChan_cores, ite_self]
  all_goals rfl

theorem qpCoreWrite_cores (p : CompId) (q : QpId) (off : Nat) (be : Byte) (v : W64) : (qpCoreWrite s p q off be v).cores = s.cores := by
  simp only [qpCoreWrite]
  split
  case h_2 => simp only [setCqTail, apply_ite State.cores, (signal_frame _ _ _).1, modQp, modComp_cores, ite_self]
  case h_3 => simp only [apply_ite State.cores, modQp, modComp_cores, ite_self]
  all_goals rfl

theorem hostIrq_cores (p : CompId) (v : W64) : (hostIrq s p v).cores = s.cores := by
  simp only [hostIrq, apply_ite State.cores, (signal_frame _ _ _).1, ite_self]

end

/-! ## No single step and no mode shadow -/

/-- Core `c` has no single step and no mode shadow in force: an instruction of it that ends now ends as `advanced` says. -/
def Unstepped (c : CoreId) (s : State) : Prop := stSSTEP (getCore s c) = false ∧ (getCore s c).st.shadow = []

section

variable {c : CoreId} {s t : State}

theorem Unstepped.of_st (h : Unstepped c s) (hst : (getCore t c).st = (getCore s c).st) : Unstepped c t := by
  obtain ⟨hstep, hshadow⟩ := h
  exact ⟨by rw [stSSTEP, hst]; exact hstep, by rw [hst]; exact hshadow⟩

theorem Unstepped.of_cores (h : Unstepped c s) (hcores : t.cores = s.cores) : Unstepped c t :=
  h.of_st (by rw [getCore, hcores]; rfl)

theorem Unstepped.of_coresBeside (h : Unstepped c s) (hbeside : coresBeside t = coresBeside s) : Unstepped c t := by
  have same : (coresBeside t c).st = (coresBeside s c).st := by rw [hbeside]
  exact h.of_st same

/-- An update that leaves a core's `STATUS` alone. -/
theorem Unstepped.of_modCore (h : Unstepped c s) (d : CoreId) (f : Core → Core) (hf : ∀ k, (f k).st = k.st) :
    Unstepped c (modCore s d f) := by
  by_cases hd : c = d
  · subst hd
    exact h.of_st (by rw [getCore_modCore, hf])
  · exact h.of_st (by rw [getCore_modCore_of_ne s d c f hd])

theorem takes_unstepped {i : Instr} {s1 : State} (h : Takes c i s s1) : Unstepped c s1 := by
  obtain ⟨s0, -, -, -, hstep, hshadow, -⟩ := h
  exact ⟨hstep, hshadow⟩

/-! ## A release (03 R86, 15 R374) -/

/-- `STATUS` at release has `SSTEP` clear: it takes from the compartment's modes bits 7 and 8 alone. -/
theorem releaseStatus_sstep (modes : BitVec 3) : bit (releaseStatus modes) 17 = false := by
  revert modes
  decide

theorem releaseCore_unstepped (h : Unstepped c s) (p : CompId) (first : Bool) (d : CoreId) : Unstepped c (releaseCore p first s d) := by
  by_cases hd : c = d
  · subst hd
    simp only [Unstepped, releaseCore, getCore_modCore, stSSTEP, releaseStatus_sstep, and_self]
  · exact h.of_st (by rw [releaseCore, getCore_modCore_of_ne _ _ _ _ hd])

theorem doRelease_unstepped (h : Unstepped c s) (p : CompId) (d : CoreId) : Unstepped c (doRelease s p d) := by
  simp only [doRelease]
  split
  · exact h.of_cores (modComp_cores _ _ _)
  · split
    · exact h.of_cores (modComp_cores _ _ _)
    · exact (releaseCore_unstepped h p false d).of_cores (modComp_cores _ _ _)

theorem askRelease_unstepped (h : Unstepped c s) (p : CompId) (d : CoreId) : Unstepped c (askRelease s p d) := by
  unfold askRelease
  split
  · exact h
  · split
    · exact doRelease_unstepped h p d
    · exact h.of_cores (modComp_cores _ _ _)

theorem noticeWrite_unstepped (h : Unstepped c s) (p : CompId) (off : Nat) (be : Byte) (v : W64) :
    Unstepped c (noticeWrite s p off be v) := by
  simp only [noticeWrite]
  split
  · exact h.of_cores (modComp_cores _ _ _)
  · split
    · exact askRelease_unstepped h p _
    · exact h
  · exact h

/-! ## The stores of a core -/

theorem pageWrite_unstepped (h : Unstepped c s) (g : Page) (user : Bool) (off : Nat) (be : Byte) (v : W64) :
    Unstepped c (pageWrite s g false user off be v) := by
  cases g with
  | perc k p => exact h.of_cores (percWrite_cores s k p off be v)
  | group _ => exact h
  | port p => exact h.of_cores (actPortWrite_cores s p off be v)
  | weirStat => exact h
  | mnt k p => exact h.of_cores (mntWrite_cores s k p off be v)
  | l2 _ => exact h
  | timer n => exact h.of_cores (timerWrite_cores s n _ off be v)
  | notice p => exact noticeWrite_unstepped h p off be v
  | slice p => exact h.of_cores (sliceWrite_cores s p user off be v)
  | chan n => exact h.of_cores (cvRegWrite_cores s n _ off be v)
  | queue p =>
    refine h.of_cores ?_
    simp only [pageWrite, apply_ite State.cores, qpCoreWrite_cores, hostIrq_cores, ite_self]

theorem mmioWrite_unstepped (h : Unstepped c s) (d : CoreId) (user : Bool) (off : Nat) (be : Byte) (v : W64) :
    Unstepped c (mmioWrite s d user off be v) := by
  unfold mmioWrite
  split
  · exact h
  · split
    · exact pageWrite_unstepped h _ user _ be v
    · split
      · exact h.of_cores (logErr_cores s _ _ _ _ _ _)
      · exact h

/-- A store to Carafe memory, the loss of a word that no longer reads included (12 R318), writes of the cores what memory may. -/
theorem carafeStore_beside (k : ClusterId) (o : Nat) (w : WordWrite) : coresBeside (carafeStore s k o w) = coresBeside s := by
  have check : coresBeside (carafeCheck s k o) = coresBeside s := by
    simp only [carafeCheck, loseLine]
    split
    · rfl
    · rw [coresBeside_loseComp]
      exact coresBeside_foldl (fun t _ => coresBeside_modL2 t k _) _ s
  simp only [carafeStore, carafeWrite, coresBeside_modL2, apply_ite coresBeside, check, ite_self]

theorem performWrites_unstepped (h : Unstepped c s) (d : CoreId) (mt : MemType) (user : Bool) (ws : List WordWrite) :
    Unstepped c (performWrites s d mt user ws) := by
  cases mt with
  | cached => exact h.of_coresBeside (coresBeside_foldl (fun t g => coresBeside_l2StoreBy t _ _ _ g) _ s)
  | uncached => exact h.of_coresBeside (coresBeside_dramApply s _)
  | device => exact foldl_keeps (Q := Unstepped c) (fun t w ht => mmioWrite_unstepped ht d user _ _ _) _ s h
  | carafe =>
    refine foldl_keeps (Q := Unstepped c) (fun t w ht => ?_) _ s h
    split
    · exact ht.of_coresBeside (carafeStore_beside _ _ w)
    · exact ht

theorem drainOne_unstepped (h : Unstepped c s) (d : CoreId) : Unstepped c (drainOne s d) := by
  unfold drainOne
  split
  · exact h
  · refine performWrites_unstepped ?_ d _ _ _
    exact h.of_modCore d _ fun _ => rfl

theorem drainN_unstepped (n : Nat) (h : Unstepped c s) (d : CoreId) : Unstepped c (drainN n s d) := by
  induction n generalizing s with
  | zero => exact h
  | succ n ih => exact ih (drainOne_unstepped h d)

theorem drainAll_unstepped (h : Unstepped c s) (d : CoreId) : Unstepped c (drainAll s d) := drainN_unstepped _ h d

end

end Sys2Proof.Machine
end

section
/-! PROOFS. TLB invalidation (04 R110, 11 R304 to R306): `INVTLB`, and `INVTLB.B` from its issue to its end. -/

namespace Sys2Proof.Machine

/-- Exactly the entries that the test does not match stay. -/
theorem mem_tlbDrop (t : Tlbs) (m : TlbEntry → Bool) (x : Nat × TlbEntry) : (x ∈ (tlbDrop t m).itlb ↔ x ∈ t.itlb ∧ m x.2 = false)
    ∧ (x ∈ (tlbDrop t m).dtlb ↔ x ∈ t.dtlb ∧ m x.2 = false) ∧ (x ∈ (tlbDrop t m).stlb ↔ x ∈ t.stlb ∧ m x.2 = false) := by
  simp only [tlbDrop, List.mem_filter, Bool.not_eq_true', and_self]

/-! ## The issue -/

section

variable {c : CoreId} {i : Instr} {s s1 s2 : State}

theorem runOn_wait {s0 : State} {body : CM Flow} {w : WaitFor} (n : Nat) (hm : (getCore s c).micro.run = none)
    (hb : body.run s = .error (.wait w) s2) : runOn c i body s0 (n + 1) s = waiting c w i s2 := by
  rw [runOn]
  simp only [hm, Option.isSome_none, Bool.false_eq_true, ↓reduceIte, hb]
  rfl

/-- An instruction that begins to wait in its first run. -/
theorem issue_wait {body : CM Flow} {w : WaitFor} (h : Takes c i s s1) (hb : body s1 = .error (.wait w) s2) :
    issue c i body s = .next (waiting c w i s2) := by
  obtain ⟨s0, ha, hm, hd, -, -, -⟩ := h
  have run : (runInstr c i body).run s0 = .error (.wait w) s2 := by
    have checked : decodeChecks c i s0 = .ok () s1 := hd
    simp only [runInstr, cm_run, cm_bind, checked, hb]
  rw [issue, ha, ← runOn_wait (i := i) (s0 := s0) 31 hm run]
  rfl

theorem takes_replay (h : Takes c i s s1) : (getCore s1 c).replay = Replay.reset := by
  obtain ⟨s0, -, -, -, -, -, hreplay⟩ := h
  exact hreplay

/-- With every write acknowledged once the queue has drained, a fence does not wait. -/
theorem fenceWait_acked (h : unacked (drainAll s c) c = false) : fenceWait c s = .ok () (drainAll s c) := by
  simp only [fenceWait, cm_bind, cm_smod, cm_sget, h, Bool.false_eq_true, if_false, cm_pure]

theorem invOperand_ok {ga : Reg} {sel : BitVec 2} (h : sel.toNat < 2 → plainWord (opnd s c ga) = true) :
    invOperand c ga sel s = .ok (if sel.toNat < 2 then (opnd s c ga).payload else 0) s := by
  unfold invOperand
  split
  · next hsel => simp only [cm_bind, regC_ok c s ga 0 (h hsel), cm_pure]; rfl
  · rfl

/-- `s` where core `c` has dropped the entries of its TLBs that an invalidation of its own matches (11 R304). -/
def selfInvalidated (s : State) (c : CoreId) (sel : BitVec 2) (v : W64) : State :=
  let d := getCore s c
  modCore s c fun k => { k with tlb := tlbDrop k.tlb (invMatch sel d.compart (d.mmu.space.setWidth 12) v) }

/-- `s` where core `c` has queued the broadcast of an invalidation to every core of its compartment that runs (11 R305). -/
def broadcastQueued (s : State) (c : CoreId) (sel : BitVec 2) (v : W64) : State :=
  let d := getCore s c
  let t := invTargets s d.compart
  { s with bcast := s.bcast ++ [(d.compart, { core := c, sel := sel, va := v, sid := d.mmu.space.setWidth 12, toReach := t, toAck := t })] }

theorem selfInvalidated_unstepped (sel : BitVec 2) (v : W64) (h : Unstepped c s) : Unstepped c (selfInvalidated s c sel v) :=
  h.of_modCore c _ fun _ => rfl

section

variable {ga : Reg} {sel : BitVec 2} {v : W64} (hsys : isSys (getCore s1 c) = true) (hv : invOperand c ga sel s1 = .ok v s1)
  (hacked : unacked (drainAll s1 c) c = false)

include hsys hv hacked

theorem invtlb_drops (h : Takes c (.invtlb c ga sel) s s1) :
    exec (.invtlb c ga sel) s = .next (advanced c (.invtlb c ga sel) {} (selfInvalidated (drainAll s1 c) c sel v)) := by
  obtain ⟨hstep, hshadow⟩ := selfInvalidated_unstepped sel v (drainAll_unstepped (takes_unstepped h) c)
  refine issue_taken h ?_ hstep hshadow
  simp only [bodyInvtlb, cm_thenNext, cm_bind, sysOnly_sys hsys, hv, fenceWait_acked hacked, cm_cmod]
  exact congrArg _ (modCore_congr _ c _ _ rfl)

theorem invtlbB_waits (h : Takes c (.invtlbB c ga sel) s s1) :
    exec (.invtlbB c ga sel) s = .next (waiting c .invtlb (.invtlbB c ga sel) (broadcastQueued (drainAll s1 c) c sel v)) := by
  have fresh : (getCore s1 c).replay.done = false := by rw [takes_replay h]; rfl
  refine issue_wait h ?_
  simp only [bodyInvtlbB, cm_thenNext, cm_bind, sysOnly_sys hsys, cm_cget, fresh, Bool.false_eq_true, if_false, hv,
    fenceWait_acked hacked, cm_smod, cm_waitFor]
  rfl

end

/-! ## The broadcast -/

theorem invtlbBArrival_reached {b : Broadcast} (hb : servedBcast s (getCore s c).compart = some b) (hc : b.toReach.contains c = true) :
    exec (.invtlbBArrival c) s =
      let comp := (getCore s c).compart
      let t := drainAll (modCore s c fun k => { keepTlb k with tlb := tlbDrop k.tlb (invMatch b.sel comp b.sid b.va) }) c
      .next { t with bcast := modBcast comp (fun b =>
        { b with toReach := b.toReach.filter (· != c), toAck := b.toAck.filter (· != c) }) t.bcast } := by
  simp only [exec_invtlbBArrival, execInvtlbBArrival, hb, hc, if_true]

/-- The engines' TLBs are no core's. -/
theorem invEngines_cores (comp : BitVec 4) (b : Broadcast) : (invEngines s comp b).cores = s.cores :=
  foldl_keeps (Q := fun t : State => t.cores = s.cores) (fun t k h => (modEng_cores t k _).trans h) _ s rfl

/-- A write of g0 is discarded. -/
theorem withReg_zero (w : Word) : withReg c 0 w s = s := modCore_id s c _ rfl

/-- The answers that an instruction has had are forgotten when it ends. -/
theorem advanced_answers (f : Flow) (r : Core → Replay) : advanced c i f (modCore s c fun k => { k with replay := r k }) = advanced c i f s := by
  simpa only [withReg_zero] using advanced_replay c i f s fixZero 0 r

/-- A core whose wait has ended with its work done, as the instruction that waited begins to run again. -/
def servedCore (k : Core) : Core := { k with wait := none, replay := { k.replay with done := true, seen := 0 } }

theorem advanced_served (f : Flow) : advanced c i f (modCore s c servedCore) = advanced c i f (modCore s c fun k => { k with wait := none }) := by
  rw [← advanced_answers (s := modCore s c fun k => { k with wait := none }) f fun k => { k.replay with done := true, seen := 0 },
    modCore_modCore]
  rfl

/-- An `INVTLB.B` that runs again with its work done has nothing left to do. -/
theorem bodyInvtlbB_served {ga : Reg} {sel : BitVec 2} (hsys : isSys (getCore s c) = true) (hdone : (getCore s c).replay.done = true) :
    bodyInvtlbB c ga sel s = .ok {} s := by
  simp only [bodyInvtlbB, cm_thenNext, cm_bind, sysOnly_sys hsys, cm_cget, hdone, if_true, cm_pure]

section

variable {ga : Reg} {sel : BitVec 2} (hw : (getCore s c).wait = some { what := .invtlb, resume := .instr (.invtlbB c ga sel) })
  (hsys : isSys (getCore s c) = true) (hu : Unstepped c s) (hmicro : (getCore s c).micro.run = none)

include hw hsys hu hmicro

/-- An `INVTLB.B` whose work is done ends when its wait does: nothing that is due comes first, for no cause ends its wait (11 R305). -/
theorem resumeCore_invtlbB : resumeCore c (modCore s c fun k => { k with replay := { k.replay with done := true } })
    = advanced c (.invtlbB c ga sel) {} (modCore s c fun k => { k with wait := none }) := by
  have waits : (getCore (modCore s c fun k => { k with replay := { k.replay with done := true } }) c).wait
      = some { what := .invtlb, resume := .instr (.invtlbB c ga sel) } := by rw [getCore_modCore, hw]
  have kept : abandonable (getCore (modCore s c fun k => { k with replay := { k.replay with done := true } }) c) = false := by
    simp [abandonable, hw, hmicro]
  have ended : bodyInvtlbB c ga sel (modCore s c servedCore) = .ok {} (modCore s c servedCore) :=
    bodyInvtlbB_served (by rw [getCore_modCore]; exact hsys) (by rw [getCore_modCore]; rfl)
  obtain ⟨hstep, hshadow⟩ := hu.of_modCore c servedCore fun _ => rfl
  rw [resumeCore_instr waits, takeDue_of_kept waits kept, Option.getD_none, modCore_modCore, ← advanced_served,
    ← retire_advanced c _ _ _ hstep hshadow]
  exact runOn_ok 31 (by rw [getCore_modCore]; exact hmicro) ended

end

theorem invtlbBComplete_ends {ga : Reg} {sel : BitVec 2} {b : Broadcast} (hb : servedBcast s (getCore s c).compart = some b) (hc : b.core = c)
    (hgone : ∀ x ∈ b.toAck, (getCore s x).run = .held ∨ (getCore s x).run = .locked)
    (hw : (getCore s c).wait = some { what := .invtlb, resume := .instr (.invtlbB c ga sel) })
    (hsys : isSys (getCore s c) = true) (hu : Unstepped c s) (hmicro : (getCore s c).micro.run = none) :
    exec (.invtlbBComplete c) s = .next (advanced c (.invtlbB c ga sel) {}
      (modCore (invEngines { s with bcast := dropBcast (getCore s c).compart s.bcast } (getCore s c).compart b) c
        fun k => { k with wait := none })) := by
  have acked : b.toAck.all (fun x => (getCore s x).run == .held || (getCore s x).run == .locked) = true := by
    simpa only [List.all_eq_true, Bool.or_eq_true, beq_iff_eq] using hgone
  have cores := invEngines_cores (s := { s with bcast := dropBcast (getCore s c).compart s.bcast }) (getCore s c).compart b
  simp only [exec_invtlbBComplete, execInvtlbBComplete, hb]
  rw [if_pos ⟨waitOf_of_wait hw, hc, acked⟩]
  generalize invEngines _ _ _ = t at cores
  have same : getCore t c = getCore s c := by rw [getCore, cores]; rfl
  rw [resumeCore_invtlbB (by rw [same, hw]) (by rw [same, hsys]) (hu.of_cores cores) (by rw [same, hmicro])]

end

/-- Settles O28: the issue of each instruction by what its operation comes to, and the broadcast by what it does at a target and at its end. -/
theorem tlbInvalidation : Obligations.TlbInvalidation := by
  intro c ga sel s s1 b k v u d here i j
  refine ⟨mem_tlbDrop, fun hsys hopnd hacked => ?_, fun hb => ⟨invtlbBArrival_reached hb, fun hc hgone hsys hstep hmicro hshadow hw => ?_⟩⟩
  · have hv : invOperand c ga sel s1 = .ok v s1 := invOperand_ok hopnd
    exact ⟨invtlb_drops hsys hv hacked, invtlbB_waits hsys hv hacked⟩
  · exact invtlbBComplete_ends hb hc hgone hw hsys ⟨hstep, hshadow⟩ hmicro

end Sys2Proof.Machine
end

section
/-! PROOFS. The maintenance engine (12 R322 to R324), the L2 on and off (R319, R320) and the conversion of Carafe ways (R328, R329). -/

namespace Sys2Proof.Machine

/-! ## What maintenance and write-backs leave of an L2 but its lines -/

/-- The L2s of a state, each but for its lines. -/
def l2Beside (s : State) (k : ClusterId) : L2 := { l2Of s k with lines := [] }

theorem l2Beside_of_clusters {s t : State} (h : t.clusters = s.clusters) : l2Beside t = l2Beside s := by
  funext k
  rw [l2Beside, l2Of, getCl, h]
  rfl

theorem l2Beside_modL2 (s : State) (k : ClusterId) (f : L2 → L2) (hf : ∀ l, { f l with lines := [] } = { l with lines := [] }) :
    l2Beside (modL2 s k f) = l2Beside s := by
  funext j
  by_cases hj : j = k
  · rw [hj, l2Beside, l2Of_modL2]
    exact hf _
  · rw [l2Beside, l2Of, modL2, getCl_modCl_of_ne s k j _ hj]
    rfl

section

variable (s : State) (k : ClusterId)

theorem pendMc_clusters (c : CoreId) (r : McReport) : (pendMc s c r).clusters = s.clusters := by
  simp only [pendMc, apply_ite State.clusters, modCore_clusters, ite_self]

theorem logErr_clusters (cls sev comp unit : Nat) (addr info : W64) : (logErr s cls sev comp unit addr info).clusters = s.clusters := by
  simp only [logErr, postEvent]
  split
  · rfl
  · obtain ⟨m, q, hm, -⟩ := ringEvent_posts _ _ _ _ _
    rw [hm]

theorem logParity_clusters (comp : BitVec 4) (addr : W64) : (logParity s k comp addr).clusters = s.clusters := by
  simp only [logParity, logCorrected]
  split
  · exact logErr_clusters _ _ _ _ _ _ _
  · rfl

theorem loseComp_clusters (cls unit : Nat) (p : CompId) (addr : W64) (r : McReport) : (loseComp s cls unit p addr r).clusters = s.clusters := by
  have hall (t : State) : (pendMcAll t p r).clusters = t.clusters := by
    unfold pendMcAll
    split
    · rfl
    · exact LeftByMemory.foldl (view := State.clusters) (fun t c => pendMc_clusters t c r) _ t
  simp only [loseComp, apply_ite State.clusters, modComp_clusters, hall, logErr_clusters, ite_self]

theorem l2Beside_lineToDram (line : Nat) (ws : List Word) : l2Beside (lineToDram s line ws) = l2Beside s :=
  LeftByMemory.foldl (fun t _ => l2Beside_of_clusters (dramWrite_clusters t _ _)) _ s

theorem l2Beside_modL1 (c : CoreId) (f : L1 → L1) : l2Beside (modL1 s c f) = l2Beside s := l2Beside_of_clusters (modCore_clusters s c _)

theorem l2Beside_l2Put (line : Nat) (f : L2Line → L2Line) : l2Beside (l2Put s k line f) = l2Beside s := by
  unfold l2Put
  split
  · exact l2Beside_modL2 s k _ fun l => by split <;> rfl
  · rfl

theorem l2Beside_l2Drop (line : Nat) : l2Beside (l2Drop s k line) = l2Beside s := by
  have backInvalidated (x : L2Line) : l2Beside (backInval s k x) = l2Beside s :=
    LeftByMemory.foldl (fun t j => by simp only [apply_ite l2Beside, l2Beside_modL1, ite_self]) _ s
  unfold l2Drop
  split
  · refine (l2Beside_modL2 _ k _ ?_).trans (backInvalidated _)
    exact fun _ => rfl
  · rfl

theorem l2Beside_dirtyLine (line : Nat) (stateBits : Bool) : l2Beside (dirtyLine s k line stateBits) = l2Beside s := by
  rw [dirtyLine, loseLine, l2Beside_of_clusters (loseComp_clusters _ _ _ _ _ _), l2Beside_lineToDram]
  exact LeftByMemory.foldl (fun t j => l2Beside_l2Drop t j line) _ s

theorem l2Beside_l2Check (line : Nat) : l2Beside (l2Check s k line) = l2Beside s := by
  unfold l2Check
  split
  · rfl
  · simp only [apply_ite l2Beside, l2Beside_dirtyLine, l2Beside_of_clusters (logParity_clusters _ _ _ _), l2Beside_l2Drop, ite_self]

theorem l2Beside_l2Evict (line : Nat) : l2Beside (l2Evict s k line) = l2Beside s := by
  have clean : l2Beside (l2Clean s k line) = l2Beside s := by
    simp only [l2Clean]
    split
    · simp only [apply_ite l2Beside, l2Beside_l2Put, l2Beside_lineToDram, l2Beside_l2Check, ite_self]
    · exact l2Beside_l2Check s k line
  rw [l2Evict, l2Beside_l2Drop, clean]

theorem l2Beside_evictWay (way : Nat) : l2Beside (evictWay s k way) = l2Beside s :=
  LeftByMemory.foldl (fun t line => l2Beside_l2Evict t k line) _ s

theorem l2Beside_dropCarafeCode (w : Nat) : l2Beside (dropCarafeCode s k w) = l2Beside s :=
  LeftByMemory.foldl (fun t c => l2Beside_modL1 t c _) _ s

end

/-! ## Operations on copies (12 R323, R324) -/

section

variable {s : State} {k : ClusterId} {p : CompId} {lo hi : Nat} {counts : State → Nat → Bool} {act : State → Nat → State}
  {dirty : Option (BitVec 44)}

theorem mntRange_empty {m : Mnt} (h : m.start = m.stop) : mntRange s m = .empty := by
  simp [mntRange, h]

theorem bySet_short (h : hi - lo ≤ 0x800000) : bySet lo hi = false := decide_eq_false (by omega)

theorem copiesOp_empty (h : mntRange s (getMnt s k p) = .empty) : copiesOp s k p counts act dirty = mntActed s k p 0 0 false := by
  simp only [copiesOp, h]

theorem copiesOp_outside (hr : mntRange s (getMnt s k p) = .dram lo hi) (hf : dramFence s (compNo p) lo hi = false)
    (hn : hi - lo ≤ 0x800000) : copiesOp s k p counts act dirty = mntActed s k p 2 0 false := by
  simp [copiesOp, hr, hf, bySet_short hn]

theorem copiesOp_inside (hr : mntRange s (getMnt s k p) = .dram lo hi) (hf : dramFence s (compNo p) lo hi = true) :
    copiesOp s k p counts act dirty = overLines s k p lo hi counts act dirty := by
  simp [copiesOp, hr, hf]

theorem overLines_allHeld (hn : hi - lo ≤ 0x800000) (hl : ∀ l ∈ heldLines s (compNo p) lo hi, lostAt s l = none) :
    overLines s k p lo hi counts act none = mntActed ((heldLines s (compNo p) lo hi).foldl act s) k p 0
      ((heldLines s (compNo p) lo hi).filter (counts s)).length false := by
  have noneLost : (heldLines s (compNo p) lo hi).find? (fun d => (lostAt s d).isSome) = none :=
    List.find?_eq_none.mpr fun l h => by rw [hl l h]; decide
  simp only [overLines, noneLost, bySet_short hn]

theorem overLines_lost {d : Nat} {j : ClusterId} (hn : hi - lo ≤ 0x800000)
    (hd : (heldLines s (compNo p) lo hi).find? (fun l => (lostAt s l).isSome) = some d) (hj : lostAt s d = some j) :
    overLines s k p lo hi counts act none = l2Check (mntActed (((heldLines s (compNo p) lo hi).filter (· < d)).foldl act s) k p 4
      (((heldLines s (compNo p) lo hi).filter (· < d)).filter (counts s)).length false) j d := by
  simp only [overLines, hd, hj, bySet_short hn, Option.getD_some]

/-! ## The commands of an engine that is to carry them out -/

theorem clean_due (h : mntDue s k p 1 = true) : exec (.clean k p dirty) s = .next (copiesOp s k p heldM cleanLine dirty) := by
  rw [exec_clean, execClean, if_pos h]

theorem inval_due (h : mntDue s k p 2 = true) : exec (.inval k p) s = .next (copiesOp s k p (fun _ _ => true) invalLine none) := by
  rw [exec_inval, execInval, if_pos h]

theorem cleanInval_due (h : mntDue s k p 3 = true) :
    exec (.cleanInval k p dirty) s = .next (copiesOp s k p (fun _ _ => true) (fun s l => invalLine (cleanLine s l) l) dirty) := by
  rw [exec_cleanInval, execCleanInval, if_pos h]

theorem taginit_due (h : mntDue s k p 4 = true) : exec (.taginit k p) s = .next (taginitOp s k p) := by
  rw [exec_taginit, execTaginit, if_pos h]

/-! ## `TAGINIT` (12 R323) -/

theorem taginitOp_empty (h : mntRange s (getMnt s k p) = .empty) : taginitOp s k p = mntActed s k p 0 0 false := by
  simp only [taginitOp, h]

theorem taginitOp_installed (hr : mntRange s (getMnt s k p) = .dram lo hi) (hf : dramFence s (compNo p) lo hi = true)
    (hu : hi ≤ s.dram.units * 0x40000000) :
    taginitOp s k p = mntActed (dramUninit ((heldLines s (compNo p) lo hi).foldl invalLine s) lo hi) k p 0 ((hi - lo) / 64) false := by
  simp [taginitOp, hr, hf, Nat.min_eq_left hu]

/-- A key of which no listed entry passes the filter has none after it. -/
theorem smGet?_filter_none {α : Type} {m : SMap α} {f : Nat × α → Bool} {i : Nat} (h : ∀ v, f (i, v) = false) :
    smGet? (m.filter f) i = none := by
  refine Option.eq_none_iff_forall_ne_some.mpr fun v hv => ?_
  have passes := (List.mem_filter.mp (mem_of_smGet? hv)).2
  rw [h v] at passes
  cases passes

/-- A range that ends with a line holds nothing but `UNINIT` 0 after the words of it have gone (02 R42). -/
theorem dramUninit_get {o : Nat} (hlo : lo ≤ o) (ho : o < hi) (hline : hi % 64 = 0) :
    smGet dramDefault (dramUninit s lo hi).dram.words (o / 8) = dramDefault := by
  have unlisted : smGet? (dramUninit s lo hi).dram.words (o / 8) = none := by
    refine smGet?_filter_none fun _ => ?_
    simp only [Bool.or_eq_false_iff, decide_eq_false_iff_not]
    omega
  rw [smGet, unlisted]
  rfl

theorem taginit_uninit (hdue : mntDue s k p 4 = true) (hr : mntRange s (getMnt s k p) = .dram lo hi) (hf : dramFence s (compNo p) lo hi = true)
    (hu : hi ≤ s.dram.units * 0x40000000) (hline : hi % 64 = 0) : ∃ t, exec (.taginit k p) s = .next t
      ∧ (getMnt t k p).acted = true ∧ (getMnt t k p).outcome = 0 ∧ (getMnt t k p).count = BitVec.ofNat 32 ((hi - lo) / 64)
      ∧ (∀ o, lo ≤ o → o < hi → smGet dramDefault t.dram.words (o / 8) = dramDefault) := by
  refine ⟨_, (taginit_due hdue).trans (congrArg _ (taginitOp_installed hr hf hu)), ?_⟩
  rw [mntActed, getMnt_modMnt, modMnt_dram]
  exact ⟨rfl, rfl, rfl, fun o hlo ho => dramUninit_get hlo ho hline⟩

end

/-! ## The order of an engine's operations (12 R322) -/

section

variable {s : State} {k : ClusterId} {p : CompId} {rest : List CompId}

theorem maintenanceQueuedStart_oldest (hq : (s.mnt.get k).queue = p :: rest) (h : (getMnt s k p).queued = true) :
    exec (.maintenanceQueuedStart k) s = .next (modMnt s k p fun m => { m with busy := true, queued := false }) := by
  simp only [exec_maintenanceQueuedStart, execMaintenanceQueuedStart, hq, List.head?_cons, h, if_true]

/-- The registers as an operation completes whose result is its outcome. -/
def mntDone (m : Mnt) : Mnt :=
  { m with busy := false, done := true, result := m.outcome, lines := m.count, acted := false, irqPend := m.irqPend || bit m.op 3 }

/-- `s` where the operation of compartment `p` has completed and left the queue. -/
def mntCompleted (s : State) (k : ClusterId) (p : CompId) : State :=
  modMntEng (modMnt s k p mntDone) k fun e => { e with queue := e.queue.drop 1 }

theorem mntCompleted_getMnt (s : State) (k : ClusterId) (p : CompId) : getMnt (mntCompleted s k p) k p = mntDone (getMnt s k p) := by
  simp [mntCompleted, getMnt, modMnt, modMntEng]

theorem mntCompleted_queue (s : State) (k : ClusterId) (p : CompId) :
    ((mntCompleted s k p).mnt.get k).queue = (s.mnt.get k).queue.drop 1 := by
  simp [mntCompleted, modMnt, modMntEng]

theorem maintenanceComplete_acted (hq : (s.mnt.get k).queue = p :: rest) (hb : (getMnt s k p).busy = true) (ha : (getMnt s k p).acted = true)
    (ho : fld (getMnt s k p).op 0 3 < 5) : exec (.maintenanceComplete k) s = .next
      (if (getMnt s k p).outcome = 3 then logErr (mntCompleted s k p) 0x0B 1 p.val k.val 0 3 else mntCompleted s k p) := by
  have assigned : decide (5 ≤ fld (getMnt s k p).op 0 3) = false := decide_eq_false (by omega)
  simp only [exec_maintenanceComplete, execMaintenanceComplete, hq, List.head?_cons, assigned, hb, ha, true_or, and_self, if_true,
    Bool.false_eq_true, if_false]
  rfl

/-- A completion, whose log entry leaves the engines and the cores alone. -/
theorem maintenanceComplete_completes (hq : (s.mnt.get k).queue = p :: rest) (hb : (getMnt s k p).busy = true)
    (ha : (getMnt s k p).acted = true) (ho : fld (getMnt s k p).op 0 3 < 5) :
    ∃ t, exec (.maintenanceComplete k) s = .next t ∧ getMnt t k p = mntDone (getMnt s k p) ∧ (t.mnt.get k).queue = rest
      ∧ t.cores = s.cores := by
  refine ⟨_, maintenanceComplete_acted hq hb ha ho, ?_, ?_, ?_⟩
  · rw [getMnt, apply_ite State.mnt, logErr_mnt, ite_self]
    exact mntCompleted_getMnt s k p
  · rw [apply_ite State.mnt, logErr_mnt, ite_self, mntCompleted_queue, hq]
    rfl
  · rw [apply_ite State.cores, logErr_cores, ite_self]
    rfl

end

/-! ## The L2 on and off (12 R320) -/

section

variable {s : State} {k : ClusterId}

theorem l2On_l2Of (s : State) (k : ClusterId) :
    l2Of (l2On s k) k = { l2Of s k with st := .on, lines := if (l2Of s k).st = .off then [] else (l2Of s k).lines } := by
  rw [l2On, l2Of_modL2]
  generalize l2Of s k = l
  obtain ⟨lines, lfsr, st, n, cur, busy, cown, carafe, cbad, ways⟩ := l
  cases st <;> rfl

theorem l2Off_l2Of (s : State) (k : ClusterId) :
    l2Of (l2Off s k) k = { l2Of s k with st := if (l2Of s k).st = .on then .draining else (l2Of s k).st } := by
  rw [l2Off, l2Of_modL2]
  split <;> rfl

theorem l2DrainComplete_empties (h : (l2Of s k).st = .draining) :
    ∃ t, exec (.l2DrainComplete k) s = .next t ∧ (l2Of t k).st = .off ∧ (l2Of t k).lines = [] := by
  refine ⟨_, by rw [exec_l2DrainComplete, execL2DrainComplete, if_pos h], ?_⟩
  rw [l2Of_modL2]
  exact ⟨rfl, rfl⟩

/-! ## Carafe conversion (12 R328, R329) -/

theorem setCarafeN_within {n : BitVec 4} (h : n ≤ 8) :
    setCarafeN s k n = modL2 s k fun l => { l with carafeN := n, busy := l.cur != n } :=
  if_neg (BitVec.not_lt.mpr h)

theorem mem_clearCarafeWay {l : L2} {w : Nat} : ∀ e ∈ (clearCarafeWay l w).carafe, e.1 / 32768 ≠ w :=
  fun _ he => bne_iff_ne.mp (List.mem_filter.mp he).2

/-- Way `w` has converted, and the count of ways that are Carafe has moved by one. -/
def wayConverted (w : Nat) (move : BitVec 4 → BitVec 4) (l : L2) : L2 :=
  { clearCarafeWay l w with cur := move l.cur, busy := move l.cur != l.carafeN }

/-- A way converts in a state whose L2s differ from those of `s` by lines alone. -/
theorem wayConverted_after {t : State} {w : Nat} {move : BitVec 4 → BitVec 4} (h : l2Beside t = l2Beside s)
    (he : exec (.carafeWayConverted k) s = .next (modL2 t k (wayConverted w move))) :
    ∃ u, exec (.carafeWayConverted k) s = .next u ∧ (l2Of u k).cur = move (l2Of s k).cur
      ∧ (l2Of u k).busy = (move (l2Of s k).cur != (l2Of s k).carafeN) ∧ (∀ e ∈ (l2Of u k).carafe, e.1 / 32768 ≠ w) := by
  have hcur : (l2Of t k).cur = (l2Of s k).cur := show (l2Beside t k).cur = (l2Beside s k).cur by rw [h]
  have hn : (l2Of t k).carafeN = (l2Of s k).carafeN := show (l2Beside t k).carafeN = (l2Beside s k).carafeN by rw [h]
  refine ⟨_, he, ?_⟩
  rw [l2Of_modL2, ← hcur, ← hn]
  exact ⟨rfl, rfl, mem_clearCarafeWay⟩

theorem carafeWayConverted_toCarafe (hb : (l2Of s k).busy = true) (hn : (l2Of s k).cur < (l2Of s k).carafeN) :
    exec (.carafeWayConverted k) s
      = .next (modL2 (dropCarafeCode (evictWay s k (8 + (l2Of s k).cur.toNat)) k (l2Of s k).cur.toNat) k
          (wayConverted (l2Of s k).cur.toNat (· + 1))) := by
  simp only [exec_carafeWayConverted, execCarafeWayConverted, hb, Bool.not_true, Bool.false_eq_true, if_false, if_pos hn]
  rfl

theorem carafeWayConverted_toCache (hb : (l2Of s k).busy = true) (hn : (l2Of s k).carafeN < (l2Of s k).cur) :
    exec (.carafeWayConverted k) s
      = .next (modL2 (dropCarafeCode s k ((l2Of s k).cur.toNat - 1)) k (wayConverted ((l2Of s k).cur.toNat - 1) (· - 1))) := by
  simp only [exec_carafeWayConverted, execCarafeWayConverted, hb, Bool.not_true, Bool.false_eq_true, if_false,
    if_neg (BitVec.not_lt.mpr (BitVec.le_of_lt hn)), if_pos hn]
  rfl

end

/-! ## The statement -/

/-- Settles O43: each operation by what it does to the lines held of its range, the engine by its queue, and the L2 by its control state,
which evictions leave alone. -/
theorem maintenanceAndL2 : Obligations.MaintenanceAndL2 := by
  refine ⟨fun k j p lo hi d rest s => ?_, fun k n s => ?_⟩
  · intro m held
    refine ⟨fun he => ?_, fun hr hf hn hl => ?_, fun hr hf hn hdue hd hj => ?_, fun hr hf hn hdue => ?_, fun hq => ⟨?_, fun hb ha ho => ?_⟩⟩
    · have empty : mntRange s (getMnt s k p) = .empty := mntRange_empty he
      refine ⟨fun hdue => ?_, fun hdue => ?_, fun hdue => ?_, fun hdue => ?_⟩
      · rw [clean_due hdue, copiesOp_empty empty]
      · rw [inval_due hdue, copiesOp_empty empty]
      · rw [cleanInval_due hdue, copiesOp_empty empty]
      · rw [taginit_due hdue, taginitOp_empty empty]
    · have all : held.filter (fun _ => true) = held := List.filter_eq_self.mpr fun _ _ => rfl
      refine ⟨fun hdue => ?_, fun hdue => ?_, fun hdue => ?_, fun hdue hu hline => taginit_uninit hdue hr hf hu hline⟩
      · rw [clean_due hdue, copiesOp_inside hr hf, overLines_allHeld hn hl]
      · rw [inval_due hdue, copiesOp_inside hr hf, overLines_allHeld hn hl, all]
      · rw [cleanInval_due hdue, copiesOp_inside hr hf, overLines_allHeld hn hl, all]
    · intro before
      rw [clean_due hdue, copiesOp_inside hr hf, overLines_lost hn hd hj]
    · rw [inval_due hdue, copiesOp_outside hr hf hn]
    · exact maintenanceQueuedStart_oldest hq
    · obtain ⟨t, hexec, hregs, hqueue, hcores⟩ := maintenanceComplete_completes hq hb ha ho
      refine ⟨t, hexec, ?_⟩
      rw [hregs]
      exact ⟨rfl, rfl, rfl, rfl, rfl, hqueue, hcores⟩
  · intro l
    refine ⟨⟨_, exec_l2ReqOn s k, ?_⟩, ⟨_, exec_l2ReqOff s k, ?_⟩, l2DrainComplete_empties, fun hn => ?_, fun hn => ?_, fun hb hn => ?_, fun hb hn => ?_⟩
    · rw [l2On_l2Of]
      exact ⟨rfl, rfl, rfl⟩
    · rw [l2Off_l2Of]
      exact ⟨rfl, rfl, rfl⟩
    · refine ⟨_, congrArg Host.Outcome.next (setCarafeN_within hn), ?_⟩
      rw [l2Of_modL2]
      exact ⟨rfl, rfl, rfl, rfl⟩
    · exact congrArg Host.Outcome.next (if_pos hn)
    · exact wayConverted_after ((l2Beside_dropCarafeCode _ _ _).trans (l2Beside_evictWay _ _ _)) (carafeWayConverted_toCarafe hb hn)
    · exact wayConverted_after (l2Beside_dropCarafeCode _ _ _) (carafeWayConverted_toCache hb hn)

end Sys2Proof.Machine
end
